-- ==== Sys2Proof/Word.lean ====
section
/-! DEFINITION. The word types of the DT7 (00_scope R6) and the sparse array that memories and register arrays are held in. -/

namespace Sys2Proof

/-- A byte. -/
abbrev Byte := BitVec 8

/-- A 32-bit register. -/
abbrev W32 := BitVec 32

/-- A 64-bit register. -/
abbrev W64 := BitVec 64

/-- A sparse array: (index, value) pairs, indices strictly rising; an index that is not listed holds a default that the
reader of the array supplies, and no entry holds that default. -/
abbrev Arr (α : Type) := List (Nat × α)

end Sys2Proof
end

