-- ==== Sys2Proof/Machine/Bits.lean ====
section
/-! DEFINITION. Bit fields, little-endian bytes, and the sparse array's read and write. -/

namespace Sys2Proof.Machine

/-- Bits [hi:lo] of a natural number. -/
def nbits (x hi lo : Nat) : Nat := (x / 2 ^ lo) % 2 ^ (hi + 1 - lo)

/-- Bit n of a natural number. -/
def nbit (x n : Nat) : Bool := (x / 2 ^ n) % 2 == 1

/-- Bits [hi:lo] of a register. -/
def fld {n : Nat} (x : BitVec n) (hi lo : Nat) : Nat := nbits x.toNat hi lo

/-- Bit i of a register. -/
def bitAt {n : Nat} (x : BitVec n) (i : Nat) : Bool := nbit x.toNat i

/-- A register with bits [hi:lo] replaced. -/
def setFld {n : Nat} (x : BitVec n) (hi lo v : Nat) : BitVec n :=
  BitVec.ofNat n (x.toNat - fld x hi lo * 2 ^ lo + (v % 2 ^ (hi + 1 - lo)) * 2 ^ lo)

/-- 1 or 0. -/
def b2n (b : Bool) : Nat := if b then 1 else 0

/-- The w-bit two's-complement value of x. -/
def sext (w x : Nat) : Int := if nbit x (w - 1) then (x % 2 ^ w : Nat) - (2 ^ w : Nat) else (x % 2 ^ w : Nat)

/-- An integer reduced modulo 2^w. -/
def imod (w : Nat) (x : Int) : Nat := (x % ((2 ^ w : Nat) : Int)).toNat

/-- Quotient rounded up. -/
def cdiv (a b : Nat) : Nat := (a + b - 1) / b

/-- The value of bytes stored little-endian (00 R6). -/
def leNat : List Byte → Nat
  | [] => 0
  | b :: bs => b.toNat + 256 * leNat bs

/-- The n bytes of x, little-endian (00 R6). -/
def leBytes : Nat → Nat → List Byte
  | 0, _ => []
  | n + 1, x => BitVec.ofNat 8 x :: leBytes n (x / 256)

/-- n bytes at an offset of a byte list, 0 beyond its end. -/
def slice (bs : List Byte) (off n : Nat) : List Byte :=
  let l := (bs.drop off).take n
  l ++ List.replicate (n - l.length) 0

/-- A little-endian field of n bytes at an offset. -/
def leAt (bs : List Byte) (off n : Nat) : Nat := leNat (slice bs off n)

/-- A byte list with the bytes at an offset replaced. -/
def splice (bs : List Byte) (off : Nat) (v : List Byte) : List Byte :=
  bs.take off ++ List.replicate (off - bs.length) 0 ++ v ++ bs.drop (off + v.length)

/-- Every byte is zero. -/
def allZero (bs : List Byte) : Bool := bs.all (· == 0)

/-- Read of a sparse array. -/
def arrGet {α : Type} : Arr α → Nat → α → α
  | [], _, d => d
  | (j, w) :: t, k, d => if j = k then w else arrGet t k d

/-- Write of a sparse array; `dflt` says that the value is what an unlisted index holds, so that no entry is kept. -/
def arrPut {α : Type} : Arr α → Nat → α → Bool → Arr α
  | [], k, v, dflt => if dflt then [] else [(k, v)]
  | (j, w) :: t, k, v, dflt =>
    if j < k then (j, w) :: arrPut t k v dflt
    else if j = k then (if dflt then t else (k, v) :: t)
    else if dflt then (j, w) :: t else (k, v) :: (j, w) :: t

/-- Write of a sparse array whose unlisted indices hold d. -/
def arrSet {α : Type} [DecidableEq α] (a : Arr α) (k : Nat) (v d : α) : Arr α := arrPut a k v (decide (v = d))

/-- The canonical form: indices strictly rising. -/
def arrSorted {α : Type} : Arr α → Bool
  | [] => true
  | [_] => true
  | (i, _) :: (j, w) :: t => decide (i < j) && arrSorted ((j, w) :: t)

/-- Add 1 modulo 2^64. -/
def inc64 (x : W64) : W64 := x + 1

/-- Replace entry i of a list by its image. -/
def modAt {α : Type} (l : List α) (i : Nat) (f : α → α) : List α :=
  match l, i with
  | [], _ => []
  | a :: t, 0 => f a :: t
  | a :: t, n + 1 => a :: modAt t n f

/-- Remove entry i of a list. -/
def dropAt {α : Type} (l : List α) (i : Nat) : List α := l.take i ++ l.drop (i + 1)

/-- First index whose entry satisfies p. -/
def indexWhere {α : Type} (p : α → Bool) : List α → Option Nat
  | [] => none
  | a :: t => if p a then some 0 else (indexWhere p t).map (· + 1)

end Sys2Proof.Machine
end

