-- ==== Sys2Proof/Machine/Hash.lean ====
section
/-! DEFINITION. SHA-384 (12 R300, 20 R460), HKDF over it (09 R240) and CRC-32 of IEEE 802.3 (17 R402, 18 R443). PRESUMED (log 6): the algorithms are
those of their standards, which the spec names and does not repeat. -/

namespace Sys2Proof.Machine

/-! ### Constants: fractional parts of roots of primes -/

/-- The first n primes. -/
def firstPrimes (n : Nat) : List Nat := ((List.range 420).filter fun p => decide (2 ≤ p) && (List.range p).all fun d => d < 2 || p % d ≠ 0).take n

/-- The greatest root r below 2^bits whose e-th power is at most n. -/
def rootBelow (e n : Nat) : Nat → Nat → Nat
  | 0, r => r
  | bits + 1, r => rootBelow e n bits (if (r + 2 ^ bits) ^ e ≤ n then r + 2 ^ bits else r)

/-- The first 64 bits of the fractional part of the e-th root of p. -/
def rootFraction (e p : Nat) : W64 := BitVec.ofNat 64 (rootBelow e (p * 2 ^ (64 * e)) 72 0)

/-- The round constants: cube roots of the first 80 primes. -/
def shaRounds : List W64 := (firstPrimes 80).map (rootFraction 3)

/-- The initial value of SHA-384: square roots of the ninth to the sixteenth prime. -/
def shaStart : List W64 := ((firstPrimes 16).drop 8).map (rootFraction 2)

/-! ### The compression -/

/-- XOR of three rotations to the right, the last one a shift where `cut` holds. -/
def mixWord (x : W64) (r : Nat × Nat × Nat) (cut : Bool) : W64 :=
  x.rotateRight r.1 ^^^ x.rotateRight r.2.1 ^^^ if cut then x >>> r.2.2 else x.rotateRight r.2.2

/-- A number from bytes, most significant first. -/
def beNat (bs : List Byte) : Nat := bs.foldl (fun n b => 256 * n + b.toNat) 0

/-- The next word of the schedule from the sixteen before it, oldest first. -/
def nextWord (w : List W64) : W64 :=
  w.getD 0 0 + mixWord (w.getD 1 0) (1, 8, 7) true + w.getD 9 0 + mixWord (w.getD 14 0) (19, 61, 6) true

/-- The working values after a round, with the sixteen schedule words ahead. -/
def shaStep (x : List W64 × List W64) (k : W64) : List W64 × List W64 :=
  match x.1 with
  | [a, b, c, d, e, f, g, h] =>
    let choose := g ^^^ (e &&& (f ^^^ g))
    let most := (a &&& b) ||| (c &&& (a ||| b))
    let t := h + mixWord e (14, 18, 41) false + choose + k + x.2.getD 0 0
    ([t + mixWord a (28, 34, 39) false + most, a, b, c, d + t, e, f, g], x.2.drop 1 ++ [nextWord x.2])
  | _ => x

/-- One block of 128 bytes. -/
def shaBlock (h : List W64) (block : List Byte) : List W64 :=
  let w := (List.range 16).map fun i => BitVec.ofNat 64 (beNat (slice block (8 * i) 8))
  List.zipWith (· + ·) h (shaRounds.foldl shaStep (h, w)).1

/-- n bytes of x, most significant first. -/
def beBytes (n x : Nat) : List Byte := (leBytes n x).reverse

/-- The padded message. -/
def shaPad (bs : List Byte) : List Byte :=
  let n := bs.length
  bs ++ [0x80] ++ List.replicate ((239 - n % 128) % 128) 0 ++ beBytes 16 (8 * n)

/-- SHA-384 as 48 bytes in output order. -/
def sha384 (bs : List Byte) : List Byte :=
  let p := shaPad bs
  let h := (List.range (p.length / 128)).foldl (fun h i => shaBlock h (slice p (128 * i) 128)) shaStart
  (h.take 6).flatMap fun x => beBytes 8 x.toNat

/-! ### HMAC and HKDF (09 R240) -/

/-- HMAC with SHA-384, whose block is 128 bytes; the keys used here are no longer than that. -/
def hmac384 (key text : List Byte) : List Byte :=
  let pad := fun (v : Byte) => (key ++ List.replicate (128 - key.length) 0).map (· ^^^ v)
  sha384 (pad 0x5C ++ sha384 (pad 0x36 ++ text))

/-- The first n bytes, at most 96, of HKDF with SHA-384 (RFC 5869): extract, then two blocks of expand. -/
def hkdf (n : Nat) (ikm salt info : List Byte) : List Byte :=
  let prk := hmac384 salt ikm
  let t1 := hmac384 prk (info ++ [1])
  (t1 ++ hmac384 prk (t1 ++ info ++ [2])).take n

/-- One bit of the reflected CRC-32. -/
def crcBit (c : BitVec 32) : BitVec 32 := if bitAt c 0 then (c >>> 1) ^^^ 0xEDB88320 else c >>> 1

/-- CRC-32 of a byte string. -/
def crc32 (bs : List Byte) : Nat :=
  (~~~(bs.foldl (fun c b => (List.range 8).foldl (fun x _ => crcBit x) (c ^^^ b.setWidth 32)) (0xFFFFFFFF : BitVec 32))).toNat

/-- A KEYID (20 R460): the first 8 bytes of the SHA-384 of the SEC1 uncompressed key. -/
def keyId (key : List Byte) : Nat := leNat ((sha384 key).take 8)

end Sys2Proof.Machine
end

