-- ==== Sys2Proof/Machine/Codes.lean ====
section
/-! DEFINITION. Status codes (14 R338). -/

namespace Sys2Proof.Machine

/-- OK. -/
def stOk : Nat := 0x0000
/-- ACCEPTED. -/
def stAccepted : Nat := 0x0001
/-- BAD_OPCODE. -/
def stBadOpcode : Nat := 0x0100
/-- BAD_PARAM. -/
def stBadParam : Nat := 0x0101
/-- BAD_LENGTH. -/
def stBadLength : Nat := 0x0102
/-- NO_JOB. -/
def stNoJob : Nat := 0x0200
/-- JOB_BUSY. -/
def stJobBusy : Nat := 0x0201
/-- TOKENS_PRESENT. -/
def stTokensPresent : Nat := 0x0300
/-- DRAIN_TIMEOUT. -/
def stDrainTimeout : Nat := 0x0301
/-- REGION_VIOLATION. -/
def stRegionViolation : Nat := 0x0302
/-- IMAGE_DIGEST. -/
def stImageDigest : Nat := 0x0303
/-- EPOCH_REUSE. -/
def stEpochReuse : Nat := 0x0304
/-- FUSION_UNSUPPORTED. -/
def stFusionUnsupported : Nat := 0x0305
/-- TALLY_UNBALANCED. -/
def stTallyUnbalanced : Nat := 0x0400
/-- TALLY_UNDERFLOW. -/
def stTallyUnderflow : Nat := 0x0401
/-- TALLY_OVERFLOW. -/
def stTallyOverflow : Nat := 0x0402
/-- DEADLINE_MISS. -/
def stDeadlineMissed : Nat := 0x0500
/-- CASCADE_NOT_READY. -/
def stCascadeNotReady : Nat := 0x0600
/-- LEAVE_DENIED. -/
def stLeaveDenied : Nat := 0x0700
/-- LEAVE_TIMEOUT. -/
def stLeaveTimeout : Nat := 0x0701
/-- SEAL_BROKEN. -/
def stSealBroken : Nat := 0x0800
/-- SIGNATURE. -/
def stSignature : Nat := 0x0900
/-- ROLLBACK. -/
def stRollback : Nat := 0x0901
/-- DEADLOCK. -/
def stDeadlock : Nat := 0x0A00
/-- SEND_TO_CLOSED. -/
def stSendToClosed : Nat := 0x0A01
/-- FAULT_RECOVERED. -/
def stFaultRecovered : Nat := 0x0B00
/-- FAULT_FATAL. -/
def stFaultFatal : Nat := 0x0B01
/-- CORRECTED. -/
def stCorrected : Nat := 0x0B02
/-- CONTAINED. -/
def stContained : Nat := 0x0B03

end Sys2Proof.Machine
end

