-- ==== Sys2Proof/Config.lean ====
section
/-! DEFINITION. What a module fixes (ordering code, straps, provisioning) and the free values the spec leaves open:
every constant here has no body, so nothing can be proved of its value. -/

namespace Sys2Proof.Config

/-- FREE VALUE. The byte read from external memory that nothing has written since it last lost its contents (09 R228):
of the fresh-value counter and the device address. -/
opaque staleByte : Nat → Nat → BitVec 8

/-- FREE VALUE. Which of the results within the stated error a function of the vector engine returns in normal service
(04 R105: a fixed function of the input alone): of the opcode and the FP32 input. -/
opaque functionPick : Nat → Nat → Nat

/-- FREE VALUE. The result of a function where no enclosure of the model decides its rounding (04 R105, 02 R63): of the
opcode, the rounding mode and the input. -/
opaque functionRest : Nat → Nat → Nat → Nat

/-- FREE VALUE. The set of the ore bin that a line belongs to, modulo 4,096 (08 R209). -/
opaque binSet : Nat → Nat

/-- FREE VALUE. The check bits of a 128-bit data word (09 R222: the code's generator is not in the spec). -/
opaque checkBits : BitVec 128 → BitVec 16

/-- FREE VALUE. What a control frame whose body has no layout in the spec says (17 R402): of its bytes and the number of the
field. -/
opaque frameSays : List (BitVec 8) → Nat → Nat

/-- FREE VALUE. The rest of a control frame that has no layout in the spec (17 R402), as a number: of its kind and the values it tells. -/
opaque frameWord : Nat → List Nat → Nat

/-- FREE VALUE. Words of the random generator (20 R465), by the count of draws: nonces, key slots, salts, challenges,
session keys. -/
opaque randomWord : Nat → BitVec 64

/-- FREE VALUE. A choice the spec leaves to the part (an order, a bit), by the fresh-value counter. -/
opaque choice : Nat → Nat

/-- FREE VALUE. A physical reading that no command carries and the spec gives no value for (temperatures, measured
draws, delays): of the fresh-value counter and the field. -/
opaque reading : Nat → Nat → Nat

/-- FREE VALUE. A byte of a result whose layout or contents the spec does not give (certificate bodies, signatures,
SPDM bodies, live-state layout), by the fresh-value counter, the structure's number and the byte's offset. -/
opaque openByte : Nat → Nat → Nat → BitVec 8

/-- Ordering codes (00 R2). -/
inductive Ordering where
  | dt7_768M | dt7_768 | dt7_576M | dt7_576
deriving DecidableEq, Repr

/-- DESIGN CHOICE (log 1). The module modelled is the one every figure of the manual is for (00 R4). -/
def ordering : Ordering := .dt7_768M

/-- HBM3E bytes per Level (00 R2, R3). -/
def hbmPerLevel : Nat :=
  match ordering with
  | .dt7_768M | .dt7_768 => 192 * 2 ^ 30
  | .dt7_576M | .dt7_576 => 144 * 2 ^ 30

/-- Sealed and type-approved (00 R2). -/
def sealedModule : Bool :=
  match ordering with
  | .dt7_768M | .dt7_576M => true
  | .dt7_768 | .dt7_576 => false

/-- FREE VALUE. The BAR2 size that a host has set through configuration writes (22 R500, R501): the place of the Resizable BAR
registers in configuration space is not in the spec. The size is 2 to the power 36 + n mod 6 bytes. -/
opaque bar2Exp : List (Nat × BitVec 32) → Nat

/-- Byte i of the module's serial number in ASCII (14 R339): fixed at manufacture, value not in the spec. -/
opaque serial : Nat → BitVec 8

/-- The version of the Assay firmware AF (14 R339, 21): fixed at manufacture, value not in the spec. -/
opaque assayVersion : BitVec 64

/-- The device secret S (20 R462): a physical property of the SRAM, not in the spec. -/
opaque deviceSecret : Nat → BitVec 8

/-- FREE VALUE. A byte of an ECDSA P-384 signature (20 R471): of the private key, the message, the fresh-value counter and the byte. -/
opaque signature : Nat → List (BitVec 8) → Nat → Nat → BitVec 8

/-- KEYIDs of the DeviceID key and of Plaend's debug key (20 R462, R480): values not in the spec. -/
opaque deviceKeyId : Nat
opaque debugKeyId : Nat

/-- The header of the flash image as shipped, and its component bodies by code (20 R459, R460): not in the spec. -/
opaque shippedHeader : List (BitVec 8)
opaque shippedBody : Nat → List (BitVec 8)

end Sys2Proof.Config
end

