-- ==== Sys2Proof/Syntax.lean ====
section
/-! DEFINITION. The commands: one constructor per row of the table of operations and events, and the operand types. -/

namespace Sys2Proof

/-- A queue with twin pointers (10 R259): a tile's receive queue, a port's host stream FIFO, a Jorzin port's inbound queue of
one LVC, or a hub combining queue. -/
inductive QueueRef where
  | tileQ (t q : Nat)
  | hostFifo (p : Nat)
  | jorzinIn (p lvc : Nat)
  | combiner (n : Nat)
deriving DecidableEq, Repr

/-- A host access to a BAR: a read of n bytes, or a write of the bytes that its byte enables cover (14 R351). -/
inductive BusAccess where
  | read (n : Nat)
  | write (data : List (Option Byte))
deriving DecidableEq, Repr

/-- A Jorzin frame between header and trailer (17 R402): FTYPE, LVC, SEQ, the sending device of the hop, and the body. -/
structure Frame where
  ftype : Nat
  lvc : Nat
  seq : Nat
  sdev : Nat
  body : List Byte
deriving DecidableEq, Repr

/-- The counting units (18 R425). -/
inductive CountUnit where
  | tile (t : Nat)
  | router (t : Nat)
  | queue (t : Nat)
  | link (t kind : Nat)
  | channel (stack pc : Nat)
  | stack (n : Nat)
  | package (n : Nat)
  | lane (p l : Nat)
  | pcie (p : Nat)
  | hubQueue (k n : Nat)
deriving DecidableEq, Repr

/-- A fault that a checker finds (18 R424 to R433): a counted event of a unit (with its location word and device address), an
uncorrectable error in a unit of a tile, in a flit at a tile's router (of data message or control message i), of a link, in HBM3E or
LPDDR5X at an address, a word that an error over three or more symbols has changed unseen (09 R222: the bits by which it differs), a pseudo-channel or stack lost, a lasting lane fault, and the loss of a die (0 to 3 compute, 4 to 7 base, 8 hub). -/
inductive FaultEvent where
  | counted (u : CountUnit) (loc1 addr : Nat)
  | tileUnit (t unit index : Nat)
  | flit (t i : Nat)
  | ctlFlit (t i : Nat)
  | linkFlit (t kind i : Nat)
  | hbm (addr : Nat)
  | lpddr (addr : Nat)
  | wrongWord (addr : Nat) (bits : BitVec 128)
  | channelLost (stack pc : Nat)
  | stackLost (n : Nat)
  | laneFault (p l : Nat)
  | dieLost (die : Nat)
deriving DecidableEq, Repr

/-- What the scrubber finds in a word (18 R440). -/
inductive ScrubResult where
  | clean | corrected | uncorrectable
deriving DecidableEq, Repr

/-- What enters or leaves a power state (19 R449). -/
inductive PowerUnit where
  | tile (t : Nat)
  | level (n : Nat)
  | device
deriving DecidableEq, Repr

/-- What start-up meets (19 R453, R456): the failure code if a step fails, and the tiles, HBM3E stacks and LPDDR5X packages
that fail their tests or training. -/
structure Boot where
  fail : Option Nat
  badTiles : List Nat
  badStacks : List Nat
  badPackages : List Nat
deriving DecidableEq, Repr

/-- What takes the module to OFF (19 R449, R516). -/
inductive OffCause where
  | pwrEnLow | loss56 | thermal
deriving DecidableEq, Repr

/-- A signed message on the management port (20 R468): the DeviceID KEYID and the challenge it carries, and whether its
signature verifies under the key that must sign it. -/
structure SignedMsg where
  keyid : Nat
  challenge : Nat
  sigOk : Bool
deriving DecidableEq, Repr

/-- The commands. Operands: t tile, q unit queue or queue, sl stream slot, i position among the messages or control messages on
their way, p port, k packet ticket, n Level, tr SPDM transport. -/
inductive Instr where
  /-- DISPATCH (R135): The sequencer takes the instruction at PC and either executes it as a sequencer instruction or places it in the unit queue it belongs to. -/
  | dispatch (t : Nat)
  /-- POINTER_ENTRY_READ (R175): The sequencer reads the pointer-list entry of an iteration, waiting while its slot is empty and checking its reserved bits. -/
  | pointerEntryRead (t : Nat)
  /-- MARK (R149): MARK waits at its queue head until the shaft count reaches its target, then leaves and counts itself late if the target had passed. -/
  | mark (t q : Nat)
  /-- CSET (R152): CSET writes 32 or 64 bits into the tile's own control space once its target register allows. -/
  | cset (t q : Nat)
  /-- CGET (R152): CGET reads 32 or 64 bits of the tile's control space into a sequencer register. -/
  | cget (t q : Nat)
  /-- MMA (R74): MMA checks its descriptor and the coarse product, then issues products that continue the running sums of the FILL bank. -/
  | mma (t : Nat)
  /-- MMAZ (R78): MMAZ checks its descriptor, sets ACCn_SCALE, and starts new running sums in the FILL bank. -/
  | mmaz (t : Nat)
  /-- MMA_COMPLETE (R144): The last product of an MMA or MMAZ issues; the instruction leaves MXQ and its results become readable L A-cycles later. -/
  | mmaComplete (t : Nat)
  /-- ACCSW (R80): Once the other bank is IDLE, ACCSW turns the FILL bank into DRAIN and the other bank into FILL. -/
  | accsw (t : Nat)
  /-- VRUN (R97): A VRUN reaches the head of VXQ, waits for the previous run and for its banks, checks its descriptor and program, and starts the run. -/
  | vrun (t : Nat)
  /-- VSCAN (R113): A VSCAN starts a scan run over independent chains, starting each chain from the identity or from the carry file. -/
  | vscan (t : Nat)
  /-- RUN_COMPLETE (R97): A run's last write and last row-state record are written; the row commit is applied and any release flag frees the DRAIN bank. -/
  | runComplete (t : Nat)
  /-- STRM (R154): STRM waits until its stream slot is free, then starts a descriptor chain on that slot. -/
  | strm (t : Nat)
  /-- DESCRIPTOR_FETCH (R194): A stream slot fetches a burst of descriptors from one scratchpad slot and makes the acceptance checks on them. -/
  | descriptorFetch (t sl : Nat)
  /-- DESCRIPTOR_COMPLETE (R203): A transfer descriptor completes; it applies its tag changes and, when SIG is 1, signals its tally. -/
  | descriptorComplete (t sl : Nat)
  /-- TAG_WAIT_RESUME (R187): An access that was waiting on a slot tag proceeds in the M-cycle after the tag changes, in the order of R188. -/
  | tagWaitResume (t sl : Nat)
  /-- DEADLINE_MISS (R213): The shaft count reaches a stream deadline with elements still unwritten; the miss is counted and recorded, and DLACT is applied. -/
  | deadlineMiss (t sl : Nat)
  /-- STRW (R155): STRW writes one 32-bit word of a scratchpad descriptor through the write-gather buffer. -/
  | strw (t : Nat)
  /-- WGB_IDLE_FLUSH (R190): A write-gather entry that has received no write for 64 M-cycles is flushed. -/
  | wgbIdleFlush (t line : Nat)
  /-- SEND (R156): SEND injects a data message to the destination word in s[SA], waiting under back-pressure between flits. -/
  | send (t : Nat)
  /-- COMB (R156): COMB injects a ranked contribution to a combining queue. -/
  | comb (t : Nat)
  /-- RECV (R157): RECV waits until the queue's head message is visible, acquires it and writes its header to a register. -/
  | recv (t : Nat)
  /-- RECV_PAIR (R158): RECV with PAIR set waits for the head messages of two queues and acquires both together. -/
  | recvPair (t : Nat)
  /-- RECV_FREE (R157): RECV with FREE set frees the oldest acquired message of a queue and moves spilled messages back into the freed space. -/
  | recvFree (t : Nat)
  /-- TADD (R159): After the earlier instructions of its queue have completed, TADD sends an addition to a tally. -/
  | tadd (t q : Nat)
  /-- TDEC (R159): After the earlier instructions of its queue have completed, TDEC sends a subtraction to a tally without waiting. -/
  | tdec (t q : Nat)
  /-- TWAIT (R159): TWAIT registers a waiter on a tally and waits at its queue head for the satisfied reply. -/
  | twait (t q : Nat)
  /-- BARR (R160): BARR records the tile's arrival at the current phase of a barrier. -/
  | barr (t q : Nat)
  /-- BWAIT (R160): BWAIT waits until the phase of the tile's last arrival at the barrier has completed. -/
  | bwait (t q : Nat)
  /-- WFETCH (R161): WFETCH sends a fetch to a work counter of the tile's Level and waits for the reply. -/
  | wfetch (t : Nat)
  /-- TILE_FINISHED (R139): A HALTED tile's queues, instructions and chains have all completed; the tile becomes FINISHED and its receive queues close. -/
  | tileFinished (t : Nat)
  /-- DATA_MESSAGE (R522): A data message reaches its destination router and is tested for epoch, generation, queue and length, then stored or refused. -/
  | dataMessage (i : Nat)
  /-- CONTRIBUTION (R266): A combining contribution arrives and is held or folded; a completed tag is delivered as a message. -/
  | contribution (i : Nat)
  /-- SEND_NOTICE (R262): A send notice arrives at the sender tile; NOTICE is counted, a SEND_TO_CLOSED record is written and an event is raised. -/
  | sendNotice (i : Nat)
  /-- QUEUE_POINTER_RESET (R259): A queue's twin pointer copies disagree; the queue resets its pointers, discards its contents, counts them and writes a contained record. -/
  | queuePointerReset (u : QueueRef)
  /-- SPILL (R270): A message has waited SPTHR M-cycles at a HIGH plain queue, so the queue starts writing arrivals to its spill area. -/
  | spill (t q : Nat)
  /-- NO_PROGRESS_TIMEOUT (R272): A tile's no-progress timer reaches LIMIT; the device raises DEADLOCK and writes the records naming the waits. -/
  | noProgressTimeout (t : Nat)
  /-- ROUTE_HOLD_RELEASE (R252): After a route update, messages held at their routers are released once every message on the old path has been ejected. -/
  | routeHoldRelease (src dst : Nat)
  /-- TALLY_OPERATION (R282): The Level units receive a tally operation, check its epoch and limits, apply it and serve waiters in order. -/
  | tallyOperation (i : Nat)
  /-- TWAIT_SATISFIED (R283): A TWAIT satisfied reply reaches its tile, and the waiting TWAIT leaves its queue head. -/
  | twaitSatisfied (i : Nat)
  /-- BARRIER_ARRIVAL (R289): The Level units record a member's arrival and, when every member has arrived, complete the phase and send releases. -/
  | barrierArrival (i : Nat)
  /-- BARRIER_RELEASE (R289): A barrier release reaches a member tile, completing the phase for its BWAIT or pending BARR. -/
  | barrierRelease (i : Nat)
  /-- BARRIER_TIMEOUT (R291): A barrier phase has not completed TMO shaft ticks after its first arrival; the barrier fails with DEADLOCK. -/
  | barrierTimeout (bid : Nat)
  /-- WORK_FETCH (R297): The Level units apply a work fetch, in counter or task mode, and send the reply. -/
  | workFetch (i : Nat)
  /-- WORK_FETCH_REPLY (R161): A work-fetch reply reaches the tile; it is written to the register and the WFETCH leaves its queue head. -/
  | workFetchReply (i : Nat)
  /-- SQ_TAIL_DOORBELL (R324): Host software writes an SQ tail doorbell, which submits the slots up to the new tail or stops the queue on a bad value. -/
  | sqTailDoorbell (p q v : Nat)
  /-- CQ_HEAD_DOORBELL (R326): Host software writes a CQ head doorbell, which frees entries so that held replies can be written. -/
  | cqHeadDoorbell (p q v : Nat)
  /-- SQ_CFG_WRITE (R348): A write to SQ_CFG configures an SQ; clearing EN drops its untaken packets. -/
  | sqCfgWrite (p q : Nat) (v : BitVec 64) (be : BitVec 8)
  /-- CQ_CFG_WRITE (R348): A write to CQ_CFG configures a CQ; setting EN sets the phase to 1 and the tail to 0. -/
  | cqCfgWrite (p q : Nat) (v : BitVec 64) (be : BitVec 8)
  /-- PACKET_TAKE (R325): The CP or the fast path takes a packet from an SQ in round-robin order and makes the checks of R332. -/
  | packetTake (p q : Nat) (bytes : List Byte)
  /-- CQ_REPLY_WRITE (R326): A reply or event held for a full CQ is written once an entry has been freed. -/
  | cqReplyWrite (p q : Nat)
  /-- CQ_COALESCE_TIMEOUT (R352): COALT µs after the first unsignalled entry, the CQ raises its MSI-X vector. -/
  | cqCoalesceTimeout (p q : Nat)
  /-- REGISTER_WRITE (R8): A write to a register that has no row of its own acts according to its access type. -/
  | registerWrite (p pf off : Nat) (v : BitVec 64) (be : BitVec 8)
  /-- BAR2_ACCESS (R351): A host access through BAR2 is checked and reaches device memory, a scratchpad window or a tile control space. -/
  | bar2Access (p off : Nat) (a : BusAccess)
  /-- BAR0_LEVEL_UNIT_ACCESS (R350): A BAR0 access to Level units or cascade-barrier definitions acts for the computing job's port, and is refused from any other. -/
  | bar0LevelUnitAccess (p off : Nat) (a : BusAccess)
  /-- HOST_FIFO_WRITE (R349): Bytes written to the host stream FIFO window are appended, or discarded and counted in OVF when the FIFO is full. -/
  | hostFifoWrite (p : Nat) (bytes : List Byte)
  /-- NOP (R337): NOP replies OK. -/
  | nop (k : Nat)
  /-- IDENTIFY (R339): IDENTIFY writes the identify structure and reports the ordering code. -/
  | identify (k : Nat)
  /-- GET_STATUS (R337): GET_STATUS returns DEVSTAT and the computing job. -/
  | getStatus (k : Nat)
  /-- SET_FEATURE (R340): SET_FEATURE sets a device feature and returns its previous value. -/
  | setFeature (k : Nat)
  /-- GET_FEATURE (R340): GET_FEATURE returns the value of a feature. -/
  | getFeature (k : Nat)
  /-- RESET (R446): RESET causes a WARM, LEVEL or TILE reset, or a cascade reset, and replies once it is released. -/
  | reset (k : Nat)
  /-- RESET_RELEASE (R446): A WARM, LEVEL or TILE reset ends and is released; its generation effects and replies follow. -/
  | resetRelease (i : Nat)
  /-- REGION_CREATE (R227): REGION_CREATE allocates a region, derives its key and initialises it as needed. -/
  | regionCreate (k : Nat)
  /-- REGION_DESTROY (R230): REGION_DESTROY waits for the region's accesses to end, then crypto-erases the region and frees its granules. -/
  | regionDestroy (k : Nat)
  /-- COPY (R377): COPY moves bytes between device memory and host memory through the hub's copy engines. -/
  | copy (k : Nat) (dma : List Byte)
  /-- FILL (R377): FILL writes a repeated pattern over a range. -/
  | fill (k : Nat)
  /-- REGION_PROTECT (R229): REGION_PROTECT sets the TW, HR and HW rights of a region. -/
  | regionProtect (k : Nat)
  /-- JOB_OPEN (R354): JOB_OPEN opens a job, with a save area and key slot for a BE job. -/
  | jobOpen (k : Nat)
  /-- JOB_CLOSE (R336): JOB_CLOSE stops the job's sections, completes its commands, makes the JOB reset and destroys its regions. -/
  | jobClose (k : Nat)
  /-- JOB_PREEMPT (R363): JOB_PREEMPT switches out a computing BE job by a forced switch. -/
  | jobPreempt (k : Nat)
  /-- JOB_QUERY (R342): JOB_QUERY writes a job record or a client record. -/
  | jobQuery (k : Nat)
  /-- SECTION_LOAD (R306): SECTION_LOAD locks, verifies, prepares and writes a configuration image into a tile region. -/
  | sectionLoad (k : Nat) (sigOk : Bool)
  /-- LOAD_DRAIN_DONE (R309): In DRAIN mode, the region reaches the quiesced condition and the write phase begins. -/
  | loadDrainDone
  /-- LOAD_DRAIN_TIMEOUT (R309): The DRAIN bound passes without quiescence, and the load fails with DRAIN_TIMEOUT. -/
  | loadDrainTimeout
  /-- FRAME_RECORD (R311): A column loader writes a frame record into every good tile of its rows, after testing it against the tile region. -/
  | frameRecord
  /-- COMMAND_RECORD_WRITE (R304): A WRITE command record stores a value at a device address. -/
  | commandRecordWrite
  /-- COMMAND_RECORD_BCAST (R304): A BCAST command record stores a value at one control-space offset in every good tile of a rectangle. -/
  | commandRecordBcast
  /-- COMMAND_RECORD_WAIT (R304): A WAIT command record polls an address every 0.1 µs until the masked value matches. -/
  | commandRecordWait
  /-- LOAD_WAIT_TIMEOUT (R312): A WAIT record times out and the load ends with DRAIN_TIMEOUT, leaving the region's epochs at 255. -/
  | loadWaitTimeout
  /-- SECTION_LAUNCH (R343): SECTION_LAUNCH checks the tiles, asks leave and starts a section, or makes a claim on the device. -/
  | sectionLaunch (k : Nat)
  /-- SECTION_START (R420): When the shaft count reaches AT and leave has been granted, the tiles start and the replay snapshot is taken. -/
  | sectionStart (k : Nat)
  /-- SECTION_STOP (R343): SECTION_STOP stops a rectangle's tiles as a DISCARD load does. -/
  | sectionStop (k : Nat)
  /-- SECTION_COMMIT (R436): SECTION_COMMIT commits a replayable section and discards its input log and snapshot. -/
  | sectionCommit (k : Nat)
  /-- SECTION_SAVE (R345): SECTION_SAVE writes a section save of a rectangle. -/
  | sectionSave (k : Nat)
  /-- SECTION_RESTORE (R345): SECTION_RESTORE restores a section save into a rectangle. -/
  | sectionRestore (k : Nat)
  /-- TALLY_MAP (R280): TALLY_MAP writes entries of the job's tally map. -/
  | tallyMap (k : Nat)
  /-- TALLY_SIGNAL (R282): TALLY_SIGNAL adds N to a tally from the host. -/
  | tallySignal (k : Nat)
  /-- TALLY_WAIT (R283): TALLY_WAIT registers a host waiter on a tally and replies once it is satisfied. -/
  | tallyWait (k : Nat)
  /-- BARRIER_DEFINE (R290): BARRIER_DEFINE writes a barrier unit or a cascade-barrier definition. -/
  | barrierDefine (k : Nat)
  /-- STREAM_SUBMIT (R346): STREAM_SUBMIT injects host stream FIFO data as messages, waiting for data that has not yet arrived. -/
  | streamSubmit (k : Nat)
  /-- HOSTFIFO_CONFIG (R504): HOSTFIFO_CONFIG sets the FIFO's watermarks and threshold. -/
  | hostfifoConfig (k : Nat)
  /-- CASCADE_CONFIG (R399): CASCADE_CONFIG checks the topology and sets the cascade membership, IDs, participation mask and tick ratio. -/
  | cascadeConfig (k : Nat)
  /-- CASCADE_FORWARD (R337): CASCADE_FORWARD runs an embedded packet on each device named in a mask. -/
  | cascadeForward (k : Nat) (replies : List (Nat × Nat))
  /-- COLLECTIVE (R407): COLLECTIVE sums a vector across cascade members through the hub combiners. -/
  | collective (k : Nat) (others : List (Nat × List Byte))
  /-- POWER_CEILING (R380): POWER_CEILING sets the device ceiling or the cascade ceiling. -/
  | powerCeiling (k : Nat)
  /-- POWER_QUERY (R337): POWER_QUERY reports the ceiling, the granted draw, the input power and the throttle state. -/
  | powerQuery (k : Nat) (watts : Nat)
  /-- METER_READ (R494): METER_READ has the Assay die write a SNAPSHOT record of the current totals. -/
  | meterRead (k : Nat)
  /-- METER_RECORDS (R494): METER_RECORDS returns stored meter records in ascending SEQ. -/
  | meterRecords (k : Nat)
  /-- UPDATE_COMPONENT (R474): UPDATE_COMPONENT reads and checks a component package and stages it. -/
  | updateComponent (k : Nat) (pkg : List Byte) (psigOk osigOk : Bool)
  /-- COMPONENT_SWAP (R475): At the component's quiescent point, the staged component is swapped in and measurements and certificates are updated. -/
  | componentSwap
  /-- FLASH_REWRITE_DONE (R476): The staged body and header are journalled and copied into the image area, and UPDATE_COMPONENT replies OK. -/
  | flashRewriteDone
  /-- ATTEST (R471): ATTEST writes a signed measurement report. -/
  | attest (k : Nat)
  /-- DEBUG_UNLOCK (R480): DEBUG_UNLOCK returns a challenge, or verifies a token, erases every key and job, and opens JTAG. -/
  | debugUnlock (k : Nat) (token : List Byte) (sigOk : Bool)
  /-- TELEMETRY (R337): TELEMETRY writes a 4 KiB counter page for each selected Level. -/
  | telemetry (k : Nat)
  /-- ERRLOG_READ (R445): ERRLOG_READ returns the held error records in a sequence range and releases the freeze area once it has been read. -/
  | errlogRead (k : Nat)
  /-- SELFTEST (R64): SELFTEST asks leave and runs known-answer tests on the selected Levels in Touchstone mode. -/
  | selftest (k : Nat) (failed : List Nat)
  /-- TILE_RETIRE (R337): TILE_RETIRE retires a named tile. -/
  | tileRetire (k : Nat)
  /-- RETRAIN (R479): RETRAIN retrains an HBM3E stack, an LPDDR5X package or a Jorzin port while its traffic is evacuated. -/
  | retrain (k : Nat)
  /-- FORCED_SWITCH (R359): A forced switch stops the job's inputs and lets its tiles drain, then stops them, scans their live state out and hands over. -/
  | forcedSwitch
  /-- SWITCH_DRAIN_END (R359): Every tile of the outgoing job is finished or waiting, so the tiles stop and the scan begins. -/
  | switchDrainEnd
  /-- SWITCH_DRAIN_TIMEOUT (R359): The drain bound expires and the tiles are stopped at instruction boundaries. -/
  | switchDrainTimeout
  /-- SWITCH_SCAN_END (R359): The scan of the live state ends; control state, Level units and key slot are handed to the next job. -/
  | switchScanEnd
  /-- BOUNDARY_SWITCH (R358): Once the BE job's running sections have ended, the device scans the job out and hands over. -/
  | boundarySwitch
  /-- PREEMPT_WAIT_TIMEOUT (R358): A BE section is still running W after the decision, so a forced switch begins. -/
  | preemptWaitTimeout
  /-- JOB_RESTORE (R362): When the device is free and a pre-empted job heads the BE queue, its save area is scanned back in. -/
  | jobRestore
  /-- RESTORE_END (R362): The restore ends; the job computes, and its waiting commands and held inputs proceed. -/
  | restoreEnd
  /-- RAMP_WINDOW (R381): A new 10 µs ramp window begins; the Banksman books requests and restoration steps, and grants leave where booking completes. -/
  | rampWindow
  /-- LEAVE_TIMEOUT (R384): A launch's TMO passes without leave; its bookings are returned and it replies LEAVE_TIMEOUT. -/
  | leaveTimeout (k : Nat)
  /-- SUPPLY_SAMPLE (R389): The hub samples the 56 V input each µs and enters brownout hold or a power-fail reset when a level is crossed. -/
  | supplySample (v : Nat)
  /-- BROWNOUT_END (R389): Samples have stood at or above the recovery level for 100 µs; the hold ends and restoration begins. -/
  | brownoutEnd
  /-- THERMAL_SAMPLE (R393): Each die reports its temperature every 10 µs; the device throttles, or trips the module to OFF at 120 °C. -/
  | thermalSample (die temp : Nat)
  /-- THERMAL_RESTORE_STEP (R393): After a thermal throttle, one step of e is restored in each 100 µs. -/
  | thermalRestoreStep
  /-- CASCADE_DEMAND (R387): Every 50 µs a member sends its power demand to the Pithead. -/
  | cascadeDemand (d w : Nat)
  /-- CASCADE_SHARE (R387): The Pithead computes the members' power shares and a member takes its share when it arrives. -/
  | cascadeShare (w : Nat)
  /-- SHARE_TIMEOUT (R387): A member that has received no share for 1 ms takes 1,000 W as its share. -/
  | shareTimeout
  /-- RESET_CASCADE (R413): SHCMD RESET-CASCADE puts every device into a WARM reset. -/
  | resetCascade
  /-- SHCMD_HALT (R413): SHCMD HALT stops the computing cascade job's sections on every device and fails the job. -/
  | shcmdHalt
  /-- THROTTLE (R388): SHCMD THROTTLE brings every device to its power floor. -/
  | throttle
  /-- FREEZE_LOG (R445): SHCMD FREEZE-LOG writes a record and freezes the 1,024 newest error records. -/
  | freezeLog
  /-- SHCMD_BARRIER_RELEASE (R293): SHCMD BARRIER-RELEASE completes the current phase of each cascade barrier whose line was sampled high. -/
  | shcmdBarrierRelease (lines : BitVec 4)
  /-- RESUME (R388): SHCMD RESUME ends the throttle, and grants are restored. -/
  | resume
  /-- SHCMD_MARK (R418): SHCMD MARK makes devices holding a staged count load it. -/
  | shcmdMark
  /-- SHBAR_RELEASED (R293): The Pithead samples a participating SHBAR_N line released and drives BARRIER-RELEASE. -/
  | shbarReleased (line : Nat)
  /-- SHFLT_ASSERTED (R415): The Pithead samples SHFLT_N low and makes FREEZE-LOG due, then HALT when a cascade job computes. -/
  | shfltAsserted
  /-- SHACK_RELEASED (R414): The Pithead samples SHACK_N high and replies to the command it drove and posts its events. -/
  | shackReleased
  /-- SHAFT_TICK (R416): SHMARK high at an edge advances the shaft count, against which scheduled events are evaluated. -/
  | shaftTick
  /-- SHAFT_REF_EDGE (R417): A SHAFT_REF rising edge makes the Pithead owe M ticks, spread over the measured interval. -/
  | shaftRefEdge (interval : Nat)
  /-- SHAFT_REF_TIMEOUT (R417): With no SHAFT_REF edge for twice the last interval, SHMARK stops and a contained record is written. -/
  | shaftRefTimeout
  /-- SHCLK_LOSS (R419): A Member sees no SHCLK edge for 1 µs; it fails the cascade job, clears READY and holds its count. -/
  | shclkLoss
  /-- CASCADE_READY (R421): The Pithead has sampled SHDONE high at 16 edges; it computes routes, stages Members, enables data frames and sets READY. -/
  | cascadeReady
  /-- DEVICE_LOSS (R422): A device becomes unreachable; routes are recomputed and open cascade jobs fail. -/
  | deviceLoss (d : Nat)
  /-- DEVICE_JOIN (R422): A newly trained device is staged, enabled and marked present. -/
  | deviceJoin (d : Nat)
  /-- JORZIN_FRAME (R404): A data or control frame arrives; it is accepted in sequence, or discarded and answered with a nack. -/
  | jorzinFrame (p : Nat) (f : Frame) (crcOk : Bool)
  /-- JORZIN_ACK (R404): An ack frees the frames it covers from the replay buffer. -/
  | jorzinAck (p aseq : Nat)
  /-- JORZIN_NACK (R404): A nack makes the sender resend from the frame named. -/
  | jorzinNack (p aseq : Nat)
  /-- JORZIN_CREDIT (R403): A credit frame returns credits for each link VC. -/
  | jorzinCredit (p c0 c1 c2 : Nat)
  /-- JORZIN_ACK_TIMEOUT (R404): No ack has arrived within 4 µs of a frame, so the sender resends from the oldest unacknowledged frame. -/
  | jorzinAckTimeout (p : Nat)
  /-- PORT_RETRAIN_END (R405): A port's retraining ends, or exceeds 150 µs and takes the port down, and flows resume or move. -/
  | portRetrainEnd (p : Nat) (ok : Bool)
  /-- JORZIN_ROUTE_HOLD_RELEASE (R400): Held flows are released once the old path's frames have been acknowledged. -/
  | jorzinRouteHoldRelease (d : Nat)
  /-- ERROR_EVENT (R424): A checker finds a fault; the fault is counted in its window, recorded, and the lasting-fault action is taken at threshold. -/
  | errorEvent (e : FaultEvent)
  /-- REPLAY_TIMEOUT (R439): The replay reaches TMAX of delivered A-clock edges without ending; recovery is abandoned and the job fails. -/
  | replayTimeout
  /-- SUMMARY_RECORD (R425): Once a second, a saturated counting unit writes a summary record. -/
  | summaryRecord (u : CountUnit)
  /-- FLASH_COUNT_WRITE (R425): The lifetime counts are rewritten to flash at most once a minute. -/
  | flashCountWrite
  /-- CONFIG_SCRUB (R440): The configuration scrubber reads a word and corrects it, rewrites it from the image, or declares a lasting fault. -/
  | configScrub (t off : Nat) (r : ScrubResult)
  /-- SCRUBBER_CRC_CHECK (R441): Every 1 ms the Level controller checks the scrubber's CRC and reloads the scrubber on a failure. -/
  | scrubberCrcCheck (n : Nat) (ok : Bool)
  /-- LOCKSTEP_MISMATCH (R442): A Level controller pair mismatches; it stops and is reloaded. -/
  | lockstepMismatch (n : Nat)
  /-- LC_HEARTBEAT (R442): Hub cores check the Level controller's heartbeat every 100 µs and reload it after three misses. -/
  | lcHeartbeat (n : Nat) (seen : Bool)
  /-- LC_RELOAD_WATCHDOG (R442): A Level controller reload is not complete within 5 ms, so the Level is reset. -/
  | lcReloadWatchdog (n : Nat)
  /-- HUB_WATCHDOG_EXPIRY (R442): The hub management cores mismatch or their watchdog expires; this is device-fatal. -/
  | hubWatchdogExpiry
  /-- ENTER_A1 (R449): An idle tile or Level unit enters A1 after 64 cycles without an access. -/
  | enterA1 (u : PowerUnit)
  /-- ENTER_S1 (R449): An unconfigured idle tile enters S1 after 100 µs without an access. -/
  | enterS1 (t : Nat)
  /-- ENTER_S2 (R449): A Level whose tiles have all been in S1 for 1 ms, with no job computing, enters S2. -/
  | enterS2 (n : Nat)
  /-- ENTER_S3 (R449): The device enters S3 after every Level is in S2 and 1 s passes with no command. -/
  | enterS3
  /-- WAKE_COMPLETE (R450): A woken unit reaches A0, advances its generation and serves the accesses that waited for it. -/
  | wakeComplete (u : PowerUnit)
  /-- POR (R453): PWRGD rises and power-on reset runs start-up steps 1 to 7. -/
  | por (b : Boot)
  /-- MRST (R524): MRST_N low for at least 1 µs resets the module except the Assay die, then start-up runs. -/
  | mrst (ns : Nat)
  /-- POWER_OFF (R516): PWR_EN low, loss of 56 V or a thermal trip takes the module to OFF. -/
  | powerOff (c : OffCause)
  /-- PERST_ASSERT (R502): PERST0_N or PERST1_N falls; the port is reset and its link taken down. -/
  | perstAssert (p : Nat)
  /-- PERST_RELEASE (R499): The PERST pin is released; the clock mode is chosen and the link trains. -/
  | perstRelease (p : Nat) (refclk : Bool)
  /-- HOT_RESET (R502): A hot reset received on a port resets it as PERST does. -/
  | hotReset (p : Nat)
  /-- FLR_PF0 (R502): An FLR of PF0 resets the port with its link kept up. -/
  | flrPf0 (p : Nat)
  /-- FLR_PF1 (R502): An FLR of PF1 resets PF1's configuration space, queue and MSI-X state. -/
  | flrPf1 (p : Nat)
  /-- LINK_DOWN (R507): A port reports DL_Down; the failover timer starts and PEER is signalled on the other port. -/
  | linkDown (p : Nat)
  /-- LINK_UP (R507): A port's link returns; the timer stops and held replies are written. -/
  | linkUp (p : Nat)
  /-- FAILOVER_TIMEOUT (R370): The failover timer expires; the port's jobs are adopted or aborted. -/
  | failoverTimeout (p : Nat)
  /-- GET_CHALLENGE (R468): The management port returns a fresh challenge. -/
  | getChallenge
  /-- TAKE_OWNERSHIP (R468): An owner key is recorded, and a floor record is created where none is valid. -/
  | takeOwnership (m : SignedMsg) (owner : List Byte)
  /-- SET_POLICY (R468): The owner sets REQCOSIGN and the image-signing keys. -/
  | setPolicy (m : SignedMsg) (cosign : Bool) (keys : List (Nat × List Byte))
  /-- SET_FLOOR (R468): The owner raises the rollback floors. -/
  | setFloor (m : SignedMsg) (floors : List Nat)
  /-- RELEASE_OWNERSHIP (R468): The owner key, policy and image-signing keys are cleared. -/
  | releaseOwnership (m : SignedMsg)
  /-- DELIVER_IMAGE (R478): A whole firmware image delivered over MCTP is checked, written to flash, and the device restarts. -/
  | deliverImage (img : List Byte) (psigOk osigOk : Bool)
  /-- GET_VERSION (R469): SPDM GET_VERSION is answered. -/
  | getVersion (tr : Nat)
  /-- GET_CAPABILITIES (R469): SPDM GET_CAPABILITIES is answered. -/
  | getCapabilities (tr : Nat)
  /-- NEGOTIATE_ALGORITHMS (R469): SPDM NEGOTIATE_ALGORITHMS selects the supported algorithms. -/
  | negotiateAlgorithms (tr : Nat) (offered : List Nat)
  /-- GET_DIGESTS (R469): SPDM GET_DIGESTS returns the digest of the slot-0 certificate chain. -/
  | getDigests (tr : Nat)
  /-- GET_CERTIFICATE (R469): SPDM GET_CERTIFICATE returns the certificate chain of R463. -/
  | getCertificate (tr slot : Nat)
  /-- CHALLENGE (R469): SPDM CHALLENGE is answered, signed with the CP alias key. -/
  | challenge (tr slot : Nat) (nonce : List Byte)
  /-- GET_MEASUREMENTS (R470): SPDM GET_MEASUREMENTS returns the measurement blocks. -/
  | getMeasurements (tr index : Nat)
  /-- KEY_EXCHANGE (R469): SPDM KEY_EXCHANGE starts a session. -/
  | keyExchange (tr : Nat)
  /-- FINISH (R469): SPDM FINISH completes session establishment. -/
  | finish (tr sess : Nat) (macOk : Bool)
  /-- HEARTBEAT (R469): SPDM HEARTBEAT keeps a session alive. -/
  | heartbeat (tr sess : Nat)
  /-- KEY_UPDATE (R469): SPDM KEY_UPDATE updates session keys. -/
  | keyUpdate (tr sess : Nat)
  /-- END_SESSION (R469): SPDM END_SESSION ends a session. -/
  | endSession (tr sess : Nat)
  /-- UNSUPPORTED_REQUEST (R469): Any other SPDM request is answered with the error UnsupportedRequest. -/
  | unsupportedRequest (tr code : Nat)
  /-- IDE_KM (R473): IDE_KM programs IDE keys inside an SPDM session. -/
  | ideKm (p sess stream : Nat) (key : List Byte)
  /-- RNG_RESEED (R465): The CTR_DRBG is reseeded at least once a second. -/
  | rngReseed
  /-- RNG_HEALTH_FAILURE (R465): A failed entropy health test makes requests wait, and a third consecutive failure is device-fatal. -/
  | rngHealthFailure
  /-- ASSAY_SAMPLE (R485): Each 1 µs sample of input energy is added to the total and to the current account, and excursions are tracked. -/
  | assaySample (uj mv : Nat)
  /-- OWN (R484): The OWN notice starts charging a job's account. -/
  | own
  /-- SWITCH (R484): The SWITCH notice charges the causing job. -/
  | switch
  /-- RESTORE (R484): The RESTORE notice charges the causing job for the restore. -/
  | restore
  /-- FREE (R484): The FREE notice charges the idle account. -/
  | free
  /-- CLOSE (R486): The CLOSE notice closes a job's account once its restores are done and writes the JOB record. -/
  | close
  /-- INTERVAL (R484): The INTERVAL notice closes a meter interval and writes an INTERVAL record. -/
  | interval
  /-- BROWN (R488): The BROWN notice gives the warning level, and is recorded as an EVENT when no excursion of the die's own matches it. -/
  | brown
  /-- READ (R483): The READ notice makes the die return records over the record link. -/
  | read (first count : Nat)
  /-- BEAT (R484): The BEAT notice carries the shaft count every 10 ms. -/
  | beat
  /-- ASSAY_LINK_LOST (R487): With no notice for 100 ms, the die closes the period, sets LINKLOST and charges the idle account. -/
  | assayLinkLost
  /-- ASSAY_POWER_LOSS (R482): Below 36 V the Assay die writes its open accounts to the store and stops. -/
  | assayPowerLoss
  /-- SEAL_OPEN (R495): The seal switch opens; the die writes event 0x02 and marks its records SEALOPEN. -/
  | sealOpen
  /-- CALIBRATION_CONSTANT_WRITE (R496): A signed calibration command writes a constant and advances the hallmark counter. -/
  | calibrationConstantWrite (n v : Nat) (authOk : Bool)
  /-- AF_REPLACE (R496): A signed calibration command replaces AF and advances the hallmark counter. -/
  | afReplace (digest : BitVec 384) (authOk : Bool)
  /-- RESEAL (R496): A signed RESEAL with the switch closed clears SEALOPEN and advances the hallmark counter. -/
  | reseal (authOk : Bool)
  /-- POWER_ON (R520): 56 V present with PWR_EN high (after PWR_EN was low at least 100 ms following a thermal trip) enables the converters, limits inrush and releases PWRGD within 50 ms. -/
  | powerOn
  /-- MRST_RELEASE (R446): MRST_N returns high, ending the MRST hold and starting start-up step 1. -/
  | mrstRelease (b : Boot)
  /-- SHFLT_RELEASED (R293): The Pithead samples SHFLT_N high again and may once more issue BARRIER-RELEASE, and a later low level makes FREEZE-LOG due afresh. -/
  | shfltReleased
  /-- SHCLK_RETURN (R419): SHCLK edges return at a Member that had lost them; its count resumes and the Pithead stages it again before READY returns. -/
  | shclkReturn
  /-- COOLANT_INLET_TEMPERATURE (R380): The coolant inlet sensor crosses 30 °C, capping the effective ceiling at 3,000 W or lifting that cap, which restores as a raised ceiling. -/
  | coolantInletTemperature (above30 : Bool)
  /-- SEAL_SWITCH_CLOSED (R495): The SEAL_OPEN switch closes when the shield can is refitted, so the die drives the SEAL_OPEN pin low and RESEAL becomes acceptable on sealed codes. -/
  | sealSwitchClosed
  /-- ASSAY_DIE_STARTED (R492): The input returns to 36 V or above, so the Assay die starts and writes EVENT 0x01 before resuming integration. -/
  | assayDieStarted
  /-- MESSAGE_TO_RETIRED_TILE (R252): A message whose destination tile is retired reaches the last live router on its path, which discards it, counts it under RETIRED and sends a CAUSE 1 notice. -/
  | messageToRetiredTile (i : Nat)
  /-- GATE_PORT_MESSAGE (R262): The hub takes an outbound message from a gate port, counts it per source for replay and forwards it over Jorzin Links, or discards it with a CAUSE 3 notice when its device is absent. -/
  | gatePortMessage (i : Nat)
  /-- JORZIN_PORT_TRAINED (R397): A Jorzin port completes training, learns the far end's device ID and port, and a duplicate ID or second Pithead is recorded. -/
  | jorzinPortTrained (p dev fport : Nat) (pith : Bool)
  /-- CONFIGURATION_REQUEST (R455): A PCIe configuration request reaches a function and is answered with Configuration Request Retry Status before step 7 or reset completion, or acted on. -/
  | configurationRequest (p pf reg : Nat) (w : Option (BitVec 32))
  /-- ALERT_STATUS_READ (R515): The board controller reads the alert status, or the failure code, over MCTP, and ALERT_N is released when no cause remains. -/
  | alertStatusRead
deriving DecidableEq, Repr

end Sys2Proof
end

