-- ==== Sys2Proof/Machine/State.lean ====
section
/-! DEFINITION. The state of the DT7 as plain data (every field's rule beside it), the faults and refusals of a step, and
the state after reset. -/

namespace Sys2Proof.Machine

/-! ## One tile -/

/-- A job-fatal condition found by an instruction or a stream slot (R165): its status code and DETAIL words 0 onward. -/
structure TErr where
  status : Nat
  detail : List Nat
deriving DecidableEq, Repr

/-- State of an accumulator bank (R79, R84). -/
inductive BankState where
  | idle | fill | drain
deriving DecidableEq, Repr

/-- Sequencer state (R141). -/
inductive SeqState where
  | idle | running | halted | finished
deriving DecidableEq, Repr

/-- An MMA or MMAZ that issues products (R66, R144): its bank, whether it is an MMAZ, W0 to W3 as it read them at its first
product (R69), the tile's TOUCH at that moment (R63), and the operand-cache bytes written since its first product, each with the
values it has held (R91). -/
structure MmaRun where
  bank : Nat
  zero : Bool
  desc : List W64
  touch : Bool
  bad : Bool
  was : Arr (List Byte)
deriving DecidableEq, Repr

/-- Products in flight after the last one has issued (R67, R68): the bank, the A-cycles until the results are readable, and those
in which the next MMA or MMAZ into the bank waits for them. -/
structure MmaTail where
  bank : Nat
  left : Nat
  hold : Nat
deriving DecidableEq, Repr

/-- Matrix unit (03). -/
structure MxUnit where
  /-- MXD0 to MXD7, word w of descriptor d at 4d + w (R69). -/
  mxd : Arr W64
  /-- operand cache bytes (R71, R91). -/
  opc : Arr Byte
  /-- ACC0 and ACC1, element (m, n) at 128m + n (R83). -/
  acc0 : Arr W32
  acc1 : Arr W32
  st0 : BankState
  st1 : BankState
  scale0 : W32
  scale1 : W32
  /-- the MMA or MMAZ that issues products, and products still in flight (R67, R84 BUSY). -/
  busy : Option MmaRun
  flight : List MmaTail
deriving DecidableEq, Repr

/-- A run in progress (R97): what its completion still has to do. -/
structure VxRun where
  seq : Nat
  scan : Bool
  desc : Nat
  nrow : Nat
  rel : Bool
  commit : Bool
  committed : Bool
  /-- candidate maxima MXN of this run (R109), default -infinity. -/
  mxn : Arr W32
  /-- last carries of a scan's chains (R115). -/
  carries : List W32
  /-- scratchpad byte addresses of the row-state record ports, and records written so far (R112). -/
  recPorts : List Nat
  recDone : Nat
  /-- banks the run reads or writes (R82). -/
  banks : List Nat
  /-- operand-cache bytes the run writes, with the values they held (R91). -/
  was : Arr (List Byte)
deriving DecidableEq, Repr

/-- Vector engine (04, 05). -/
structure VxUnit where
  /-- VXD0 to VXD7, word w of descriptor d at 8d + w (R94). -/
  vxd : Arr W64
  /-- program slots, instruction i of slot s at 64s + i (R98), default END. -/
  prog : Arr W64
  /-- row state (R109). -/
  mx : Arr W32
  sm : Arr W32
  s2 : Arr W32
  al : Arr W32
  /-- carry file (R115). -/
  carry : Arr W32
  /-- FUSE_BIND0 to 15 (R121). -/
  bind : Arr W32
  run : Option VxRun
  /-- VX_STATUS DESC, SLOT, SCANR (R117). -/
  lastDesc : Nat
  lastSlot : Nat
  lastScan : Bool
deriving DecidableEq, Repr

/-- An active loop (R150, R170): its own copy of the descriptor and of the bindings. -/
structure ActiveLoop where
  ld : Nat
  /-- index of the LOOP instruction. -/
  at_ : Nat
  /-- the descriptor's 64 words. -/
  desc : Arr W64
  /-- iteration indices of levels 0 to 5. -/
  idx : List Nat
  /-- bound list of each level: byte address and entry count (R151). -/
  lists : List (Option (Nat × Nat))
  /-- pointer entries read for the current iteration, by level (R174, R175). -/
  entries : List (Option W64)
deriving DecidableEq, Repr

/-- An instruction in a unit queue with what it captured at dispatch (R137). -/
structure QEntry where
  idx : Nat
  /-- dispatch number: program order (R82). -/
  seq : Nat
  word : W64
  a : W64
  b : W64
  loops : List ActiveLoop
  /-- its request has been sent, or its registration made, and its reply is awaited. -/
  sent : Bool
  /-- the reply has arrived (R283). -/
  ready : Bool
deriving DecidableEq, Repr

/-- Sequencer (06, 07). -/
structure Sequencer where
  /-- instructions dispatched since launch. -/
  count : Nat
  pc : Nat
  st : SeqState
  fault : Bool
  pend : BitVec 16
  entry : BitVec 12
  markLate : W32
  s : Arr W64
  launch : Arr W64
  imem : Arr W64
  /-- innermost first (R150). -/
  loops : List ActiveLoop
  /-- loop descriptors, word w of descriptor d at 64d + w (R168). -/
  ldesc : Arr W64
  /-- bindings: level l of descriptor d at 6d + l (R151, R174). -/
  plist : Arr (Nat × Nat)
  /-- stall counters, counter at offset 0x0800 + 8i at i (R164). -/
  stall : Arr W64
deriving DecidableEq, Repr

/-- The five unit queues (R135, R136), head first. -/
structure Queues where
  mxq : List QEntry
  vxq : List QEntry
  sxq : List QEntry
  nxq : List QEntry
  yxq : List QEntry
deriving DecidableEq, Repr

/-- A fetched descriptor (R194): scratchpad address in 64-byte units, its 64 bytes, and for an attribute descriptor the
deadline fixed at the fetch (R212) and whether it has been missed (R213). -/
structure Desc where
  addr : Nat
  bytes : List Byte
  dl : Option Nat
  missed : Bool
deriving DecidableEq, Repr

/-- A chain in progress (R193, R194). -/
structure Chain where
  rel : Bool
  /-- index and dispatch number of the STRM. -/
  strm : Nat
  seq : Nat
  loops : List ActiveLoop
  /-- address of the next burst, 64-byte units. -/
  next : Nat
  burst : List Desc
  fetched : Nat
  /-- attribute descriptor in force. -/
  attr : Option Desc
  /-- local rows of the governed descriptors so far, and their COUNT0 (R198). -/
  row : Nat
  count0 : Nat
  /-- the header has been written for this attribute descriptor (R199). -/
  hdr : Bool
  /-- the deadline of the attribute descriptor in force has been missed (R213). -/
  missed : Bool
deriving DecidableEq, Repr

/-- A stream slot (R192, R214). -/
structure StreamSlot where
  chain : Option Chain
  daddr : Nat
  tagw : Bool
  dlmiss : W64
  bytes : W64
  tagwait : W64
deriving DecidableEq, Repr

/-- An entry of the write-gather buffer (R190): line number, bytes written, whether a run's, M-cycles without a write. -/
structure WgbEntry where
  line : Nat
  bytes : Arr Byte
  ofRun : Bool
  idle : Nat
deriving DecidableEq, Repr

/-- Scratchpad side of the base half (08). The scratchpad's bytes lie in the device memory (R181). -/
structure Pad where
  /-- TREG0 to 7 (R183). -/
  treg : Arr W64
  /-- slots whose tag is full (R185). -/
  tags : Arr Bool
  wgb : List WgbEntry
  slots : List StreamSlot
deriving DecidableEq, Repr

/-- A data message (R246): the head flit's fields and the payload. -/
structure Msg where
  ddev : Nat
  dtile : Nat
  dq : Nat
  tag : Nat
  kind : Nat
  rank : Nat
  sdev : Nat
  stile : Nat
  epoch : Nat
  dgen : Nat
  payload : List Byte
deriving DecidableEq, Repr

/-- A message held in a queue's main area (R255): first position of its head flit, positions skipped before it. -/
structure QItem where
  pos : Nat
  flits : Nat
  skip : Nat
  tag : Nat
  stile : Nat
  sdev : Nat
  acq : Bool
deriving DecidableEq, Repr

/-- A combining tag in progress (R266 to R268). -/
structure CombTag where
  tag : Nat
  flits : Nat
  /-- contributions taken so far, and the next rank to fold. -/
  count : Nat
  next : Nat
  /-- ranks seen. -/
  ranks : List Nat
  /-- contributions held by rank, as element codes. -/
  held : Arr (List Nat)
  /-- FP32 accumulator codes; empty before the first fold. -/
  acc : List Nat
deriving DecidableEq, Repr

/-- A receive queue (R253 to R275). -/
structure RecvQueue where
  w0 : W64
  w1 : W64
  w2 : W64
  opened : Bool
  high : Bool
  spilling : Bool
  items : List QItem
  /-- next write position of the main area. -/
  wr : Nat
  /-- acquisitions lost to a pointer reset and not yet absorbed (R259). -/
  lost : Nat
  tags : List CombTag
  /-- messages in the spill area, oldest first, each with the positions skipped before it (R270, R255), and its next write
  position. -/
  spill : List (Nat × Msg)
  spWr : Nat
  msgs : W64
  qreset : W64
  spilled : W64
  /-- R274: causes 0 to 13, EMPTY at 14, HELD at 15. -/
  stall : Arr W64
deriving DecidableEq, Repr

/-- Message side of the base half, and the tile's configuration identity (10, 11, 12). -/
structure NetIf where
  queues : Arr RecvQueue
  /-- CLOSED RETIRED LENGTH EPOCH GENERATION POINTER CORRUPT NOTICE at 0 to 7 (R264). -/
  spoil : Arr W64
  npLimit : W32
  npCount : Nat
  detour : Arr W64
  /-- the detour entries are the Level controller's, written last by it (R251). -/
  guided : Bool
  wepoch : BitVec 16
  epoch : Byte
  prev : Byte
  gen : Byte
  agen : Byte
  peer : BitVec 56
  /-- R160: by BID, the phase of the tile's last arrival and whether it has completed. -/
  arrived : Arr (Nat × Bool)
deriving DecidableEq, Repr

/-- One tile (R12). -/
structure Tile where
  arithCtrl : W32
  arithStatus : W32
  mx : MxUnit
  vx : VxUnit
  sq : Sequencer
  q : Queues
  pad : Pad
  net : NetIf
  /-- R449: the compute half is in A1; the tile is in S1. -/
  a1 : Bool
  s1 : Bool
deriving DecidableEq, Repr

/-! ## Level units -/

/-- A registered waiter of a tally (R283): a tile queue head, or a host TALLY_WAIT by its port and packet ticket. -/
inductive Waiter where
  | tile (t q vid n : Nat)
  | host (ticket n : Nat)
deriving DecidableEq, Repr

/-- A physical tally (R281). -/
structure Tally where
  value : BitVec 24
  fault : Bool
  waiters : List Waiter
deriving DecidableEq, Repr

/-- A barrier unit or cascade-barrier definition (R290, R292). -/
structure Barrier where
  en : Bool
  phase : BitVec 16
  tmo : W32
  bmask : BitVec 144
  tmask : Arr (BitVec 16)
  /-- tiles arrived in the current phase. -/
  arr : List Nat
  /-- shaft count of the first arrival of the phase (R291). -/
  first : Option Nat
  /-- cascade barrier: the device has released its SHBAR_N output (R292). -/
  out : Bool
deriving DecidableEq, Repr

/-- A work counter (R296). -/
structure WorkCtr where
  value : W32
  task : Bool
  hbase : Nat
  hcnt : Nat
  radius : Nat
  /-- tasks handed out (R298). -/
  taken : List Nat
deriving DecidableEq, Repr

/-- Level units of one Level (R276). -/
structure LevelUnits where
  tally : Arr Tally
  bar : Arr Barrier
  ctr : Arr WorkCtr
  home : Arr (BitVec 16)
  stale : W64
deriving DecidableEq, Repr

/-- Snapshot of a replayable section's launch (R288): tally values, phases and arrivals of barriers, work counters, and
ARITH_STATUS of each tile. -/
structure Snapshot where
  values : List (Nat × BitVec 24)
  bars : List (Arr Barrier)
  ctrs : List (Arr WorkCtr)
  arith : Arr W32
deriving DecidableEq, Repr

/-- Control messages in flight (R247, R276). -/
inductive Ctl where
  | tallyOp (t op vid n wepoch q : Nat)
  | tallyHost (ticket op vid n : Nat)
  | twaitReply (t q vid : Nat)
  | arrival (t bid q : Nat)
  | release (t bid phase : Nat)
  | fetch (t ctr inc sd : Nat)
  | fetchReply (t index epoch sd : Nat)
  | notice (sdev stile cause ddev dtile dq tag : Nat)
deriving DecidableEq, Repr

/-- A data message in the mesh (R249, R252, R265): waiting at its destination's ejection port, M-cycles waited there,
held at its router for a route update; `old`: on the path that a route update has changed; `hub`: on its way to a hub bridge (R244).
The flits it holds in the routers' buffers follow from these (Machine/Mesh.lean). -/
structure NetMsg where
  msg : Msg
  waiting : Bool
  age : Nat
  held : Bool
  old : Bool
  hub : Bool
deriving DecidableEq, Repr

/-- A line in an ore bin (R209): its number (device address div 512) and the key slot of its region; its bytes are the memory's. -/
structure BinLine where
  line : Nat
  slot : Nat
deriving DecidableEq, Repr

/-- A Level's ore bin (R209, R210): its lines, most recently used first, and its hits and misses. -/
structure OreBin where
  lines : List BinLine
  hits : W64
  misses : W64
deriving DecidableEq, Repr

/-- A region of external memory (R226): granules of 2 MiB, tier 0 HBM3E or 1 LPDDR5X. -/
structure Region where
  base : Nat
  gran : Nat
  tier : Nat
  level : Nat
  prot : Nat
  job : Nat
  port : Nat
  tw : Bool
  hr : Bool
  hw : Bool
  /-- its lines were initialised (R228): what nothing has written since reads zero. -/
  zero : Bool
  /-- the region salt (R240), and the number that its undefined contents go by (R228). -/
  salt : BitVec 256
  fresh : Nat
deriving DecidableEq, Repr


/-! ## Host interface (14, 22) -/

/-- A submission queue's registers (R348) and the tail last written to its doorbell (R324). -/
structure SubQueue where
  base : W64
  cfg : W64
  head : Nat
  tail : Nat
  err : Bool
deriving DecidableEq, Repr

/-- A status reply or event before it is written (R330): SHAFT and PHASE are those of the moment of writing, but for a
Member's reply, which carries the Member's shaft count (R329). -/
structure Reply where
  htag : Nat
  status : Nat
  sq : Nat
  async : Bool
  detail : Nat
  sqhead : Nat
  job : Nat
  r0 : Nat
  r1 : Nat
  shaft : Option Nat
deriving DecidableEq, Repr

/-- A completion queue: registers (R348), head last written, held entries in order (R326), entries written since the last
interrupt (R352). -/
structure CompQueue where
  base : W64
  cfg : W64
  head : Nat
  tail : Nat
  phase : Bool
  err : Bool
  evlost : W32
  held : List Reply
  unsig : Nat
deriving DecidableEq, Repr

/-- Host stream FIFO (R349, R504): contents, registers and HOSTFIFO_CONFIG's settings; `full`: a full episode is reported. -/
structure Fifo where
  bytes : List Byte
  high : Bool
  ovf : W32
  full : Bool
  hwm : Nat
  lwm : Nat
  thr : Nat
deriving DecidableEq, Repr

/-- A PCIe function's own state (R500, R501): writable configuration dwords by register number, BAR4 dwords (MSI-X table and
pending bits) by dword offset. -/
structure Func where
  conf : Arr W32
  msix : Arr W32
deriving DecidableEq, Repr

/-- A client's account on one port (R368), in shaft ticks and mJ. -/
structure Client where
  completed : Nat
  qwait : Nat
  preempts : Nat
  ptime : Nat
  energy : Nat
deriving DecidableEq, Repr

/-- One PCIe port (14, 22). Queues 0 to 15 are PF0's, 16 is PF1's (R322). -/
structure Port where
  sq : List SubQueue
  cq : List CompQueue
  apbase : W64
  fifo : Fifo
  /-- the SQ whose turn was last (R325). -/
  rr : Nat
  /-- the link is up; its PERST pin is low; REFCLK chosen at its release (R499); failover timer running (R370). -/
  link : Bool
  perst : Bool
  refclk : Bool
  timer : Bool
  /-- the timer has expired and the outcome waits for a load's reply (12 R311): whether the other port's link was up at that moment, and
  whether a fault of the port has expired it, not a reset. -/
  expired : Option (Bool × Bool)
  pf0 : Func
  pf1 : Func
  clients : Arr Client
  /-- IDE keys by stream: 0 the link stream, 1 and 2 selective (R473). -/
  ide : Arr (List Byte)
deriving DecidableEq, Repr

/-- A taken packet that has no final reply yet (R325, R331): its whole slots, the SQ's head after it, and how far its
command has come (`sent`: begun; `count`: bytes, messages or tiles done). -/
structure Packet where
  ticket : Nat
  port : Nat
  sq : Nat
  sqhead : Nat
  bytes : List Byte
  sent : Bool
  count : Nat
  /-- its replies are discarded (R353). -/
  drop : Bool
  /-- the CASCADE_FORWARD whose embedded packet it is, and the status of a CASCADE_FORWARD's own embedded packet (R337);
  forwarded to a Member, whose reply it awaits (R329). -/
  sub : Option Nat
  res : Option Nat
  away : Bool
  /-- taken by the fast path (R346). -/
  fast : Bool
deriving DecidableEq, Repr

/-- A write of the device to host memory (DMA): port, bus address, bytes. -/
structure HostWrite where
  port : Nat
  addr : Nat
  bytes : List Byte
deriving DecidableEq, Repr

/-- Who an answer of the device goes to: a host read of a BAR or of configuration space, the management port, an SPDM
transport. -/
inductive Asker where
  | bar (p : Nat)
  | config (p pf : Nat)
  | management
  | spdm (tr : Nat)
deriving DecidableEq, Repr

/-- What a row answers outside the completion queues (observable output): a code and bytes. -/
structure Answer where
  who : Asker
  code : Nat
  bytes : List Byte
deriving DecidableEq, Repr

/-- An MSI-X message: port, function, vector (R352). -/
structure Msi where
  port : Nat
  pf : Nat
  vec : Nat
deriving DecidableEq, Repr

/-! ## Jobs, sections and loads (12, 14, 15, 18) -/

/-- A rectangle of tiles. -/
structure Rect where
  x0 : Nat
  x1 : Nat
  y0 : Nat
  y1 : Nat
deriving DecidableEq, Repr

/-- Live state out of the tiles (R287, R360): tiles, their scratchpad bytes, Level units, cascade-barrier definitions, map,
snapshot and work epoch. -/
structure Saved where
  tiles : Arr Tile
  cells : List Host.Cell
  levels : List LevelUnits
  cbar : Arr Barrier
  tmap : Arr W64
  snap : Option Snapshot
  wepoch : BitVec 16
  /-- messages not yet delivered to the job's tiles (R275), and inputs held at the hub for it (R359). -/
  net : List NetMsg
  held : List NetMsg
  /-- substitutions in force (18 R426). -/
  subst : List (Nat × Nat)
  /-- EPOCH, PREV and peers of the tiles of the spare reserve (R320), and tiles that a failed DRAIN has left stopped (R309). -/
  spares : Arr (Byte × Byte × BitVec 56)
  paused : List Nat
deriving DecidableEq, Repr, Inhabited

/-- A section save made by SECTION_SAVE (R345): where its blocks were written, its header, and what the blocks hold. -/
structure SecSave where
  serial : Nat
  job : Nat
  base : Nat
  len : Nat
  header : List Byte
  saved : Saved
deriving DecidableEq, Repr

/-- Job states with the codes of R355. -/
inductive JobState where
  | opened | queued | computing | preempted | failed
deriving DecidableEq, Repr

/-- An open job (R337 JOB_OPEN, R341, R354, R368). -/
structure Job where
  id : Nat
  port : Nat
  lc : Bool
  split : Nat
  adopt : Bool
  casc : Bool
  client : Nat
  evcq : Nat
  tier : Nat
  seed : W64
  key : Option Nat
  state : JobState
  /-- base of the save area in each Level; empty for an LC job. -/
  area : List Nat
  saved : Option Saved
  wepoch : BitVec 16
  /-- shaft counts: entry into its queue, the decision of its pre-emption. -/
  enq : Option Nat
  pre : Option Nat
  qwait : Nat
  preempts : Nat
  ptime : Nat
  energy : Nat
  fail : Nat
  /-- the job that caused its pre-emption (21 R484). -/
  preBy : Nat
  /-- its abort waits for the end of a switch (R364, R370). -/
  doomed : Bool
deriving DecidableEq, Repr

/-- A loaded image: its lock (R306) and the header fields that later rules use (R300). -/
structure Image where
  job : Nat
  region : Nat
  addr : Nat
  size : Nat
  /-- ITYPE (R301). -/
  ity : Nat
  rect : Rect
  epoch : Nat
  peer : BitVec 56
  rpl : Bool
  drain : Nat
  tmax : Nat
  draw : List Nat
  nrec : Nat
deriving DecidableEq, Repr

/-- Phase of a load after its verification (R306). -/
inductive LoadPhase where
  | drain | write
deriving DecidableEq, Repr

/-- The SECTION_LOAD in progress (R306 to R313): next record's index and offset in the body, tokens discarded. -/
structure Load where
  ticket : Nat
  img : Image
  phase : LoadPhase
  index : Nat
  off : Nat
  tokens : Nat
deriving DecidableEq, Repr

/-- Stage of a launch (R343, R344, R356, R376). -/
inductive LaunchStage where
  | waiting | leave | ready | running
deriving DecidableEq, Repr

/-- A SECTION_LAUNCH with EPOCH ≠ 0 that has no final reply (R343, R355). -/
structure Launch where
  ticket : Nat
  job : Nat
  rect : Rect
  epoch : Nat
  at_ : Nat
  tmo : Nat
  stage : LaunchStage
  img : Option Image
  started : List Nat
  stopped : Nat
  /-- A-cycle of the first tile's start. -/
  begin_ : Nat
  committed : Bool
deriving DecidableEq, Repr

/-- Input log and outbound counts of a replayable launch (R435). -/
structure Replay where
  ticket : Nat
  log : List Msg
  sent : Arr Nat
  now : Arr Nat
  spent : Bool
deriving DecidableEq, Repr

/-- A recovery whose replay runs (R437, R439): the A-cycle at which it began, and the A-clock edges delivered since the relaunch. -/
structure Recovery where
  ticket : Nat
  unit : Nat
  spare : Nat
  seq : Nat
  since : Nat
  edges : Nat
deriving DecidableEq, Repr

/-- Phase of a switch or restore (R358, R359, R362). -/
inductive SwPhase where
  | wait | drain | scan | restore
deriving DecidableEq, Repr

/-- The switch in progress: outgoing (or restored) job, whether forced, the JOB_PREEMPT that asked for it, the job that
caused it, and the A-cycle of its start. -/
structure Switch where
  job : Nat
  phase : SwPhase
  forced : Bool
  ticket : Option Nat
  cause : Nat
  start : Nat
deriving DecidableEq, Repr

/-! ## Power (16) -/

/-- What a request or grant of leave is for (R376). -/
inductive LeaveFor where
  | launch (ticket : Nat)
  | command (ticket : Nat)
deriving DecidableEq, Repr

/-- A waiting request of leave (R379, R382). -/
structure LeaveReq where
  who : LeaveFor
  lc : Bool
  draw : List Nat
  booked : Nat
  /-- the part booked in the current ramp window (R384). -/
  here : Nat
deriving DecidableEq, Repr

/-- Granted leave (R385). -/
structure Grant where
  who : LeaveFor
  lc : Bool
  draw : List Nat
deriving DecidableEq, Repr

/-- Banksman, supply and heat (16). -/
structure Power where
  /-- POWER_CEILING of scope 0; of scope 1 at the Pithead; this member's share; coolant inlet above 30 °C (R380, R387). -/
  ceil : Nat
  casc : Option Nat
  share : Option Nat
  inlet : Bool
  reqs : List LeaveReq
  grants : List Grant
  /-- ramp windows since POR, and what is booked in the current one (R381). -/
  window : Nat
  booked : Nat
  /-- brownout hold; last sample of the input in 0.1 V; lowest sample of the hold; power-fail reset held. -/
  brown : Bool
  last : Option Nat
  lowest : Nat
  pfail : Bool
  /-- SHCMD THROTTLE in force; heat throttle. -/
  throt : Bool
  heat : Bool
  /-- stretch steps e by source: brownout of BE grants, lowered ceiling of BE grants, THROTTLE, heat by Level (R391, R394). -/
  eBrown : Nat
  eCeil : Nat
  eThrot : Nat
  eHeat : List Nat
  /-- Levels whose step of thermal restoration has fallen due and waits for headroom (R392, R393). -/
  heatDue : List Nat
  /-- last junction temperature by die (R444's numbering). -/
  temps : Arr Nat
  /-- thermal trip; PWR_EN has been low, or 56 V gone, since it (R520). -/
  trip : Bool
  rearm : Bool
  excursions : W64
  /-- ramp windows, the current one included, in which a swap of BK lets nothing be booked (20 R475). -/
  quiet : Nat
  /-- demands the Pithead has of the members. -/
  demands : Arr Nat
deriving DecidableEq, Repr

/-! ## Cascade, Jorzin Links and Shaft bus (17) -/

/-- A frame in a replay buffer or inbound queue (R402). -/
structure SentFrame where
  seq : Nat
  frame : Frame
deriving DecidableEq, Repr

/-- One Jorzin port (R399 to R406). In `waiting` a frame's seq is 0, or 1 + the port whose inbound queue it stands in. -/
structure JPort where
  trained : Bool
  up : Bool
  lanes : Nat
  dev : Nat
  fport : Nat
  /-- next sequence to send and to accept; a nack has been sent for the expected one. -/
  tx : Nat
  rx : Nat
  nacked : Bool
  replay : List SentFrame
  /-- frames not yet sent for want of credits or replay space. -/
  waiting : List Frame
  /-- credits held, by LVC, in 32-byte units. -/
  credits : List Nat
  /-- inbound units by LVC, HIGH of each, and credits that are owed for freed space (R403). -/
  inq : List Nat
  high : List Bool
  owed : List Nat
  retraining : Bool
  counters : Arr W64
deriving DecidableEq, Repr

/-- SHCMD codes (R413). -/
inductive ShCmd where
  | reset | halt | throttle | freeze | barrier | resume | mark
deriving DecidableEq, Repr

/-- Cascade configuration and the Shaft bus as this device sees it (17). -/
structure Casc where
  /-- The pins PITHEAD_N (low) and CASC_ID as they are strapped, and as last sampled: Pithead, and the ID (R396). -/
  pinPith : Bool
  pinId : Nat
  pith : Bool
  id : Nat
  topo : Nat
  barpart : BitVec 4
  domain : BitVec 16
  system : W32
  /-- MEMBERS as configured; none before the first CASCADE_CONFIG. -/
  members : Option W64
  ratio : Nat
  ready : Bool
  present : List Nat
  jports : List JPort
  /-- frames handed to the lanes, oldest first: port and frame (observable output). -/
  wire : List (Nat × List Byte)
  /-- flows held while old-path frames are unacknowledged (R400). -/
  heldFor : List Nat
  /-- ports of other devices that are down, as the Pithead has told them: device and port (R400). -/
  down : List (Nat × Nat)
  /-- far ends of other devices' ports as reported to the Pithead: 16 times the far device plus the far port, by 16 times the device
  plus the port (R397, R399). -/
  seen : Arr Nat
  /-- pieces of response frames that have come so far, by device and number (R402; log 63). -/
  parts : List ((Nat × Nat) × List Byte)
  /-- members that have still to complete the switch of a cascade job (15 R354). -/
  awaiting : List Nat
  count : W64
  /-- staged count of R418. -/
  staged : Option W64
  /-- SHCLK lost at a Member (R419). -/
  lost : Bool
  /-- commands due at the Pithead; commands this device is completing; tickets and events that wait for SHACK_N. -/
  due : List ShCmd
  acking : Bool
  ackTickets : List Nat
  shflt : Bool
  shfltSeen : Bool
  shdone : Bool
  /-- barrier lines sampled high whose release is due (R293), and barrier releases withheld while SHFLT_N is low. -/
  lines : BitVec 4
  /-- SHAFT_REF: last measured interval, ticks owed, edges to skip, stopped (R417). -/
  refInterval : Option Nat
  owed : Nat
  refSkip : Nat
  stopped : Bool
  /-- the ratio that ticks are issued by (0 local shaft), and the A-cycle of the last record of more than 16 owed (R417). -/
  force : Nat
  owedRec : Option Nat
  /-- devices with one ID or two Pitheads have been seen (R397). -/
  clash : Bool
  /-- events of cascade jobs that wait for SHACK_N: port, CQ, entry (R414). -/
  ackEvents : List (Nat × Nat × Reply)
  discarded : W64
deriving DecidableEq, Repr

/-! ## Faults (18) -/

/-- An error record (R443). -/
structure ErrRec where
  seq : Nat
  shaft : Nat
  status : Nat
  sev : Nat
  lasting : Bool
  summary : Bool
  copy : Bool
  src : Nat
  job : Nat
  dev : Nat
  domain : Nat
  system : Nat
  loc0 : Nat
  loc1 : Nat
  detail : List Nat
deriving DecidableEq, Repr

/-- An action on a lasting fault that is put off (R311, R364, R475): of an event, or of a tile or link whose detection record, of the number
given, has been written; `ticket` is the launch whose message a link's flit belonged to. -/
inductive Due where
  | event (e : FaultEvent)
  | tile (t seq : Nat)
  | link (t kind seq : Nat) (ticket : Option Nat)
deriving DecidableEq, Repr

/-- A counting unit's window (R424, R425): times of its events in A-cycles, lifetime count, events and records since its
last record. -/
structure Window where
  unit : CountUnit
  times : List Nat
  life : Nat
  since : Nat
deriving DecidableEq, Repr

/-- Error ring, freeze area, counting, and what recovery holds (R425, R437, R445). -/
structure Errs where
  next : Nat
  /-- newest first, at most 262,144. -/
  ring : List ErrRec
  /-- the freeze area and its sequence numbers not yet read. -/
  frozen : List ErrRec
  unread : List Nat
  wins : List Window
  /-- a device-fatal record is in force (R423). -/
  fatal : Bool
  recov : Option Recovery
  misses : List Nat
  reloading : List Bool
  /-- lasting faults whose action waits for a load, switch or swap to end (R311, R364, R475). -/
  deferred : List Due
deriving DecidableEq, Repr

/-! ## Resets and power states (19) -/

/-- A reset in progress (R446): kind 0 WARM, 1 LEVEL, 2 TILE; the Levels or the tile; the commands that reply at its
release. -/
structure Reset where
  kind : Nat
  levels : List Nat
  tile : Nat
  tickets : List Nat
deriving DecidableEq, Repr

/-- Where the module stands (R446, R449, R452, R456). -/
inductive Module where
  | on | failed (code : Nat) | mrst | held | off
deriving DecidableEq, Repr

/-! ## Security (20) -/

/-- The floor record (R466): floors of the 11 entries, owner key, policy, image-signing keys (KEYID and key). -/
structure FloorRec where
  floors : List Nat
  owner : List Byte
  cosign : Bool
  keys : List (Nat × List Byte)
  counter : Nat
deriving DecidableEq, Repr

/-- The UPDATE_COMPONENT in progress (R474 to R477): 0 staged, 1 swapped. -/
structure Update where
  ticket : Nat
  comp : Nat
  body : List Byte
  header : List Byte
  osig : Bool
  swapped : Bool
deriving DecidableEq, Repr

/-- An SPDM session (R469): transport, number, finished handshake, key generation. -/
structure Session where
  tr : Nat
  id : Nat
  finished : Bool
  keygen : Nat
deriving DecidableEq, Repr

/-- Identity, firmware, SPDM and generator state (20). `header` is the flash image's 4 KiB header, `bodies` the component
bodies by code, both as this model's runs have written them; `running` the manifest of the components in service where it differs
from the header's. -/
structure Sec where
  header : List Byte
  bodies : Arr (List Byte)
  running : List Byte
  floor : Option FloorRec
  /-- The signatures of the image in flash are valid: Plaend's, the owner's (R460). -/
  psig : Bool
  osig : Bool
  /-- The other copy of the floor record, the flash's monotonic counter, and whether the valid copy is B (R459, R466). -/
  oldFloor : Option FloorRec
  monotonic : Nat
  copyB : Bool
  /-- The private key generated at DEBUG_UNLOCK (R480). -/
  unlockKey : Nat
  mctpNonce : Option Nat
  debugNonce : Option Nat
  unlocked : Bool
  update : Option Update
  versioned : List Nat
  capable : List Nat
  negotiated : List Nat
  sessions : List Session
  certGen : Nat
  rngFails : Nat
  rngWait : Bool
deriving DecidableEq, Repr

/-! ## Assay Office (21) -/

/-- A notice on the boundary link (R484). -/
inductive Notice where
  | own (job port client dev domain system shaft : Nat)
  | switch (cause shaft : Nat)
  | restore (cause job shaft : Nat)
  | free (shaft : Nat)
  | close (job shaft : Nat)
  | interval (shaft : Nat)
  | brown (start : Bool) (level shaft : Nat)
  | read (first count : Nat)
  | beat (shaft : Nat)
deriving DecidableEq, Repr

/-- Which account the samples go to (R485). -/
inductive Charge where
  | idle | job (j : Nat) | sw (j : Nat)
deriving DecidableEq, Repr

/-- Extremes of a span (R490). -/
structure Span where
  topen : Nat
  sopen : Nat
  energy : Nat
  vmin : Nat
  vmax : Nat
  pmax : Nat
  nexc : Nat
  lost : Bool
  pfail : Bool
deriving DecidableEq, Repr

/-- A job account of the Assay die (R485, R486): energy in µJ, its switch and restore part, the jobs whose restore it
awaits, and whether its CLOSE has come. -/
structure Account where
  job : Nat
  port : Nat
  client : Nat
  dev : Nat
  domain : Nat
  system : Nat
  uj : Nat
  swuj : Nat
  span : Span
  owes : List Nat
  closed : Bool
deriving DecidableEq, Repr

/-- A meter record before its signature (R490). -/
structure MeterRec where
  kind : Nat
  flags : Nat
  job : Nat
  seq : Nat
  topen : Nat
  tclose : Nat
  sopen : Nat
  sclose : Nat
  energy : Nat
  aux : Nat
  total : Nat
  idle : Nat
  port : Nat
  client : Nat
  dev : Nat
  domain : Nat
  system : Nat
  hallmark : Nat
  vmin : Nat
  vmax : Nat
  pmax : Nat
  nexc : Nat
  af : BitVec 384
deriving DecidableEq, Repr

/-- The Assay die (21). -/
structure Assay where
  running : Bool
  clock : Nat
  shaft : Nat
  total : Nat
  idle : Nat
  accounts : List Account
  cur : Charge
  /-- the interval in progress, the idle span, and an excursion in progress: its span, samples below, samples above. -/
  ispan : Span
  exc : Option (Span × Nat × Nat)
  /-- samples of the current 1 ms and their energy. -/
  msN : Nat
  msE : Nat
  store : List MeterRec
  next : Nat
  hallmark : W32
  sealOpen : Bool
  marked : Bool
  warn : Nat
  ignored : Nat
  lostLink : Bool
  lastKind : Nat
  recentExc : Bool
  /-- the energy of the accounts that have closed, µJ (R485). -/
  closedUj : Nat
  af : BitVec 384
  consts : Arr Nat
  /-- records returned over the record link by READ. -/
  link : List MeterRec
  /-- device, domain and system IDs as the last OWN notice has told them (R484, 01 R18). -/
  dev : Nat
  domain : Nat
  system : Nat
deriving DecidableEq, Repr

/-! ## Faults, refusals and the state -/

/-- Reasons a step stops. Each is safe: the command names a unit that the device does not have, so nothing is claimed of it. -/
inductive Fault where
  /-- raised by the tile rows for a tile number above 2,303 (R12). Safe. -/
  | noTile
  /-- raised by rows for a barrier, die, device or counting unit that does not exist. Safe. -/
  | noUnit
  /-- raised by rows for a PCIe or Jorzin port that does not exist. Safe. -/
  | noPort
  /-- raised by rows for a Level number above 3. Safe. -/
  | noLevel
  /-- raised by rows for a queue number that does not exist. Safe. -/
  | noQueue
  /-- raised by rows for a stream slot above 5 (R192). Safe. -/
  | noSlot
deriving DecidableEq, Repr

/-- Reasons a command is refused. -/
inductive Refusal where
  /-- raised by Machine/Dispatch.lean for a command that has no meaning yet. Safe. -/
  | notModelled (mnemonic : String)
deriving DecidableEq, Repr

/-- The device (one module), with the queue of commands that wait. -/
structure State where
  /-- Tiles whose state differs from the reset state of a tile, by number (R12). -/
  tiles : Arr Tile
  levels : List LevelUnits
  cbar : Arr Barrier
  tmap : Arr W64
  snap : Option Snapshot
  /-- Data messages and control messages on their way (10, 11). -/
  net : List NetMsg
  ctl : List Ctl
  /-- Device memory: scratchpad windows and external memory, by device address (R181, R217). -/
  mem : List Host.Cell
  /-- The ore bin of each Level (08 R209). -/
  bins : List OreBin
  /-- The keys of the hub's key slots that are held, by slot (09 R239). -/
  keys : Arr (BitVec 256)
  /-- The routers' generation table (12 R317), by tile, and what the hub has of the other devices', by 4,096 times the device plus the
  tile. -/
  genTab : Arr Byte
  farTab : Arr Byte
  regions : List Region
  saves : List SecSave
  ports : List Port
  out : List Packet
  ticket : Nat
  dma : List HostWrite
  msi : List Msi
  answers : List Answer
  /-- Counters of hub queues (10 R259): at 2k + 0 resets and 2k + 1 discarded messages or contributions of hub queue k (host
  FIFOs 0 and 1, combiners 2, Jorzin inbound queues 16 + 3p + LVC). -/
  hubCtr : Arr W64
  /-- Features by FID (R340). -/
  feat : Arr Nat
  jobs : List Job
  lastJob : Nat
  /-- Port of an adopted job whose meter account is open (15 R368, R370), by job. -/
  adopted : Arr Nat
  lcq : List Nat
  beq : List Nat
  comp : Option Nat
  sw : Option Switch
  /-- inputs held at the hub during a switch or recovery (R359, R437). -/
  heldIn : List NetMsg
  /-- tiles stopped at instruction boundaries that keep what they hold (R309: a failed DRAIN). -/
  paused : List Nat
  load : Option Load
  images : List Image
  launches : List Launch
  replays : List Replay
  colls : List (Nat × Nat)
  power : Power
  casc : Casc
  errs : Errs
  /-- Retired tiles, retired pseudo-channels and stacks, degraded packages, disabled links, substitutions (R425 to R430). -/
  retired : List Nat
  retiredPc : List (Nat × Nat)
  retiredStack : List Nat
  degraded : List Nat
  /-- LPDDR5X packages that failed training in the start-up (19 R453). -/
  retiredPkg : List Nat
  links : List (Nat × Nat)
  subst : List (Nat × Nat)
  reserve : List Nat
  flashRecs : List ErrRec
  flashCounts : List (CountUnit × Nat)
  resets : List Reset
  module : Module
  s2 : List Nat
  s3 : Bool
  lvA1 : List Nat
  sec : Sec
  assay : Assay
  notices : List Notice
  /-- ALERT_N as the board controller last left it, and JTAG. -/
  alert : Bool
  jtag : Bool
  /-- A-cycles passed (the model's clock), and the counter of fresh and of random values. -/
  clock : Nat
  fresh : Nat
  rng : Nat
  pending : List Instr
deriving DecidableEq, Repr

/-! ## Reset (02 to 22, the reset values of the register tables; 19 R451, R453) -/

/-- A stream slot at reset (R214). -/
def slotReset : StreamSlot := { chain := none, daddr := 0, tagw := false, dlmiss := 0, bytes := 0, tagwait := 0 }

/-- A receive queue at reset (R253, R273, R274). -/
def recvReset : RecvQueue :=
  { w0 := 0, w1 := 0, w2 := 0, opened := false, high := false, spilling := false, items := [], wr := 0, lost := 0, tags := [], spill := [], spWr := 0,
    msgs := 0, qreset := 0, spilled := 0, stall := [] }

/-- The matrix unit at reset: ACC0 FILL, ACC1 IDLE (R79). -/
def mxReset : MxUnit :=
  { mxd := [], opc := [], acc0 := [], acc1 := [], st0 := .fill, st1 := .idle, scale0 := 0x3F800000, scale1 := 0x3F800000,
    busy := none, flight := [] }

/-- The vector engine at reset. -/
def vxReset : VxUnit :=
  { vxd := [], prog := [], mx := [], sm := [], s2 := [], al := [], carry := [], bind := [], run := none, lastDesc := 0, lastSlot := 0,
    lastScan := false }

/-- The sequencer at reset (R141, R164). -/
def seqReset : Sequencer :=
  { count := 0, pc := 0, st := .idle, fault := false, pend := 0, entry := 0, markLate := 0, s := [], launch := [], imem := [], loops := [],
    ldesc := [], plist := [], stall := [] }

def queuesReset : Queues := { mxq := [], vxq := [], sxq := [], nxq := [], yxq := [] }

def padReset : Pad := { treg := [], tags := [], wgb := [], slots := List.replicate 6 slotReset }

/-- The message side at reset (R251 to R274, R271, R295, R313). -/
def netReset : NetIf :=
  { queues := [], spoil := [], npLimit := 0x10000, npCount := 0, detour := [], guided := false, wepoch := 0, epoch := 0, prev := 0, gen := 0, agen := 0,
    peer := 0, arrived := [] }

/-- A tile at reset. -/
def tileReset : Tile :=
  { arithCtrl := 0, arithStatus := 0, mx := mxReset, vx := vxReset, sq := seqReset, q := queuesReset, pad := padReset, net := netReset,
    a1 := false, s1 := false }

/-- Level units at reset (R279 to R299). -/
def levelReset : LevelUnits := { tally := [], bar := [], ctr := [], home := [], stale := 0 }

/-- An empty ore bin (R451). -/
def binReset : OreBin := { lines := [], hits := 0, misses := 0 }

/-- A 256-bit word of the random generator (20 R465): four draws from number n on. -/
def drawKey (n : Nat) : BitVec 256 :=
  BitVec.ofNat 256 (((List.range 4).map fun i => (Config.randomWord (n + i)).toNat * 2 ^ (64 * i)).sum)

def sqReset : SubQueue := { base := 0, cfg := 0, head := 0, tail := 0, err := false }

/-- A CQ at reset: PHASE reads 1 (R348). -/
def cqReset : CompQueue := { base := 0, cfg := 0, head := 0, tail := 0, phase := true, err := false, evlost := 0, held := [], unsig := 0 }

/-- The host stream FIFO after a PORT reset (R504). -/
def fifoReset : Fifo := { bytes := [], high := false, ovf := 0, full := false, hwm := 229376, lwm := 196608, thr := 64 }

def funcReset : Func := { conf := [], msix := [] }

/-- A port at the end of start-up, its PERST pin still low and its link down (R455, R502; log 3). -/
def portReset : Port :=
  { sq := List.replicate 17 sqReset, cq := List.replicate 17 cqReset, apbase := 0, fifo := fifoReset, rr := 0, link := false, perst := true,
    refclk := false, timer := false, expired := none, pf0 := funcReset, pf1 := funcReset, clients := [], ide := [] }

/-- Power after POR (R380, R395). -/
def powerReset : Power :=
  { ceil := 3000, casc := none, share := none, inlet := false, reqs := [], grants := [], window := 0, booked := 0, brown := false,
    last := none, lowest := 0, pfail := false, throt := false, heat := false, eBrown := 16, eCeil := 16, eThrot := 16,
    eHeat := [16, 16, 16, 16], heatDue := [], temps := [], trip := false, rearm := false, excursions := 0, quiet := 0, demands := [] }

/-- An untrained Jorzin port (R405). -/
def jportReset : JPort :=
  { trained := false, up := false, lanes := 0, dev := 0, fport := 0, tx := 0, rx := 0, nacked := false, replay := [], waiting := [],
    credits := [512, 8192, 8192], inq := [0, 0, 0], high := [false, false, false], owed := [0, 0, 0], retraining := false, counters := [] }

/-- The cascade side at the end of start-up: SHDONE released, not READY; strapped as a standalone Pithead (R396, R421; log 2). -/
def cascReset : Casc :=
  { pinPith := true, pinId := 0, pith := true, id := 0, topo := 0, barpart := 0, domain := 0, system := 0, members := none, ratio := 0, ready := false, present := [0],
    jports := List.replicate 12 jportReset, wire := [], heldFor := [], down := [], seen := [], parts := [], awaiting := [], count := 0, staged := none, lost := false, due := [], acking := false,
    ackTickets := [], shflt := false, shfltSeen := false, shdone := true, lines := 0, refInterval := none, owed := 0, refSkip := 0,
    stopped := false, force := 0, owedRec := none, clash := false, ackEvents := [], discarded := 0 }

def errsReset : Errs :=
  { next := 0, ring := [], frozen := [], unread := [], wins := [], fatal := false, recov := none, misses := [0, 0, 0, 0],
    reloading := [false, false, false, false], deferred := [] }

/-- Security at the end of the first start-up of a shipped module: an unowned floor record, the image as shipped (log 5). -/
def secReset : Sec :=
  { header := [], bodies := [], running := [], floor := some { floors := List.replicate 11 0, owner := [], cosign := false, keys := [], counter := 0 },
    psig := true, osig := true, oldFloor := none, monotonic := 0, copyB := false, unlockKey := 0, mctpNonce := none, debugNonce := none, unlocked := false, update := none, versioned := [], capable := [],
    negotiated := [], sessions := [], certGen := 0, rngFails := 0, rngWait := false }

def spanReset : Span :=
  { topen := 0, sopen := 0, energy := 0, vmin := 0xFFFF, vmax := 0, pmax := 0, nexc := 0, lost := false, pfail := false }

/-- The Assay die as shipped: its store holds the IDENT record, sequence 0 (R493). -/
def assayReset : Assay :=
  { running := true, clock := 0, shaft := 0, total := 0, idle := 0, accounts := [], cur := .idle, ispan := spanReset, exc := none, msN := 0,
    msE := 0, store := [], next := 1, hallmark := 0, sealOpen := false, marked := false, warn := 4850, ignored := 0, lostLink := false,
    lastKind := 0, recentExc := false, closedUj := 0, af := 0, consts := [], link := [], dev := 0, domain := 0, system := 0 }

namespace State

/-- The machine after POR and a successful start-up with nothing attached (R451, R453; logs 1 to 5, 51). DESIGN CHOICE (log 5): the retired-tile
map is empty, so that all 2,304 tiles are good; which tiles a module ships retired is not in the spec (01 R21). -/
def reset : State :=
  { tiles := [], levels := List.replicate 4 levelReset, cbar := [], tmap := [], snap := none, net := [], ctl := [], mem := [], bins := List.replicate 4 binReset,
    keys := [(0, drawKey 0)], genTab := [], farTab := [], regions := [],
    saves := [], ports := [portReset, portReset], out := [], ticket := 0, dma := [], msi := [], answers := [], hubCtr := [], feat := [], jobs := [], lastJob := 0, adopted := [],
    lcq := [], beq := [], comp := none, sw := none, heldIn := [], paused := [], load := none, images := [], launches := [], replays := [],
    colls := [], power := powerReset, casc := cascReset, errs := errsReset, retired := [], retiredPc := [], retiredStack := [],
    degraded := [], retiredPkg := [], links := [], subst := [],
    reserve := [1120, 1121, 1122, 1123, 1124, 1125, 1126, 1127, 1144, 1145, 1146, 1147, 1148, 1149, 1150, 1151, 2272, 2273, 2274, 2275, 2276,
      2277, 2278, 2279, 2296, 2297, 2298, 2299, 2300, 2301, 2302, 2303],
    flashRecs := [], flashCounts := [], resets := [], module := .on, s2 := [], s3 := false, lvA1 := [], sec := secReset, assay := assayReset,
    notices := [], alert := false, jtag := false, clock := 0, fresh := 0, rng := 4, pending := [] }

end State

end Sys2Proof.Machine
end

