-- ==== Sys2Proof/Machine/Links.lean ====
section
/-! DEFINITION. Jorzin ports: routes, frames, credits and the replay buffer (17 R398 to R406). -/

namespace Sys2Proof.Machine

def jportN (s : State) (p : Nat) : JPort := s.casc.jports.getD p jportReset
def modJPort (s : State) (p : Nat) (f : JPort → JPort) : State := { s with casc := { s.casc with jports := modAt s.casc.jports p f } }

/-- Add n to counter i of a port (R406). -/
def countJ (j : JPort) (i n : Nat) : JPort := { j with counters := arrSet j.counters i (arrGet j.counters i 0 + BitVec.ofNat 64 n) 0 }

/-- Body units of a frame (R402). -/
def nflit (f : Frame) : Nat := cdiv f.body.length 32

/-- Inbound queue of an LVC in 32-byte units (R403). -/
def inSize (lvc : Nat) : Nat := if lvc = 0 then 512 else 8192

/-! ### Routes (R398, R400) -/

/-- Devices of the cascade by MEMBERS (R399); before CASCADE_CONFIG every present device. -/
def inMembers (s : State) (d : Nat) : Bool :=
  match s.casc.members with
  | some m => bitAt m d
  | none => s.casc.present.contains d

/-- Devices of a ring: the bits of MEMBERS (R398). -/
def ringSize (s : State) : Nat := ((List.range 64).filter (inMembers s)).length

/-- The neighbour one step along a dimension of size n and stride st, in the shorter direction, + on a tie (R400). -/
def stepDim (a d n st : Nat) : Option Nat :=
  let x := a / st % n
  let y := d / st % n
  if x = y then none
  else
    let up := (y + n - x) % n
    let z := if 2 * up ≤ n then (x + 1) % n else (x + n - 1) % n
    some (a - x * st + z * st)

/-- The neighbour after device a on the dimension-ordered path to device d. -/
def nextDim (s : State) (a d : Nat) : Option Nat :=
  match s.casc.topo with
  | 1 => stepDim a d (ringSize s) 1
  | 2 => (stepDim a d 8 1) <|> (stepDim a d 8 8)
  | 3 => (stepDim a d 4 1) <|> (stepDim a d 4 4) <|> (stepDim a d 4 16)
  | _ => none

/-- The neighbour and far port that a topology gives a port of device d in a cascade of n (R398). -/
def wiring (topo n d p : Nat) : Nat × Nat :=
  let up := fun (k st : Nat) => d - d / st % k * st + (d / st % k + 1) % k * st
  let down := fun (k st : Nat) => d - d / st % k * st + (d / st % k + k - 1) % k * st
  match topo with
  | 1 => if p < 6 then ((d + 1) % n, p + 6) else ((d + n - 1) % n, p - 6)
  | 2 =>
    let st := if p < 6 then 1 else 8
    if p / 3 % 2 = 0 then (up 8 st, p + 3) else (down 8 st, p - 3)
  | _ =>
    let st := if p < 4 then 1 else if p < 8 then 4 else 16
    if p / 2 % 2 = 0 then (up 4 st, p + 2) else (down 4 st, p - 2)

/-- Active ports towards neighbour n, ascending. -/
def portsTo (s : State) (n : Nat) : List Nat := (List.range 12).filter fun p => let j := jportN s p; j.trained && j.up && j.dev = n

/-- A port of a device is up: this device's as it stands, another's as far as has been told. -/
def portUp (s : State) (e : Nat × Nat) : Bool :=
  if e.1 = s.casc.id then (let j := jportN s e.2; j.trained && j.up) else s.casc.present.contains e.1 && !s.casc.down.contains e

/-- Devices that a link of device a which is up leads to. -/
def adjacent (s : State) (a : Nat) : List Nat :=
  if a = s.casc.id then ((List.range 12).filterMap fun p => let j := jportN s p; if j.trained && j.up then some j.dev else none).eraseDups
  else if s.casc.topo = 0 then []
  else ((List.range 12).filterMap fun p =>
    let w := wiring s.casc.topo (ringSize s) a p
    if portUp s (a, p) && portUp s w then some w.1 else none).eraseDups

/-- Every link of the dimension-ordered path from device a to d is up. -/
def pathUp (s : State) (d : Nat) : Nat → Nat → Bool
  | 0, _ => false
  | k + 1, a => a = d || (match nextDim s a d with | some n => (adjacent s a).contains n && pathUp s d k n | none => false)

/-- Devices from which at most k links lead to d, not by way of this device. -/
def ball (s : State) (d : Nat) : Nat → List Nat
  | 0 => [d]
  | k + 1 =>
    let b := ball s d k
    b ++ s.casc.present.filter fun a => a ≠ s.casc.id && !b.contains a && (adjacent s a).any b.contains

/-- The neighbours that a shortest path over the links that remain goes through; without a topology the links of other devices are not
known, and any neighbour may be one (log 30). -/
def shortest (s : State) (d : Nat) : List Nat :=
  let ns := adjacent s s.casc.id
  if ns.contains d then [d]
  else if s.casc.topo = 0 then ns
  else (((List.range 64).map fun k => ns.filter (ball s d k).contains).find? fun l => !l.isEmpty).getD []

/-- Active ports for the flow to device d (R400): those of the dimension-ordered path; where a link on it is down, of a shortest path over
the links that remain, a free choice among several. -/
def flowPorts (s : State) (d : Nat) : List Nat :=
  if pathUp s d 65 s.casc.id then (match nextDim s s.casc.id d with | some n => portsTo s n | none => [])
  else
    let ns := shortest s d
    portsTo s (ns.getD (Config.reading d s.casc.id % ns.length) d)

/-- Port number h mod a of the active ports (R400). -/
def flowPort (s : State) (d h : Nat) : Option Nat :=
  let ps := flowPorts s d
  if ps.isEmpty then none else ps[h % ps.length]?

/-- h of a tile message (R400). -/
def flowHash (m : Msg) : Nat := m.sdev ^^^ m.stile ^^^ m.ddev ^^^ m.dtile ^^^ m.dq

/-- The device a frame goes to: DDEV, the low six bits of its first body unit (10 R246, R247; log 63). -/
def frameDest (f : Frame) : Nat := leAt f.body 0 1 % 64

/-- What a response frame carries (R402): a piece of a forwarded packet, a Member's reply or event (14 R329, R333), a decision of the
Pithead about a cascade job, or a Member's word that it has completed one (15 R354). -/
inductive Resp where
  | packet | reply | event | decision | done
deriving DecidableEq, Repr

def respCode (w : Resp) : Nat := match w with | .packet => 0 | .reply => 1 | .event => 2 | .decision => 3 | .done => 4

/-- The first unit of a response frame. Only its content follows from the spec, its layout is the model's (log 63): the device it goes to
and the one it comes from, what it is, whether it is the last piece, the Pithead's port, a CQ number or a decision's code, and the
number of the packet or job. -/
structure RespHead where
  dev : Nat
  src : Nat
  what : Resp
  last : Bool
  port : Nat
  code : Nat
  num : Nat
deriving DecidableEq, Repr

def respUnit (h : RespHead) : List Byte :=
  leBytes 32 (h.dev % 64 + 2 ^ 6 * (h.src % 64) + 2 ^ 12 * respCode h.what + 2 ^ 15 * b2n h.last + 2 ^ 16 * (h.port % 2) +
    2 ^ 24 * (h.code % 256) + 2 ^ 32 * h.num)

def respOf (n : Nat) : Resp := match n with | 0 => .packet | 1 => .reply | 2 => .event | 3 => .decision | _ => .done

def respHead (b : List Byte) : RespHead :=
  let n := leAt b 0 32
  { dev := nbits n 5 0, src := nbits n 11 6, what := respOf (nbits n 14 12), last := nbit n 15, port := nbits n 16 16, code := nbits n 31 24,
    num := nbits n 255 32 }

/-! ### Credits and sending (R403, R404) -/

/-- The header of a frame sent on port p (R402). SEQ is that of data and control frames; of a credit frame `seq` holds CRED, of an ack or
nack ASEQ. -/
def frameHeader (s : State) (p : Nat) (f : Frame) : Nat :=
  f.ftype % 16 + 2 ^ 4 * (f.lvc % 4) + (if f.ftype ≤ 1 then 2 ^ 6 * (f.seq % 4096) else 0) + 2 ^ 18 * (nflit f % 128) + 2 ^ 25 * (f.sdev % 64) +
    2 ^ 31 * ((jportN s p).dev % 64) + (if f.ftype = 3 ∨ f.ftype = 4 then 2 ^ 37 * (f.seq % 4096) else 0) +
    (if f.ftype = 2 then 2 ^ 49 * (f.seq % 2 ^ 24) else 0)

/-- The bytes of a frame: the header, the body in units of 32 bytes, and the trailer with the CRC-32 of both (R402). -/
def frameBytes (s : State) (p : Nat) (f : Frame) : List Byte :=
  let b := leBytes 16 (frameHeader s p f) ++ slice f.body 0 (32 * nflit f)
  b ++ leBytes 16 (crc32 b)

/-- Hand a frame to the lanes. -/
def putWire (s : State) (p : Nat) (f : Frame) : State :=
  { s with casc := { s.casc with wire := s.casc.wire ++ [(p, frameBytes s p f)] } }

/-- A credit, ack or nack frame: seq holds CRED or ASEQ. -/
def linkFrame (s : State) (p ftype v : Nat) : State := putWire s p { ftype := ftype, lvc := 0, seq := v, sdev := s.casc.id, body := [] }

/-- Return what is owed of an LVC, at most 255 a frame. -/
def payCredits (p lvc : Nat) : Nat → Nat → State → State
  | 0, _, s => s
  | k + 1, n, s => if n = 0 then s else payCredits p lvc k (n - min n 255) (linkFrame s p 2 (min n 255 * 2 ^ (8 * lvc)))

/-- HIGH of an inbound queue: watermarks 6,144 and 4,096, none for control (R403). -/
def inHigh (lvc n : Nat) (was : Bool) : Bool := lvc ≠ 0 && (decide (6144 ≤ n) || (was && decide (4096 < n)))

/-- n units enter an inbound queue. -/
def enterIn (s : State) (p lvc n : Nat) : State :=
  modJPort s p fun j =>
    let q := j.inq.getD lvc 0 + n
    { j with inq := modAt j.inq lvc fun _ => q, high := modAt j.high lvc fun h => inHigh lvc q h }

/-- n units leave an inbound queue: their credits return, unless the queue is HIGH. -/
def freeIn (s : State) (p lvc n : Nat) : State :=
  let s1 := modJPort s p fun j =>
    let q := j.inq.getD lvc 0 - n
    { j with inq := modAt j.inq lvc fun _ => q, high := modAt j.high lvc fun h => inHigh lvc q h, owed := modAt j.owed lvc (· + n) }
  let j := jportN s1 p
  if j.high.getD lvc false then s1
  else modJPort (payCredits p lvc 64 (j.owed.getD lvc 0) s1) p fun x => { x with owed := modAt x.owed lvc fun _ => 0 }

/-- A frame may be sent on a port now (R403, R404, R421). -/
def maySend (s : State) (j : JPort) (f : Frame) : Bool :=
  j.trained && j.up && !j.retraining && decide (j.replay.length < 2048) &&
    decide (((j.replay.map fun x => 32 + 32 * nflit x.frame).foldl (· + ·) 0) + 32 + 32 * nflit f ≤ 2 ^ 20) &&
    decide (nflit f ≤ j.credits.getD f.lvc 0) && (f.ftype = 1 || s.casc.ready)

/-- A frame of a flow that a change of routes holds at the hub (R400). -/
def frameHeld (s : State) (f : Frame) : Bool := f.lvc ≠ 0 && s.casc.heldFor.contains (frameDest f)

/-- Position of the frame that is sent next: the first of each LVC that is not held, control before the others. -/
def nextToSend (s : State) (j : JPort) : Option Nat :=
  let first := fun (l : Nat) => indexWhere (fun f : Frame => f.lvc = l && !frameHeld s f) j.waiting
  let can := fun (o : Option Nat) => match o with
    | some i => (match j.waiting[i]? with | some f => maySend s j f | none => false)
    | none => false
  if can (first 0) then first 0
  else match first 1, first 2 with
    | some a, some b =>
      let lo := min a b
      let hi := max a b
      if can (some lo) then some lo else if can (some hi) then some hi else none
    | a, b => if can a then a else if can b then b else none

/-- Send what a port may send. -/
def pumpPort (p : Nat) : Nat → State → State
  | 0, s => s
  | k + 1, s =>
    let j := jportN s p
    match nextToSend s j with
    | none => s
    | some i =>
      match j.waiting[i]? with
      | none => s
      | some f0 =>
        let f := { f0 with seq := j.tx, sdev := s.casc.id }
        let s1 := modJPort s p fun j => countJ { j with
          tx := (j.tx + 1) % 4096
          waiting := dropAt j.waiting i
          replay := j.replay ++ [{ seq := j.tx, frame := f }]
          credits := modAt j.credits f.lvc (· - nflit f) } 0 1
        let s2 := putWire s1 p f
        pumpPort p k (if f0.seq = 0 then s2 else freeIn s2 (f0.seq - 1) f.lvc (nflit f))

def pump (s : State) (p : Nat) : State := pumpPort p ((jportN s p).waiting.length) s

/-- Queue a frame on a port and send what can be sent. -/
def queueFrame (s : State) (p : Nat) (f : Frame) : State := pump (modJPort s p fun j => { j with waiting := j.waiting ++ [f] }) p

/-- A frame towards device d; dropped when no path is up. -/
def sendTo (s : State) (d h : Nat) (f : Frame) : State :=
  match flowPort s d h with
  | some p => queueFrame s p f
  | none => s

/-- The pieces of 2,048 bytes that bytes are sent in (R402: a body has at most 65 units). -/
def pieces : Nat → List Byte → List (List Byte)
  | 0, b => [b]
  | k + 1, b => if b.length ≤ 2048 then [b] else b.take 2048 :: pieces k (b.drop 2048)

/-- Send bytes to another device on the response VC. -/
def sendResp (s : State) (h : RespHead) (bytes : List Byte) : State :=
  let ps := pieces 2 bytes
  ((List.range ps.length).zip ps).foldl (fun s e => sendTo s h.dev 0
    { ftype := 0, lvc := 2, seq := 0, sdev := s.casc.id, body := respUnit { h with last := e.1 + 1 = ps.length } ++ e.2 }) s

/-- A control frame of kind k to device d about values vs (R402): the spec gives no layout beyond that of control messages (10 R247). -/
def sendControl (s : State) (d k : Nat) (vs : List Nat) : State :=
  sendTo s d 0 { ftype := 1, lvc := 0, seq := 0, sdev := s.casc.id, body := leBytes 32 (d % 64 + 2 ^ 24 * (Config.frameWord k vs % 2 ^ 232)) }

/-- Send the frames of a port's replay buffer again from position i (R404). -/
def resendFrom (s : State) (p i : Nat) : State :=
  let l := (jportN s p).replay.drop i
  let s1 := modJPort s p fun j => countJ j 1 l.length
  l.foldl (fun s x => putWire s p x.frame) s1

/-- Devices whose flows have frames that have been sent and are not acknowledged. -/
def unackedDests (s : State) : List Nat :=
  (s.casc.jports.flatMap fun j => j.replay.map fun x => frameDest x.frame).eraseDups

/-- Routes or port assignments have changed: the flows affected are held (R400). -/
def holdFlows (s : State) : State :=
  { s with casc := { s.casc with heldFor := s.casc.heldFor ++ (unackedDests s).filter fun d => !s.casc.heldFor.contains d } }

/-- h of the frame's flow (R400): of the head flit (10 R246) of a tile message; for a packet or a reply, which has none of its
fields, 0. -/
def frameHash (f : Frame) : Nat :=
  if f.lvc = 1 then
    let h := leAt f.body 0 16
    nbits h 63 58 ^^^ nbits h 75 64 ^^^ nbits h 5 0 ^^^ nbits h 17 6 ^^^ nbits h 21 18
  else 0

/-- A port's state is told: a Member tells the Pithead, which tells the others, so that routes follow (R400, R402). -/
def tellPort (s : State) (d p : Nat) (up : Bool) : State :=
  let k := if up then 8 else 7
  if !s.casc.ready then s
  else if s.casc.pith then (s.casc.present.filter fun e => e ≠ s.casc.id && e ≠ d).foldl (fun s e => sendControl s e k [d, p]) s
  else if d = s.casc.id then sendControl s 0 k [d, p] else s

/-- Another device's port is down, or up again: the flows whose ports change are held. -/
def notePort (s : State) (d p : Nat) (up : Bool) : State :=
  let l := s.casc.down.filter (· ≠ (d, p))
  tellPort (holdFlows { s with casc := { s.casc with down := if up then l else l ++ [(d, p)] } }) d p up

/-- The port goes down: flows on the ports that remain are held until what they sent is acknowledged (R400), and the port's
unacknowledged and waiting frames move, in order, to the paths that remain (R405). -/
def portDown (s : State) (p : Nat) : State :=
  let j := jportN s p
  let s1 := tellPort (holdFlows (modJPort s p fun j => { j with up := false, retraining := false, replay := [], waiting := [] })) s.casc.id p false
  (j.replay.map (fun (x : SentFrame) => { x.frame with seq := 0 }) ++ j.waiting).foldl
    (fun s f => sendTo s (frameDest f) (frameHash f) f) s1

end Sys2Proof.Machine
end

