-- ==== Sys2Proof/Machine/Ops.lean ====
section
/-! DEFINITION. The named operations on the state that every family uses: tiles, memory, the write-gather buffer, tags,
registers of identity, error records, replies and interrupts. -/

namespace Sys2Proof.Machine

/-- A step's outcome. -/
abbrev Outcome := Host.Outcome State Fault Refusal

/-! ### Tiles -/

/-- The Level of a tile (01 R11): quadrants of the 48 by 48 grid. -/
def levelOf (t : Nat) : Nat := t % 48 / 24 + 2 * (t / 48 / 24)

def tileAt (s : State) (t : Nat) : Tile := arrGet s.tiles t tileReset
def setTile (s : State) (t : Nat) (tl : Tile) : State := { s with tiles := arrSet s.tiles t tl tileReset }
def modTile (s : State) (t : Nat) (f : Tile → Tile) : State := setTile s t (f (tileAt s t))

/-- A row about tile t (01 R12). -/
def withTile (s : State) (t : Nat) (f : Tile → Outcome) : Outcome :=
  if t < 2304 then f (tileAt s t) else .fault .noTile

/-- A row about a unit queue (06 R135: 0 to 4). -/
def withQueue (q : Nat) (_ : State) (k : Outcome) : Outcome := if q ≤ 4 then k else .fault .noQueue

/-- A row about a stream slot (08 R192). -/
def withSlot (sl : Nat) (_ : State) (k : Outcome) : Outcome := if sl ≤ 5 then k else .fault .noSlot

/-- A row about a receive queue (10 R253). -/
def withQ16 (q : Nat) (_ : State) (k : Outcome) : Outcome := if q ≤ 15 then k else .fault .noQueue

/-- A row about a PCIe port. -/
def withPort (p : Nat) (k : Outcome) : Outcome := if p ≤ 1 then k else .fault .noPort

/-- A row about a Level. -/
def withLevel (n : Nat) (k : Outcome) : Outcome := if n ≤ 3 then k else .fault .noLevel

/-- A row about a Jorzin port (17 R398). -/
def withJPort (p : Nat) (k : Outcome) : Outcome := if p ≤ 11 then k else .fault .noPort

def queueN (n : NetIf) (q : Nat) : RecvQueue := arrGet n.queues q recvReset
def modQueue (n : NetIf) (q : Nat) (f : RecvQueue → RecvQueue) : NetIf :=
  { n with queues := arrSet n.queues q (f (queueN n q)) recvReset }

def inRect (r : Rect) (t : Nat) : Bool := decide (r.x0 ≤ t % 48 ∧ t % 48 ≤ r.x1 ∧ r.y0 ≤ t / 48 ∧ t / 48 ≤ r.y1)

/-- Tiles of a rectangle in ascending number. -/
def rectTiles (r : Rect) : List Nat := (List.range 2304).filter (inRect r)

def rectsMeet (a b : Rect) : Bool := decide (a.x0 ≤ b.x1 ∧ b.x0 ≤ a.x1 ∧ a.y0 ≤ b.y1 ∧ b.y0 ≤ a.y1)

/-- The rectangle meets Level n. -/
def rectMeetsLevel (r : Rect) (n : Nat) : Bool :=
  rectsMeet r { x0 := 24 * (n % 2), x1 := 24 * (n % 2) + 23, y0 := 24 * (n / 2), y1 := 24 * (n / 2) + 23 }

def tileRetired (s : State) (t : Nat) : Bool := s.retired.contains t

/-- Good tiles of a rectangle (18 R426: not retired). -/
def goodTiles (s : State) (r : Rect) : List Nat := (rectTiles r).filter fun t => !tileRetired s t

/-- The spare that stands for a retired tile until the JOB reset (18 R426). -/
def substT (s : State) (t : Nat) : Nat := ((s.subst.find? (·.1 = t)).map (·.2)).getD t

/-- The reserve of Level l: its n good tiles of highest number (18 R427). -/
def reserveOf (retired : List Nat) (n l : Nat) : List Nat :=
  (((List.range 2304).filter fun t => levelOf t = l && !retired.contains t).reverse.take n).reverse

/-- The no-progress timer restarts (10 R272). -/
def progress (s : State) (t : Nat) : State := modTile s t fun tl => { tl with net := { tl.net with npCount := 0 } }

/-! ### Identity and jobs -/

/-- CASC_ID (17 R396). -/
def deviceId (s : State) : Nat := s.casc.id
def shaftCount (s : State) : Nat := s.casc.count.toNat
def nextSeq (s : State) : Nat := s.errs.next

def jobOf (s : State) (j : Nat) : Option Job := s.jobs.find? (·.id = j)
def compJob (s : State) : Option Job := s.comp.bind (jobOf s)
def modJob (s : State) (j : Nat) (f : Job → Job) : State := { s with jobs := s.jobs.map fun x => if x.id = j then f x else x }

/-- SEED of the computing job (02 R57). -/
def jobSeed (s : State) : Nat := ((compJob s).map (·.seed.toNat)).getD 0

/-- HSPLIT (08 R208). -/
def jobSplit (s : State) : Nat := ((compJob s).map (·.split)).getD 0

/-- The work epoch of the computing job (11 R294). -/
def workEpoch (s : State) : Nat := ((compJob s).map (·.wepoch.toNat)).getD 0

/-- A restored section that the tile runs in waits for its leave: no head performs anything (16 R378). -/
def leaveWait (s : State) (t : Nat) : Bool :=
  s.launches.any fun l => l.stage = .running && s.comp = some l.job && (l.started.any fun u => substT s u = t) &&
    s.power.reqs.any fun r => r.who = .launch l.ticket

/-- The tile takes no step: its A-clock is stopped, a switch or restore holds the tiles, a failed DRAIN stopped it, or a reset
covers it (12 R309, 15 R359, 19 R446, R452). -/
def tilePaused (s : State) (t : Nat) : Bool :=
  s.paused.contains t || s.module ≠ .on || s.errs.fatal ||
    (match s.sw with | some w => w.phase = .scan || w.phase = .restore | none => false) ||
    s.resets.any fun r => r.kind = 0 || (r.kind = 1 && r.levels.contains (levelOf t)) || (r.kind = 2 && r.tile = t)

/-! ### Device memory -/

def padTop : Nat := 0x080000000000 + 2304 * 0x200000

/-- An address of a scratchpad window (08 R181). -/
def isPad (a : Nat) : Bool := decide (0x080000000000 ≤ a ∧ a < padTop)

def padBase (t : Nat) : Nat := 0x080000000000 + t * 0x200000

/-- A scratchpad window's owner and slot (08 R181, R182). -/
def padSlotOf (a : Nat) : Option (Nat × Nat) :=
  if isPad a then some ((a - 0x080000000000) / 0x200000, (a - 0x080000000000) % 0x200000 / 512) else none

/-- HBM3E of the module fitted (09 R217). -/
def isHbm (a : Nat) : Bool := decide (a < 0xC000000000) && decide (a % 0x3000000000 < Config.hbmPerLevel)

/-- LPDDR5X (09 R217). -/
def isLpddr (a : Nat) : Bool := decide (0x10000000000 ≤ a ∧ a < 0x20000000000)

/-- The reserved 64 MiB at the top of a Level's LPDDR5X (09 R218). -/
def isReserved (a : Nat) : Bool := isLpddr a && decide (0x3FFC000000 ≤ a % 0x4000000000)

/-- The Level whose memory holds the address. -/
def memLevel (a : Nat) : Nat := if isLpddr a then (a - 0x10000000000) / 0x4000000000 else a / 0x3000000000

/-- Numerator over sixteen of the visible part (09 R226). -/
def visible16 (prot : Nat) : Nat := if prot = 0 then 16 else if prot = 1 then 15 else 12

/-- Visible bytes of a region (09 R226). -/
def visibleBytes (r : Region) : Nat := r.gran * 0x200000 * visible16 r.prot / 16

/-- The region whose visible range covers an address. -/
def regionAt (s : State) (a : Nat) : Option Region :=
  s.regions.find? fun r => decide (r.base ≤ a) && decide (a < r.base + visibleBytes r)

/-- The region whose backing covers an address, the part that holds parity included (09 R226). -/
def regionOver (s : State) (a : Nat) : Option Region :=
  s.regions.find? fun r => decide (r.base ≤ a) && decide (a < r.base + r.gran * 0x200000)

/-- The section save whose blocks hold an address (14 R345), the newest first. -/
def saveAt (s : State) (a : Nat) : Option SecSave :=
  s.saves.find? fun v => decide (v.base + 4096 ≤ a) && decide (a < v.base + v.len)

/-- Addresses that read zero when nothing has written them: scratchpad windows (08 R216, 19 R451) and initialised regions
(09 R228). -/
def memZero (s : State) (a : Nat) : Bool :=
  isPad a || ((saveAt s a).isNone && (match regionAt s a with | some r => r.zero | none => false))

/-- Stripe of a line of a parity region with G data lines to a stripe, and its data position: none for a parity line. The hidden part of
the backing counts as the parity lines, in the order of the stripes (09 R226, R232; log 56). -/
def stripeOf (r : Region) (g a : Nat) : Nat × Option Nat :=
  let v := (a - r.base) / 512
  if a < r.base + visibleBytes r then (v / g, some (v % g)) else (v - visibleBytes r / 512, none)

def allBut (n pos : Nat) : List Nat := (List.range n).filter fun i => i != pos

/-- Stack and pseudo-channel of a line, and the other ones of its stripe (09 R220, R233, R234). -/
def linePlace (s : State) (a : Nat) : (Nat × Nat) × List (Nat × Nat) :=
  let n := a / 0x3000000000
  let plain : (Nat × Nat) × List (Nat × Nat) :=
    let l := a % 0x3000000000 / 512
    let g := (l % 128) ^^^ (l / 128 % 128)
    ((4 * n + g % 4, g / 4), [])
  let at_ : Nat → Option Nat → Nat := fun p k => match k with | some i => if i < p then i else i + 1 | none => p
  match regionOver s a with
  | none => plain
  | some r =>
    let q0 := r.base % 0x3000000000 / 65536
    if r.prot = 1 then
      let x := stripeOf r 15 a
      let j := x.1 % 8
      let pos : Nat := at_ ((q0 + x.1 / 8) % 16) x.2
      let ch : Nat → Nat × Nat := fun i => (4 * n + j / 2, 16 * (j % 2) + i)
      (ch pos, (allBut 16 pos).map ch)
    else if r.prot = 2 then
      let x := stripeOf r 3 a
      let pos : Nat := at_ ((q0 + x.1 / 32) % 4) x.2
      let ch : Nat → Nat × Nat := fun i => (4 * n + i, x.1 % 32)
      (ch pos, (allBut 4 pos).map ch)
    else plain

/-- A pseudo-channel is retired, itself or with its stack (18 R429). -/
def channelDead (s : State) (c : Nat × Nat) : Bool := s.retiredStack.contains c.1 || s.retiredPc.contains c

/-- The package of a line of LPDDR5X (09 R221). -/
def packageOf (a : Nat) : Nat := 6 * memLevel a + (a - 0x10000000000) % 0x4000000000 / 512 % 6

/-- A line of a lost unit that its stripe cannot rebuild, or of a retired package, which has no stripe: every access to it is an
uncorrectable error (18 R429; 19 R453, log 33). -/
def lineLost (s : State) (a : Nat) : Bool :=
  if isLpddr a then s.retiredPkg.contains (packageOf a)
  else isHbm a && (let p := linePlace s a; channelDead s p.1 && (p.2.isEmpty || p.2.any (channelDead s)))

/-- The first address of [a, a + n) in such a line. -/
def lostIn (s : State) (a n : Nat) : Option Nat :=
  if s.retiredPc.isEmpty && s.retiredStack.isEmpty && s.retiredPkg.isEmpty then none
  else ((List.range (a % 512 + n + 511)).filterMap fun i =>
    if i % 512 = 0 && decide (i < a % 512 + n) then some (a - a % 512 + i) else none).find? (lineLost s)

/-- What an address that is not listed reads as: zero as memZero says, else a free value (09 R228), also in the blocks of a
section save, whose layout is open (14 R345). -/
def memDefault (s : State) (a : Nat) : Byte :=
  if memZero s a then 0
  else match saveAt s a with
    | some v => Config.openByte v.serial 1 (a - v.base)
    | none => Config.staleByte ((regionAt s a).map (·.fresh) |>.getD 0) a

/-- The address of an access to a scratchpad window after the substitution of R426. -/
def memAddr (s : State) (a : Nat) : Nat :=
  if isPad a then
    let t := (a - 0x080000000000) / 0x200000
    padBase (substT s t) + (a - 0x080000000000) % 0x200000
  else a

/-- One byte of device memory. -/
def memByte (s : State) (a : Nat) : Byte := let b := memAddr s a; arrGet s.mem b (memDefault s b)

/-- The ore bins without line l (08 R210). -/
def binsDrop (bs : List OreBin) (l : Nat) : List OreBin :=
  bs.map fun b => { b with lines := b.lines.filter (·.line ≠ l) }

/-- Store one byte. The list stays canonical: a zero byte where zero is read unlisted is not listed. The line leaves the ore bin (08
R210). -/
def memWrite (s : State) (a : Nat) (b : Byte) : State :=
  let c := memAddr s a
  { s with mem := arrPut s.mem c b (memZero s c && b == 0), bins := binsDrop s.bins (c / 512) }

/-- The key slot of a line (08 R209): its region's job's, or that of the job whose save area it lies in. -/
def lineSlot (s : State) (a : Nat) : Nat :=
  match (regionAt s a).bind fun r => jobOf s r.job with
  | some j => j.key.getD 0
  | none => ((s.jobs.find? fun j => j.area.any fun b => decide (b ≤ a) && decide (a < b + 703 * 0x200000)).bind (·.key)).getD 0

/-- A bin with line l allocated as the most recently used (R209): in a full set, that of sixteen lines, the least recently used leaves.
Which set a line belongs to is a free value. -/
def binAdd (b : OreBin) (x : BinLine) : OreBin :=
  let same := fun (y : BinLine) => Config.binSet y.line % 4096 = Config.binSet x.line % 4096
  if b.lines.length < 16 then { b with lines := x :: b.lines }
  else if (b.lines.filter fun y => same y).length < 16 then { b with lines := x :: b.lines }
  else match ((b.lines.filter fun y => same y).getLast?) with
    | some z => { b with lines := x :: b.lines.filter (· ≠ z) }
    | none => { b with lines := x :: b.lines }

/-- A request that reads a line of external memory is served from the ore bin, or allocates the line there (08 R209, R210). -/
def binRead (s : State) (l : Nat) : State :=
  let a := 512 * l
  if !(isHbm a || isLpddr a) then s
  else
    let x : BinLine := { line := l, slot := lineSlot s a }
    { s with bins := modAt s.bins (memLevel a) fun b =>
        if b.lines.contains x then { b with lines := x :: b.lines.filter (· ≠ x), hits := b.hits + 1 }
        else { binAdd { b with lines := b.lines.filter (·.line ≠ l) } x with misses := b.misses + 1 } }

/-- One request for each line of [a, a + n), ascending (R209). -/
def binReads (s : State) (a n : Nat) : State :=
  if n = 0 then s else (List.range ((a + n - 1) / 512 + 1 - a / 512)).foldl (fun s i => binRead s (a / 512 + i)) s

/-- The ore-bin lines that satisfy p are invalidated (08 R210, 09 R230). -/
def binsWithout (s : State) (p : BinLine → Bool) : State :=
  { s with bins := s.bins.map fun b => { b with lines := b.lines.filter fun x => !p x } }

def memRead (s : State) (a n : Nat) : List Byte := (List.range n).map fun i => memByte s (a + i)
def memPut (s : State) (a : Nat) (bs : List Byte) : State :=
  ((List.range bs.length).zip bs).foldl (fun s p => memWrite s (a + p.1) p.2) s

/-- Drop what the list holds in [lo, hi). -/
def memDrop (s : State) (lo hi : Nat) : State := { s with mem := s.mem.filter fun c => !(decide (lo ≤ c.1) && decide (c.1 < hi)) }

/-- The canonical form of memory: addresses strictly rising, no entry equal to what its address reads as when unlisted (a free
value is equal to nothing that can be named). -/
def memWf (s : State) : Bool := arrSorted s.mem && s.mem.all fun c => !(memZero s c.1 && c.2 == 0)

/-- The list without the entries that an unlisted address reads as, after regions or section saves have changed. -/
def memCanon (s : State) : State := { s with mem := s.mem.filter fun c => !(memZero s c.1 && c.2 == 0) }

/-- Lines R217 maps for streams (08 R204). -/
def streamMapped (a : Nat) : Bool := isPad a || isHbm a || isLpddr a

/-- A tile holds a loaded image's epoch as its own, which keeps the image's region locked (12 R306). The tiles are the computing job's;
job 0 marks the initial image. -/
def imageHeld (s : State) (i : Image) : Bool :=
  (i.job = 0 || s.comp = some i.job) && s.tiles.any fun e => e.2.net.epoch.toNat = i.epoch

/-- The region at a base holds an image that is being loaded, or whose epoch some tile holds (12 R306). -/
def regionLocked (s : State) (base : Nat) : Bool :=
  (s.images.any fun i => i.region = base && imageHeld s i) || (match s.load with | some l => l.img.region = base | none => false)

/-- A stream's access is allowed (09 R231). -/
def streamAllowed (s : State) (a : Nat) (wr : Bool) : Bool :=
  isPad a || (match regionAt s a with
    | some r => s.comp = some r.job && (!wr || (r.tw && !regionLocked s r.base))
    | none => false)

/-! ### Scratchpad and write-gather buffer (08 R190) -/

/-- Write back one gather entry. -/
def flushEntry (t : Nat) (s : State) (w : WgbEntry) : State :=
  w.bytes.foldl (fun s b => memWrite s (padBase t + 128 * w.line + b.1) b.2) s

/-- Flush the gather entries that satisfy p. -/
def flushWhere (s : State) (t : Nat) (p : WgbEntry → Bool) : State :=
  let ws := (tileAt s t).pad.wgb
  if ws.any p then
    (ws.filter p).foldl (flushEntry t) (modTile s t fun tl => { tl with pad := { tl.pad with wgb := ws.filter fun w => !p w } })
  else s

/-- Flush the lines that [a, a + n) of a scratchpad touches. -/
def flushPad (s : State) (t a n : Nat) : State :=
  flushWhere s t fun w => decide (a < 128 * w.line + 128) && decide (128 * w.line < a + n)

/-- A scratchpad byte, gathered writes included. -/
def padByte (s : State) (t a : Nat) : Byte :=
  match (tileAt s t).pad.wgb.find? (·.line = a / 128) with
  | some w => ((w.bytes.find? (·.1 = a % 128)).map (·.2)).getD (memByte s (padBase t + a))
  | none => memByte s (padBase t + a)

def padBytes (s : State) (t a n : Nat) : List Byte := (List.range n).map fun i => padByte s t (a + i)

/-- Write bytes straight into a scratchpad; lines gathered before are flushed first. -/
def padWrite (s : State) (t a : Nat) (bs : List Byte) : State := memPut (flushPad s t a bs.length) (padBase t + a) bs

/-- Merge bytes of one line into its entry. -/
def gatherInto (w : WgbEntry) (a : Nat) (bs : List Byte) (ofRun : Bool) : WgbEntry :=
  { w with bytes := ((List.range bs.length).zip bs).foldl (fun m p => arrPut m (a % 128 + p.1) p.2 false) w.bytes,
           ofRun := w.ofRun || ofRun, idle := 0 }

/-- A narrow write within one 128-byte line (R190). -/
def wgbWrite (s : State) (t a : Nat) (bs : List Byte) (ofRun : Bool) : State :=
  let line := a / 128
  let ws := (tileAt s t).pad.wgb
  let s1 := match ws with
    | w :: _ => if ws.length ≥ 8 ∧ !(ws.any (·.line = line)) then flushWhere s t (· = w) else s
    | [] => s
  let ws1 := (tileAt s1 t).pad.wgb
  let put := if ws1.any (·.line = line) then ws1.map fun w => if w.line = line then gatherInto w a bs ofRun else w
    else ws1 ++ [gatherInto { line := line, bytes := [], ofRun := ofRun, idle := 0 } a bs ofRun]
  let s2 := modTile s1 t fun tl => { tl with pad := { tl.pad with wgb := put } }
  flushWhere s2 t fun w => decide (w.bytes.length ≥ 128)

/-- Every entry of a run (R190). -/
def flushRunLines (s : State) (t : Nat) : State := flushWhere s t (·.ofRun)

/-- Slots of tiles whose lines a stream reads: a spare's stand for those of the tile it replaces (18 R426). -/
def flushWalked (s : State) (ks : List (Nat × Nat)) : State := ks.foldl (fun s k => flushPad s (substT s k.1) (512 * k.2) 512) s

/-! ### Slot tags (08 R183 to R187) -/

/-- Slot k of a tile lies in an enabled tagged region (R183). -/
def slotTagged (tl : Tile) (k : Nat) : Bool :=
  (List.range 8).any fun n =>
    let w := arrGet tl.pad.treg n 0
    bitAt w 25 && decide (fld w 11 0 ≤ k) && decide (k < fld w 11 0 + fld w 24 12)

def slotEmptyAt (s : State) (t k : Nat) : Bool := let tl := tileAt s (substT s t); slotTagged tl k && !arrGet tl.pad.tags k false
def slotFullAt (s : State) (t k : Nat) : Bool := let tl := tileAt s (substT s t); slotTagged tl k && arrGet tl.pad.tags k false

/-- A tag change of an access (R186): only tagged slots change. -/
def setSlotTag (s : State) (t k : Nat) (b : Bool) : State :=
  if slotTagged (tileAt s (substT s t)) k then
    modTile s (substT s t) fun tl => { tl with pad := { tl.pad with tags := arrSet tl.pad.tags k b false } }
  else s

def fillSlots (s : State) (t : Nat) (ks : List Nat) : State := ks.foldl (fun s k => setSlotTag s t k true) s

/-! ### Messages -/

def pushCtl (s : State) (c : Ctl) : State := { s with ctl := s.ctl ++ [c] }

/-- DGEN for a tile of another device (12 R317): the table the hub keeps in step over Jorzin Links; an entry that no control message has
given yet is a free value. -/
def farGeneration (s : State) (ddev dtile : Nat) : Nat :=
  match s.farTab.find? (·.1 = ddev * 4096 + dtile) with
  | some e => e.2.toNat
  | none => Config.reading 0 (ddev * 4096 + dtile) % 256

/-- The generation table of the routers gets the armed generations of tiles that a load has written, and the other devices' hubs are told
of them (12 R313, R317, 17 R402). -/
def tellGenerations (s : State) (ts : List Nat) : State :=
  let s1 := { s with genTab := ts.foldl (fun g t => arrSet g t (tileAt s t).net.agen 0) s.genTab }
  let others := s.casc.present.filter (· ≠ deviceId s)
  if s.casc.ready then
    others.foldl (fun a d => ts.foldl (fun a t => sendControl a d 4 [deviceId s, t, (tileAt s t).net.agen.toNat]) a) s1
  else s1

/-- A DRAIN load's region takes nothing from outside (12 R309). -/
def drainingOut (s : State) (m : Msg) : Bool :=
  match s.load with
  | some l => l.phase = .drain && inRect l.img.rect m.dtile && !(m.sdev = deviceId s && inRect l.img.rect m.stile)
  | none => false

/-- BARPART names the cascade barrier (11 R292). -/
def barParticipates (s : State) (k : Nat) : Bool := bitAt s.casc.barpart k

/-! ### Interrupts, replies, events (14 R326, R330, R352) -/

def portN (s : State) (p : Nat) : Port := s.ports.getD p portReset
def modPort (s : State) (p : Nat) (f : Port → Port) : State := { s with ports := modAt s.ports p f }

/-- An MSI-X message, unless the port's link is down (22 R507). -/
def signal (s : State) (p pf vec : Nat) : State :=
  if (portN s p).link then { s with msi := s.msi ++ [{ port := p, pf := pf, vec := vec }] } else s

/-- A fixed vector on both ports. -/
def signalBoth (s : State) (vec : Nat) : State := signal (signal s 0 0 vec) 1 0 vec

/-- Vector 1,016, repeated on PF1's vector 1 (R352). -/
def signalError (s : State) (p : Nat) : State := signal (signal s p 0 1016) p 1 1

def cqN (pt : Port) (c : Nat) : CompQueue := pt.cq.getD c cqReset
def sqN (pt : Port) (q : Nat) : SubQueue := pt.sq.getD q sqReset
def modCq (s : State) (p c : Nat) (f : CompQueue → CompQueue) : State := modPort s p fun x => { x with cq := modAt x.cq c f }
def modSq (s : State) (p q : Nat) (f : SubQueue → SubQueue) : State := modPort s p fun x => { x with sq := modAt x.sq q f }

def cqSize (c : CompQueue) : Nat := fld c.cfg 11 0 + 1
def cqFull (c : CompQueue) : Bool := (c.tail + 1) % cqSize c = c.head

/-- A CQ can take an entry now. -/
def cqOpen (pt : Port) (c : CompQueue) : Bool := pt.link && bitAt c.cfg 23 && !c.err && !cqFull c

/-- The 32 bytes of an entry (R330). -/
def entryBytes (r : Reply) (phase : Bool) (shaft : Nat) : List Byte :=
  leBytes 4 r.htag ++ leBytes 2 r.status ++ leBytes 2 (r.sq % 16 + 16 * b2n r.async + 2 ^ 15 * b2n phase) ++ leBytes 4 r.detail ++
    leBytes 2 r.sqhead ++ leBytes 2 r.job ++ leBytes 8 shaft ++ leBytes 4 r.r0 ++ leBytes 4 r.r1

/-- A DMA write to host memory. -/
def hostWrite (s : State) (p a : Nat) (bs : List Byte) : State := { s with dma := s.dma ++ [{ port := p, addr := a, bytes := bs }] }

/-- The function of queue number c (R322): 16 is PF1's. -/
def queuePf (c : Nat) : Nat := if c = 16 then 1 else 0

/-- The MSI-X vector of a CQ: VEC, or 0 on PF1 (R352). -/
def cqVec (c : Nat) (q : CompQueue) : Nat := if c = 16 then 0 else fld q.cfg 22 13

/-- Put a record into the ring, and into the flash's newest 256 when it is device-fatal or lasting (18 R443, R445); the
caller reports it. -/
def putRecord (s : State) (status sev : Nat) (lasting summary : Bool) (src job loc0 loc1 : Nat) (detail : List Nat) : State :=
  let r : ErrRec := {
    seq := s.errs.next, shaft := shaftCount s, status := status, sev := sev, lasting := lasting, summary := summary,
    copy := false, src := src, job := job, dev := deviceId s, domain := s.casc.domain.toNat, system := s.casc.system.toNat,
    loc0 := loc0 % 2 ^ 32, loc1 := loc1 % 2 ^ 32, detail := (List.range 5).map fun i => detail.getD i 0 % 2 ^ 32 }
  { s with
    errs := { s.errs with next := s.errs.next + 1, ring := (r :: s.errs.ring).take 262144 }
    flashRecs := if sev = 3 ∨ lasting then (r :: s.flashRecs).take 256 else s.flashRecs }

/-- LOC1 of a queue (18 R444), as R323 gives DETAIL. -/
def queueLoc (q : Nat) (cq : Bool) : Nat := q % 16 + 16 * b2n cq + 32 * queuePf q

/-- The contained record of a queue error, with vector 1,016 (R327, R334). -/
def queueRecord (s : State) (p q : Nat) (cq : Bool) : State :=
  signalError (signalError (putRecord s stContained 1 false false 0x0D 0 p (queueLoc q cq) []) 0) 1

/-- A queue access reaches its memory (R322): host memory, or a region in LPDDR5X of a job of the port with HR and HW, for a
queue other than SQ0, CQ0 and PF1's. -/
def queueReach (s : State) (loc : Bool) (p q a n : Nat) : Bool :=
  !loc || (q ≠ 0 && q ≠ 16 && isLpddr a && (match regionAt s a with
    | some r => r.port = p && r.hr && r.hw && decide (a + n ≤ r.base + visibleBytes r)
    | none => false))

/-- Write an entry at the tail (R326), and raise the vector when COALN entries stand unsignalled or the status demands it
(R352). An access that fails stops the queue, the entry staying held (R327). -/
def writeEntry (s : State) (p c : Nat) (r : Reply) : State :=
  let q := cqN (portN s p) c
  let bs := entryBytes r q.phase (r.shaft.getD (shaftCount s))
  let a := q.base.toNat + 32 * q.tail
  let loc := bitAt q.cfg 12
  if !queueReach s loc p c a 32 then queueRecord (modCq s p c fun x => { x with err := true, held := r :: x.held }) p c true
  else
    let s1 := if loc then memPut s a bs else hostWrite s p a bs
    let wrap := decide (q.tail + 1 = cqSize q)
    let now := decide (q.unsig + 1 ≥ fld q.cfg 31 24) || r.status = stDeadlock || r.status = stFaultFatal
    let s2 := modCq s1 p c fun x => { x with
      tail := if wrap then 0 else x.tail + 1, phase := if wrap then !x.phase else x.phase, unsig := if now then 0 else x.unsig + 1 }
    if now then signal s2 p (queuePf c) (cqVec c q) else s2

/-- A reply or event for a CQ: written, or held in order (R326); beyond 256 held events of a job, EVLOST. Numbers 2 and 3 stand for
the Pithead's ports, whose packets and jobs a Member answers over Jorzin Links (R329, R333). -/
def postEntry (s : State) (p c : Nat) (r : Reply) : State :=
  let pt := portN s p
  let q := cqN pt c
  if 2 ≤ p then
    sendResp s { dev := 0, src := deviceId s, what := if r.async then .event else .reply, last := true, port := p - 2, code := c, num := r.sqhead }
      (entryBytes r false (shaftCount s))
  else if cqOpen pt q && q.held.isEmpty then writeEntry s p c r
  else if r.async && decide ((q.held.filter fun x => x.async && x.job = r.job).length ≥ 256) then
    modCq s p c fun x => { x with evlost := x.evlost + 1 }
  else modCq s p c fun x => { x with held := x.held ++ [r] }

/-- Write held entries while the CQ takes them. -/
def drainHeld (p c : Nat) : Nat → State → State
  | 0, s => s
  | k + 1, s =>
    let pt := portN s p
    let q := cqN pt c
    match q.held with
    | r :: rest =>
      if cqOpen pt q then drainHeld p c k (writeEntry (modCq s p c fun x => { x with held := rest }) p c r) else s
    | [] => s

/-! ### Packets and their replies -/

/-- A field of a packet (R328). -/
def pfld (k : Packet) (off n : Nat) : Nat := leAt k.bytes off n

def pOpcode (k : Packet) : Nat := pfld k 0 2
def pLen (k : Packet) : Nat := pfld k 2 1
def pFence (k : Packet) : Bool := nbit (pfld k 3 1) 0
def pEarly (k : Packet) : Bool := nbit (pfld k 3 1) 1
def pQuiet (k : Packet) : Bool := nbit (pfld k 3 1) 2
def pJob (k : Packet) : Nat := pfld k 0x0A 2
def pLvl (k : Packet) : Nat := pfld k 9 1
def pRect (k : Packet) : Rect := { x0 := pfld k 0x10 1, x1 := pfld k 0x11 1, y0 := pfld k 0x12 1, y1 := pfld k 0x13 1 }

/-- CQ that an SQ names (R324): PF1's SQ has PF1's CQ. -/
def replyCq (s : State) (k : Packet) : Nat := if k.sq = 16 then 16 else fld (sqN (portN s k.port) k.sq).cfg 16 13

def replyOf (k : Packet) (status detail r0 r1 : Nat) : Reply :=
  { htag := pfld k 4 4, status := status, sq := k.sq % 16, async := false, detail := detail, sqhead := k.sqhead, job := pJob k,
    r0 := r0 % 2 ^ 32, r1 := r1 % 2 ^ 32, shaft := none }

/-- Post one reply of a packet, unless its port was reset (R353) or it is an embedded packet. -/
def replyPacket (s : State) (k : Packet) (status detail r0 r1 : Nat) : State :=
  if k.drop || k.sub.isSome then s else postEntry s k.port (replyCq s k) (replyOf k status detail r0 r1)

def packetN (s : State) (k : Nat) : Option Packet := s.out.find? (·.ticket = k)
def dropPacket (s : State) (k : Nat) : State := { s with out := s.out.filter (·.ticket ≠ k) }
def modPacket (s : State) (k : Nat) (f : Packet → Packet) : State :=
  { s with out := s.out.map fun x => if x.ticket = k then f x else x }

/-- A fenced packet waits for every earlier packet of its SQ (R325). What the Pithead forwards has waited there. -/
def fenced (s : State) (x : Packet) : Bool :=
  pFence x && decide (x.port < 2) && s.out.any fun y => y.port = x.port && y.sq = x.sq && decide (y.ticket < x.ticket)

/-- A packet for a Member leaves (R329). -/
def sendForward (s : State) (x : Packet) : State :=
  sendResp (modPacket s x.ticket fun y => { y with sent := true })
    { dev := pfld x 8 1, src := deviceId s, what := .packet, last := true, port := x.port, code := 0, num := x.ticket } x.bytes

/-- Packets for Members that need not wait any longer leave, in order. -/
def sendForwards (s : State) : State := (s.out.filter fun x => x.away && !x.sent && !fenced s x).foldl sendForward s

/-- The final reply (R331): the packet leaves; with QUIET an OK is not written. The status of an embedded packet goes to its
CASCADE_FORWARD (R337). -/
def complete (s : State) (k status detail r0 r1 : Nat) : State :=
  match packetN s k with
  | none => s
  | some x =>
    let s1 := dropPacket s k
    sendForwards (match x.sub with
    | some p => modPacket s1 p fun y => { y with res := some status }
    | none => if pQuiet x && status = stOk && decide (x.port < 2) then s1 else replyPacket s1 x status detail r0 r1)

def replyOk (s : State) (k r0 r1 : Nat) : State := complete s k stOk 0 r0 r1

/-- A refusal by the opcode's own checks (R332). -/
def refuse (s : State) (k status detail : Nat) : State := complete s k status detail 0 0

/-- DETAIL of a BAD_PARAM that no field causes (R330). -/
def noField : Nat := 0xFFFFFFFF

/-- ACCEPTED (R331). -/
def accept (s : State) (k : Nat) (r0 : Nat) : State :=
  match packetN s k with
  | none => s
  | some x => replyPacket s x stAccepted 0 r0 0

/-- A host waiter is served (11 R283). -/
def satisfyTicket (s : State) (k : Nat) : State := replyOk s k 0 0

/-! ### Error records (18 R443, R445, R523) -/

/-- STATUS where the raising rule names none (R523). -/
def sevStatus (sev : Nat) : Nat := if sev = 0 then stCorrected else if sev = 1 then stContained else stFaultFatal

/-- The event of a record (14 R333); a cascade job's fault is told once SHACK_N is high (17 R414). -/
def recordEvent (s : State) (r : ErrRec) : State :=
  match jobOf s r.job with
  | some j =>
    let e : Reply := {
      htag := 0xFFFFFFFF, status := r.status, sq := 0, async := true, detail := r.seq % 2 ^ 32, sqhead := 0, job := j.id,
      r0 := r.loc0, r1 := r.loc1, shaft := none }
    if r.sev = 2 ∧ j.casc then { s with casc := { s.casc with ackEvents := s.casc.ackEvents ++ [(j.port, j.evcq, e)] } }
    else if r.sev = 1 ∨ r.sev = 2 then postEntry s j.port j.evcq e
    else s
  | none => s

/-- Write an error record: the ring, the flash's newest 256 (R445), then the event or vector 1,016 (R333, R334). -/
def addRecord (s : State) (status sev : Nat) (lasting summary : Bool) (src job loc0 loc1 : Nat) (detail : List Nat) : State :=
  let s1 := putRecord s status sev lasting summary src job loc0 loc1 detail
  if job = 0 ∨ sev = 3 then signalError (signalError s1 0) 1
  else match s1.errs.ring.head? with
    | some r => recordEvent s1 r
    | none => s1

/-- A record that names the computing job, if any. A job-fatal condition with no job is recorded contained (R423). -/
def jobRecord (s : State) (src status sev loc0 loc1 : Nat) (detail : List Nat) : State :=
  let j := s.comp.getD 0
  addRecord s status (if sev = 2 ∧ j = 0 then 1 else sev) false false src j loc0 loc1 detail

/-- A record that names no job. -/
def plainRecord (s : State) (src status sev loc0 loc1 : Nat) (detail : List Nat) : State :=
  addRecord s status sev false false src 0 loc0 loc1 detail

/-- A notice on the boundary link (21 R484). -/
def notify (s : State) (n : Notice) : State := { s with notices := s.notices ++ [n] }

/-- A fresh value's number. -/
def bumpFresh (s : State) : State := { s with fresh := s.fresh + 1 }

/-- DEVSTAT READY (14 R348). -/
def deviceReady (s : State) : Bool := s.module = .on && s.casc.ready && !s.casc.lost && s.casc.staged.isNone

/-- CFG_ERR_N asserted (19 R456). -/
def cfgErr (s : State) : Bool := match s.module with | .failed _ => true | _ => false

/-- A feature's value (14 R340). -/
def featDefault (f : Nat) : Nat :=
  match f with
  | 2 => 200 | 3 => 400 | 4 => 485 | 5 => 50 | 6 => 8 | _ => 0

def feature (s : State) (f : Nat) : Nat := arrGet s.feat f (featDefault f)

end Sys2Proof.Machine
end

