-- ==== Sys2Proof/Machine/Crypto.lean ====
section
/-! DEFINITION. What the memory devices hold: the key pair of a region, AES-256-XTS of a line, codewords, LPDDR5X packages and parity lines
(09_memory_tiers R221, R222, R232, R238, R240). State.mem holds the plaintext; all of these are views of it. PRESUMED (log 16): AES is that
of FIPS 197, XTS that of IEEE 1619, which the spec names and does not repeat. -/

namespace Sys2Proof.Config

/-- FREE VALUE. The XTS key pair of a save area or of a reserved area (09 R218, R239; 14 R341: the spec derives none but a region's): of
the slot's key and the address of the area. -/
opaque areaKeys : BitVec 256 → Nat → List (BitVec 8)

end Sys2Proof.Config

namespace Sys2Proof.Machine

/-! ### AES-256 -/

/-- x times a byte of the field of AES. -/
def fieldDouble (a : Byte) : Byte := (a <<< 1) ^^^ if bitAt a 7 then 0x1B else 0

/-- Product in the field: the doublings of a at the set bits of b. -/
def fieldMul (a b : Byte) : Byte :=
  ((List.range 8).foldl (fun (r : Byte × Byte) i => (fieldDouble r.1, if bitAt b i then r.2 ^^^ r.1 else r.2)) (a, 0)).2

/-- Inverse in the field, 0 for 0: the power 254. -/
def fieldInv (a : Byte) : Byte := (List.range 6).foldl (fun r _ => fieldMul (fieldMul r r) a) a |> fun r => fieldMul r r

/-- XOR of rotations of a byte. -/
def spread (b : Byte) (l : List Nat) : Byte := (l.map fun n => b.rotateLeft n).foldl (· ^^^ ·) 0

def subByte (a : Byte) : Byte := spread (fieldInv a) [0, 1, 2, 3, 4] ^^^ 0x63
def unsubByte (b : Byte) : Byte := fieldInv (spread b [1, 3, 6] ^^^ 0x05)

def xorBytes (a b : List Byte) : List Byte := List.zipWith (· ^^^ ·) a b

/-- The next word of the key schedule, from the words before it, newest first. -/
def nextKeyWord (ws : List (List Byte)) : List Byte :=
  let i := ws.length
  let t := ws.headD []
  let u := if i % 8 = 0 then xorBytes ((t.drop 1 ++ t.take 1).map subByte) [BitVec.ofNat 8 (2 ^ (i / 8 - 1)), 0, 0, 0]
    else if i % 8 = 4 then t.map subByte else t
  xorBytes (ws.getD 7 []) u

/-- The fifteen round keys of a 32-byte key. -/
def roundKeys (key : List Byte) : List (List Byte) :=
  let first := ((List.range 8).map fun i => slice key (4 * i) 4).reverse
  let all := ((List.range 52).foldl (fun ws _ => nextKeyWord ws :: ws) first).reverse
  (List.range 15).map fun r => ((all.drop (4 * r)).take 4).flatten

/-- Byte r of column c comes from column c + r·k, k being 1 or, backwards, 3. -/
def shiftRows (k : Nat) (x : List Byte) : List Byte := (List.range 16).map fun i => x.getD (4 * ((i / 4 + k * (i % 4)) % 4) + i % 4) 0

/-- Each column times the circulant matrix of the coefficients. -/
def mixColumns (m : List Byte) (x : List Byte) : List Byte :=
  (List.range 16).map fun i =>
    (List.range 4).foldl (fun a j => a ^^^ fieldMul (x.getD (4 * (i / 4) + j) 0) (m.getD ((4 + j - i % 4) % 4) 0)) 0

/-- AES-256 of a 16-byte block. -/
def aesEncrypt (ks : List (List Byte)) (x : List Byte) : List Byte :=
  let y := ((ks.drop 1).take 13).foldl (fun x k => xorBytes (mixColumns [2, 3, 1, 1] (shiftRows 1 (x.map subByte))) k) (xorBytes x (ks.headD []))
  xorBytes (shiftRows 1 (y.map subByte)) (ks.getD 14 [])

/-- Its inverse. -/
def aesDecrypt (ks : List (List Byte)) (x : List Byte) : List Byte :=
  let y := ((ks.drop 1).take 13).reverse.foldl (fun x k => mixColumns [14, 11, 13, 9] (xorBytes ((shiftRows 3 x).map unsubByte) k))
    (xorBytes x (ks.getD 14 []))
  xorBytes ((shiftRows 3 y).map unsubByte) (ks.headD [])

/-! ### XTS over a 512-byte line (R238) -/

/-- The tweak value of a line: its device address bits [47:9]. -/
def lineTweak (a : Nat) : List Byte := leBytes 16 (a / 512 % 2 ^ 39)

/-- The tweak of the next block: times x modulo x¹²⁸ + x⁷ + x² + x + 1, in little-endian order. -/
def tweakNext (t : List Byte) : List Byte :=
  let n := 2 * leNat t
  leBytes 16 (Nat.xor (n % 2 ^ 128) (if n < 2 ^ 128 then 0 else 0x87))

/-- The tweak of block i of the line at an address, under key K2. -/
def blockTweak (k2 : List Byte) (a i : Nat) : List Byte := (List.range i).foldl (fun t _ => tweakNext t) (aesEncrypt (roundKeys k2) (lineTweak a))

/-- Block i of the line at an address, under the key pair. -/
def encryptBlock (k1 k2 : List Byte) (a i : Nat) (x : List Byte) : List Byte :=
  let t := blockTweak k2 a i
  xorBytes (aesEncrypt (roundKeys k1) (xorBytes x t)) t

def decryptBlock (k1 k2 : List Byte) (a i : Nat) (x : List Byte) : List Byte :=
  let t := blockTweak k2 a i
  xorBytes (aesDecrypt (roundKeys k1) (xorBytes x t)) t

/-! ### Keys (R239, R240) -/

/-- A 256-bit word as bytes, least significant first (log 16). -/
def keyBytes (w : BitVec 256) : List Byte := leBytes 32 w.toNat

/-- K1 and K2 of a region: HKDF of its job's slot key, its salt and its base address. -/
def regionKeys (s : State) (r : Region) : List Byte :=
  let slot := ((jobOf s r.job).bind (·.key)).getD 0
  hkdf 64 (keyBytes (arrGet s.keys slot 0)) (keyBytes r.salt) (leBytes 8 r.base)

/-- The key pair that a line of external memory is encrypted under. -/
def lineKeys (s : State) (a : Nat) : List Byte :=
  match regionOver s a with
  | some r => regionKeys s r
  | none => Config.areaKeys (arrGet s.keys (lineSlot s a) 0) a

/-! ### Stored lines, codewords, packages, parity -/

/-- The 16 stored bytes of the aligned word at an address: ciphertext in external memory, plaintext in a scratchpad. -/
def storedWord (s : State) (a : Nat) : List Byte :=
  let x := memRead s (a / 16 * 16) 16
  if isPad a then x
  else let k := lineKeys s a; encryptBlock (k.take 32) (k.drop 32) a (a % 512 / 16) x

/-- The 512 stored bytes of a line (R238). -/
def storedLine (s : State) (a : Nat) : List Byte := (List.range 32).flatMap fun i => storedWord s (a / 512 * 512 + 16 * i)

/-- The codeword of a word: 36 symbols of 4 bits, the check bits above the data (R222). -/
def codeword (w : BitVec 128) : BitVec 144 := Config.checkBits w ++ w

/-- Symbol i of a codeword. -/
def codeSymbol (c : BitVec 144) (i : Nat) : Nat := fld c (4 * i + 3) (4 * i)

/-- The parity line of a stripe: the XOR of its stored data lines (R232). -/
def parityLine (s : State) (r : Region) (stripe : Nat) : List Byte :=
  let g := if r.prot = 1 then 15 else 3
  (List.range g).foldl (fun x k => xorBytes x (storedLine s (r.base + 512 * (g * stripe + k)))) (List.replicate 512 0)

/-- Check groups of an LPDDR5X package (R221). -/
def checkGroups : Nat := 11184810

/-- Package and package line of an address of LPDDR5X (R221). -/
def packageLine (a : Nat) : Nat × Nat :=
  let l := (a - 0x10000000000) % 0x4000000000 / 512
  (6 * memLevel a + l % 6, l / 6)

/-- Where in its package a line is stored: eight data lines to a check group of 4,608 bytes (R221). -/
def packageByte (a : Nat) : Nat := let p := (packageLine a).2; 4608 * (p / 8) + 512 * (p % 8)

/-- A line of LPDDR5X has backing: all but the 32 at the top of each Level's range (R221). -/
def lineBacked (a : Nat) : Bool := decide ((packageLine a).2 < 8 * checkGroups)

/-- The 512 bytes that carry the check bits of the group of a line: 16 bits for each of its 256 words, in word order (R221). -/
def checkArea (s : State) (a : Nat) : List Byte :=
  let l := (a - 0x10000000000) % 0x4000000000 / 512
  let first := l / 48 * 48 + l % 6
  let base := 0x10000000000 + memLevel a * 0x4000000000
  (List.range 8).flatMap fun i => (List.range 32).flatMap fun w =>
    leBytes 2 (Config.checkBits (BitVec.ofNat 128 (leNat (storedWord s (base + 512 * (first + 6 * i) + 16 * w))))).toNat

/-- An error over three or more symbols of a stored word that the code has missed, or corrected wrongly (R222): the stored word differs by
`e`, and what is read is what that decrypts to. -/
def wrongWord (s : State) (a : Nat) (e : BitVec 128) : State :=
  let w := xorBytes (storedWord s a) (leBytes 16 e.toNat)
  let x := if isPad a then w else let k := lineKeys s a; decryptBlock (k.take 32) (k.drop 32) a (a % 512 / 16) w
  memPut s (a / 16 * 16) x

end Sys2Proof.Machine
end

