-- ==== Sys2Proof/Machine/Num.lean ====
section
/-! DEFINITION. Number formats, exact values, one rounding from an exact value, stochastic rounding and conversions
(02_number_formats). -/

namespace Sys2Proof.Machine

/-- Element formats (R32). -/
inductive Fmt where
  | fp32 | bf16 | fp16 | f8v | f8g | f4w | i8 | int32
deriving DecidableEq, Repr

/-- Rounding modes (R49). -/
inductive RMode where
  | rne | rz | ru | rd | sr
deriving DecidableEq, Repr

/-- A finite exact value, (-1)^neg * num / den * 2^exp, the sign of a zero kept. -/
structure Exact where
  neg : Bool
  num : Nat
  den : Nat
  exp : Int
deriving DecidableEq, Repr

/-- A value of an IEEE or short format before it is rounded. -/
inductive Num where
  | nan (sig : Bool)
  | inf (neg : Bool)
  | fin (x : Exact)
deriving DecidableEq, Repr

/-- The flags of ARITH_STATUS (R61): bit 0 NV, bit 1 OF, bit 2 UF, bit 3 INGOT. -/
abbrev AFlags := BitVec 4

def flagNV : AFlags := 1
def flagOF : AFlags := 2
def flagUF : AFlags := 4
def flagINGOT : AFlags := 8
def flagIf (b : Bool) (f : AFlags) : AFlags := if b then f else 0

/-- The format of a format code (R32); codes 8 to 15 are reserved. -/
def fmtOf (c : Nat) : Option Fmt :=
  match c with
  | 0 => some .fp32 | 1 => some .bf16 | 2 => some .fp16 | 3 => some .f8v
  | 4 => some .f8g | 5 => some .f4w | 6 => some .i8 | 7 => some .int32
  | _ => none

/-- The format of a code that a check has found not reserved. -/
def fmtD (c : Nat) : Fmt := (fmtOf c).getD .fp32

/-- The mode of a mode code (R49); codes 5 to 7 are reserved. -/
def rmodeOf (c : Nat) : Option RMode :=
  match c with
  | 0 => some .rne | 1 => some .rz | 2 => some .ru | 3 => some .rd | 4 => some .sr
  | _ => none

def rmodeD (c : Nat) : RMode := (rmodeOf c).getD .rne

/-- Bits per element (R32). -/
def fmtBits (f : Fmt) : Nat :=
  match f with
  | .fp32 | .int32 => 32
  | .bf16 | .fp16 => 16
  | .f8v | .f8g | .i8 => 8
  | .f4w => 4

/-- The bytes of a row of n elements (R34 for F4W). -/
def rowBytes (f : Fmt) (n : Nat) : Nat := cdiv (n * fmtBits f) 8

/-- F8V, F8G and F4W. -/
def fmtShort (f : Fmt) : Bool :=
  match f with
  | .f8v | .f8g | .f4w => true
  | _ => false

/-- FP32, BF16 and FP16. -/
def fmtIeee (f : Fmt) : Bool :=
  match f with
  | .fp32 | .bf16 | .fp16 => true
  | _ => false

/-- Precision with the hidden bit (R35, R37, R40). -/
def fPrec (f : Fmt) : Nat :=
  match f with
  | .fp32 => 24 | .bf16 => 8 | .fp16 => 11 | .f8v => 4 | .f8g => 3 | .f4w => 2 | .i8 => 8 | .int32 => 32

/-- Exponent of the smallest normal (R35, R38, R40). -/
def fEmin (f : Fmt) : Int :=
  match f with
  | .fp32 => -126 | .bf16 => -126 | .fp16 => -14 | .f8v => -6 | .f8g => -14 | .f4w => 0 | .i8 => 0 | .int32 => 0

/-- The magnitude code of the largest finite value (R38, R40). -/
def fMax (f : Fmt) : Nat :=
  match f with
  | .fp32 => 0x7F7FFFFF | .bf16 => 0x7F7F | .fp16 => 0x7BFF | .f8v => 0x7F | .f8g => 0x7F | .f4w => 7
  | .i8 => 127 | .int32 => 0x7FFFFFFF

/-- The canonical NaN code: R36, R39; F4W and the integers have none (R52 gives what they store). -/
def fNan (f : Fmt) : Nat :=
  match f with
  | .fp32 => 0x7FC00000 | .bf16 => 0x7FC0 | .fp16 => 0x7E00 | .f8v => 0x80 | .f8g => 0x80 | .f4w => 0
  | .i8 => 0 | .int32 => 0

/-- The value of a floating code's magnitude. -/
def magOf (f : Fmt) (neg : Bool) (mag : Nat) : Exact :=
  let h := 2 ^ (fPrec f - 1)
  let e := mag / h
  let m := mag % h
  let q : Int := fEmin f - (fPrec f - 1 : Nat)
  if e = 0 then { neg := neg, num := m, den := 1, exp := q }
  else { neg := neg, num := h + m, den := 1, exp := q + (e - 1 : Nat) }

/-- An integer as an exact value. -/
def exactInt (i : Int) : Exact := { neg := decide (i < 0), num := i.natAbs, den := 1, exp := 0 }

/-- The value of an element code: R35 to R41, I8 and INT32 as their integers. -/
def decodeElem (f : Fmt) (code : Nat) : Num :=
  let w := fmtBits f
  let mag := code % 2 ^ (w - 1)
  let neg := nbit code (w - 1)
  match f with
  | .fp32 | .bf16 | .fp16 =>
    if mag = fMax f + 1 then .inf neg
    else if mag > fMax f + 1 then .nan (!nbit mag (fPrec f - 2))
    else .fin (magOf f neg mag)
  | .f8v | .f8g => if mag = 0 ∧ neg then .nan false else .fin (magOf f neg mag)
  | .f4w => .fin (magOf f (neg && mag != 0) mag)
  | .i8 => .fin (exactInt (sext 8 code))
  | .int32 => .fin (exactInt (sext 32 code))

def numIsNan (x : Num) : Bool :=
  match x with
  | .nan _ => true
  | _ => false

def numSig (x : Num) : Bool :=
  match x with
  | .nan s => s
  | _ => false

def numNeg (x : Num) : Bool :=
  match x with
  | .nan _ => false
  | .inf n => n
  | .fin x => x.neg

/-- Two values written over one denominator and exponent. -/
def alignExact (a b : Exact) : Nat × Nat × Nat × Int :=
  let e := min a.exp b.exp
  (a.num * 2 ^ (a.exp - e).toNat * b.den, b.num * 2 ^ (b.exp - e).toNat * a.den, a.den * b.den, e)

/-- Exact comparison of magnitudes. -/
def magLe (a b : Exact) : Bool := let t := alignExact a b; decide (t.1 ≤ t.2.1)

/-- Exact sum; the sign of an exact zero is R54's, `rdMode` saying that the mode is RD. -/
def exactAdd (rdMode : Bool) (a b : Exact) : Exact :=
  let t := alignExact a b
  let x := t.1
  let y := t.2.1
  if a.neg = b.neg then { neg := a.neg, num := x + y, den := t.2.2.1, exp := t.2.2.2 }
  else if x = y then { neg := rdMode, num := 0, den := 1, exp := 0 }
  else if x > y then { neg := a.neg, num := x - y, den := t.2.2.1, exp := t.2.2.2 }
  else { neg := b.neg, num := y - x, den := t.2.2.1, exp := t.2.2.2 }

def exactMul (a b : Exact) : Exact :=
  { neg := a.neg != b.neg, num := a.num * b.num, den := a.den * b.den, exp := a.exp + b.exp }

/-- Exact quotient; the divisor is not zero. -/
def exactDiv (a b : Exact) : Exact :=
  { neg := a.neg != b.neg, num := a.num * b.den, den := a.den * b.num, exp := a.exp - b.exp }

/-- Signed value of a comparison a < b of exact values. -/
def exactLt (a b : Exact) : Bool :=
  let t := alignExact a b
  let x : Int := if a.neg then -(t.1 : Int) else t.1
  let y : Int := if b.neg then -(t.2.1 : Int) else t.2.1
  decide (x < y)

/-- Product of two values: NaN of 0 × infinity sets NV (R61, R76). -/
def numMul (a b : Num) : Num × AFlags :=
  let sg := flagIf (numSig a || numSig b) flagNV
  match a, b with
  | .nan _, _ => (.nan false, sg)
  | _, .nan _ => (.nan false, sg)
  | .inf n, .inf m => (.inf (n != m), 0)
  | .inf n, .fin y => if y.num = 0 then (.nan false, flagNV) else (.inf (n != y.neg), 0)
  | .fin x, .inf m => if x.num = 0 then (.nan false, flagNV) else (.inf (x.neg != m), 0)
  | .fin x, .fin y => (.fin (exactMul x y), 0)

/-- Sum of two values, R54 for the zero's sign, R61 for the flags. -/
def numAdd (rdMode : Bool) (a b : Num) : Num × AFlags :=
  let sg := flagIf (numSig a || numSig b) flagNV
  match a, b with
  | .nan _, _ => (.nan false, sg)
  | _, .nan _ => (.nan false, sg)
  | .inf n, .inf m => if n = m then (.inf n, 0) else (.nan false, flagNV)
  | .inf n, .fin _ => (.inf n, 0)
  | .fin _, .inf m => (.inf m, 0)
  | .fin x, .fin y => (.fin (exactAdd rdMode x y), 0)

def numNegate (a : Num) : Num :=
  match a with
  | .nan s => .nan s
  | .inf n => .inf (!n)
  | .fin x => .fin { x with neg := !x.neg }

/-- The largest L with 2^L ≤ num / den; both are not zero. -/
def floorLog2 (num den : Nat) : Int :=
  let l : Int := (Nat.log2 num : Int) - (Nat.log2 den : Int)
  let ge : Bool := if 0 ≤ l then decide (den * 2 ^ l.toNat ≤ num) else decide (den ≤ num * 2 ^ (-l).toNat)
  if ge then l else l - 1

/-- Whether a magnitude n + rem/dd rounds up to n + 1: R49, and R56 for SR with the word r. -/
def roundUp (m : RMode) (r : Nat) (neg : Bool) (n rem dd : Nat) : Bool :=
  match m with
  | .rne => decide (2 * rem > dd) || (decide (2 * rem = dd) && n % 2 == 1)
  | .rz => false
  | .ru => decide (rem > 0) && !neg
  | .rd => decide (rem > 0) && neg
  | .sr => decide (r < rem * 2 ^ 32 / dd)

/-- The magnitude code of x rounded to f's precision with an unbounded exponent range above, and whether it is
inexact (R51). -/
def roundMag (f : Fmt) (m : RMode) (r : Nat) (x : Exact) : Nat × Bool :=
  if x.num = 0 then (0, false)
  else
    let p1 := fPrec f - 1
    let qmin : Int := fEmin f - p1
    let q : Int := max (floorLog2 x.num x.den + x.exp - p1) qmin
    let sh := x.exp - q
    let nn := x.num * 2 ^ sh.toNat
    let dd := x.den * 2 ^ (-sh).toNat
    let n := nn / dd
    let rem := nn % dd
    let base := (q - qmin).toNat * 2 ^ p1 + n
    (base + b2n (roundUp m r x.neg n rem dd), decide (rem ≠ 0))

/-- A finite value rounded once to a floating format, with the flags of R51. -/
def roundFinite (f : Fmt) (m : RMode) (r : Nat) (x : Exact) : Nat × AFlags :=
  let rm := roundMag f m r x
  let probe := if m = .sr then (roundMag f .rne r x).1 else rm.1
  let sgn := b2n x.neg * 2 ^ (fmtBits f - 1)
  if probe > fMax f then
    if fmtIeee f then
      let toInf := match m with
        | .rne | .sr => true
        | .rz => false
        | .ru => !x.neg
        | .rd => x.neg
      (sgn + (if toInf then fMax f + 1 else fMax f), flagOF)
    else (sgn + fMax f, flagOF)
  else
    let mag := min rm.1 (fMax f)
    let uf := flagIf (rm.2 && decide (mag < 2 ^ (fPrec f - 1))) flagUF
    (if mag = 0 ∧ ¬ fmtIeee f then 0 else sgn + mag, uf)

/-- A value rounded once to a floating format: R36, R51, R52 (F4W here is without fine scales). -/
def roundNum (f : Fmt) (m : RMode) (r : Nat) (x : Num) : Nat × AFlags :=
  match x with
  | .nan _ => (fNan f, flagIf (f = .f4w) flagNV)
  | .inf n =>
    if fmtIeee f then (b2n n * 2 ^ (fmtBits f - 1) + fMax f + 1, 0)
    else (b2n n * 2 ^ (fmtBits f - 1) + fMax f, flagOF)
  | .fin x => roundFinite f m r x

/-- A finite value rounded to an integer in a mode (R49); also whether it was inexact. -/
def roundInt (m : RMode) (r : Nat) (x : Exact) : Int × Bool :=
  let nn := x.num * 2 ^ x.exp.toNat
  let dd := x.den * 2 ^ (-x.exp).toNat
  let n := nn / dd
  let rem := nn % dd
  let v := n + b2n (roundUp m r x.neg n rem dd)
  (if x.neg then -(v : Int) else v, decide (rem ≠ 0))

/-- An I8 destination (R51, R52, R53): q = round(y) + z saturated, y the scaled source. -/
def roundI8 (m : RMode) (r : Nat) (z : Int) (y : Num) : Nat × AFlags :=
  match y with
  | .nan _ => (imod 8 z, flagNV)
  | .inf n => (if n then 0x80 else 0x7F, flagOF)
  | .fin x =>
    let q := roundInt m r x
    let v := q.1 + z
    if v > 127 then (0x7F, flagOF)
    else if v < -128 then (0x80, flagOF)
    else (imod 8 v, flagIf (q.2 && q.1 == 0) flagUF)

/-- 2^k as an exact value. -/
def pow2 (k : Int) : Exact := { neg := false, num := 1, den := 1, exp := k }

/-- A scale field that R47 admits: positive and finite. -/
def scaleOk (s : W32) : Bool :=
  match decodeElem .fp32 s.toNat with
  | .fin x => !x.neg && decide (x.num ≠ 0)
  | _ => false

/-- The exact value of an admitted scale field. -/
def scaleVal (s : W32) : Exact :=
  match decodeElem .fp32 s.toNat with
  | .fin x => x
  | _ => pow2 0

/-- The value c × 2^(e-127) × v of an element of a stored tensor (R42, R45, R47, R53), with the flags of reading it:
`fine` is the fine code. -/
def elemValue (f : Fmt) (c : W32) (z : Int) (fine code : Nat) : Num × AFlags :=
  match f with
  | .fp32 | .bf16 | .fp16 | .int32 => let v := decodeElem f code; (v, flagIf (numSig v) flagNV)
  | .i8 =>
    if scaleOk c then (.fin (exactMul (scaleVal c) (exactInt (sext 8 code - z))), 0) else (.nan false, flagNV)
  | .f8v | .f8g | .f4w =>
    let ing := flagIf (fine = 255) flagINGOT
    if !scaleOk c then (.nan false, flagNV ||| ing)
    else if fine = 255 then (.nan false, ing)
    else match decodeElem f code with
      | .fin v => (.fin (exactMul (exactMul (scaleVal c) (pow2 ((fine : Int) - 127))) v), 0)
      | v => (v, 0)

/-- x × u, or x / c at a vector port (R48, R93); an inadmissible scale gives NaN and NV (R47). -/
def scaledSource (dv : Bool) (u : W32) (x : Num) : Num × AFlags :=
  if !scaleOk u then (.nan false, flagNV)
  else match x with
    | .fin v => (.fin (if dv then exactDiv v (scaleVal u) else exactMul v (scaleVal u)), 0)
    | v => (v, flagIf (numSig v) flagNV)

/-- The fine code of an ingot whose scaled source values are ys (R48). -/
def ingotFine (f : Fmt) (ys : List Num) : Nat :=
  if ys.any numIsNan then 255
  else if ys.any (fun y => match y with | .inf _ => true | _ => false) then 254
  else
    let mags := ys.filterMap fun y => match y with | .fin x => some x | _ => none
    if mags.all (fun x => decide (x.num = 0)) then 127
    else
      let top := magOf f false (fMax f)
      ((List.range 255).find? fun (e : Nat) => mags.all fun x => magLe x (exactMul top (pow2 ((e : Int) - 127)))).getD 254

/-- One ingot stored in an ingot-scaled format (R48): the fine code, the element codes and the flags. Each source comes
with its stochastic word. -/
def storeIngot (f : Fmt) (m : RMode) (ys : List (Num × Nat)) : Nat × List Nat × AFlags :=
  let e := ingotFine f (ys.map (·.1))
  if e = 255 then (255, ys.map fun _ => 0, flagNV ||| flagINGOT)
  else
    let out := ys.map fun (y, r) =>
      match y with
      | .fin x => roundNum f m r (.fin (exactMul x (pow2 (127 - (e : Int)))))
      | v => roundNum f m r v
    (e, out.map (·.1), out.foldl (fun a p => a ||| p.2) 0)

/-- One element stored without a fine scale, from its scaled source (R48 with e = 127, R52, R53). -/
def storeElem (f : Fmt) (m : RMode) (r : Nat) (z : Int) (y : Num) : Nat × AFlags :=
  match f with
  | .i8 => roundI8 m r z y
  | _ => roundNum f m r y

def rotr32 (w n : Nat) : Nat := (w / 2 ^ n + (w % 2 ^ n) * 2 ^ (32 - n)) % 2 ^ 32
def rotl32 (w n : Nat) : Nat := rotr32 w (32 - n)

/-- One round of R58. -/
def srRound (k0 k1 : Nat) (xy : Nat × Nat) (i : Nat) : Nat × Nat :=
  let k := ((if i % 2 = 0 then k0 else k1) + i * 0x9e3779b9) % 2 ^ 32
  let x := Nat.xor ((rotr32 xy.1 8 + xy.2) % 2 ^ 32) k
  (x, Nat.xor (rotl32 xy.2 12) x)

/-- The stochastic rounding word (R57, R58). -/
def srWord (seed tid idx stage : Nat) : Nat :=
  let k0 := seed % 2 ^ 32
  let k1 := Nat.xor (nbits seed 63 32) (tid % 2 ^ 32)
  ([0, 1, 2, 3].foldl (srRound k0 k1) (idx % 2 ^ 32, Nat.lor (nbits idx 47 32) (stage * 2 ^ 16))).1

/-- Minimum or maximum under MINMAX (R55): -0 is less than +0. -/
def numMinMax (mx numberMode : Bool) (a b : Num) : Num × AFlags :=
  let sg := flagIf (numSig a || numSig b) flagNV
  match a, b with
  | .nan _, .nan _ => (.nan false, sg)
  | .nan _, y => (if numberMode then y else .nan false, sg)
  | x, .nan _ => (if numberMode then x else .nan false, sg)
  | x, y =>
    let lt : Bool := match x, y with
      | .inf n, .inf m => n && !m
      | .inf n, _ => n
      | _, .inf m => !m
      | .fin p, .fin q =>
        if p.num = 0 ∧ q.num = 0 then p.neg && !q.neg else exactLt p q
      | _, _ => false
    (if lt != mx then x else y, sg)

/-- a < b of values that are not NaN, -0 equal to +0. -/
def numLt (a b : Num) : Bool :=
  match a, b with
  | .inf n, .inf m => n && !m
  | .inf n, .fin _ => n
  | .fin _, .inf m => !m
  | .fin p, .fin q => exactLt p q
  | _, _ => false

end Sys2Proof.Machine
end

