-- ==== Sys2Proof/Machine/Matrix.lean ====
section
/-! DEFINITION. Matrix descriptors, operand windows, products and running sums, the coarse product and the bank protocol
(03_matrix_unit), as functions of one tile. -/

namespace Sys2Proof.Machine

/-- A job-fatal condition with status BAD_PARAM: the failed condition's position and further DETAIL words (R165). -/
def badCond (n : Nat) (more : List Nat) : TErr := { status := stBadParam, detail := n :: more }

/-- Word w of matrix descriptor d (R69). -/
def mxdWord (m : MxUnit) (d w : Nat) : W64 := arrGet m.mxd (4 * d + w) 0

/-- A matrix descriptor's fields (R69). -/
structure MDesc where
  fa : Nat
  fb : Nat
  m : Nat
  n : Nat
  rm : Nat
  sca : Bool
  scb : Bool
  k : Nat
  awin : Nat
  bwin : Nat
  istride : Nat
  tidh : Nat
  kbase : Nat
  ibase : Nat
deriving DecidableEq, Repr

def mdescOf (w0 w1 w2 w3 : W64) : MDesc :=
  { fa := fld w0 3 0, fb := fld w0 7 4, m := 16 * (fld w0 10 8 + 1), n := 16 * (fld w0 13 11 + 1),
    rm := fld w0 18 16, sca := bitAt w0 19, scb := bitAt w0 20, k := fld w0 47 24,
    awin := 64 * fld w1 11 0, bwin := 64 * fld w1 23 12, istride := fld w1 51 24,
    tidh := fld w2 7 0, kbase := fld w2 31 8, ibase := fld w3 47 0 }

def mdesc (m : MxUnit) (d : Nat) : MDesc :=
  mdescOf (mxdWord m d 0) (mxdWord m d 1) (mxdWord m d 2) (mxdWord m d 3)

/-- The operand pairs of R65. -/
def pairOk (a b : Nat) : Bool :=
  match fmtOf a, fmtOf b with
  | some .f8v, some .f8v | some .f8v, some .f8g | some .f8g, some .f8v | some .f8g, some .f8g => true
  | some .f4w, some .f8v | some .f4w, some .f8g | some .f8v, some .f4w | some .f8g, some .f4w => true
  | some .f4w, some .f4w | some .i8, some .i8 => true
  | some .bf16, some .bf16 | some .fp16, some .fp16 | some .fp32, some .fp32 => true
  | _, _ => false

/-- Row pitch of an operand window (R71). -/
def winPitch (f : Fmt) (k : Nat) : Nat := cdiv (rowBytes f k) 64 * 64

/-- Extent of an operand window (R71). -/
def winExtent (f : Fmt) (rows k : Nat) (sc : Bool) : Nat := 64 + rows * winPitch f k + b2n sc * rows * cdiv k 32

/-- The first condition of R70 that a descriptor breaks, counted from 1. -/
def mmaCheck (d : MDesc) : Option Nat :=
  let ea := d.awin + winExtent (fmtD d.fa) d.m d.k d.sca
  let eb := d.bwin + winExtent (fmtD d.fb) d.n d.k d.scb
  if !pairOk d.fa d.fb then some 1
  else if d.k = 0 then some 2
  else if d.k % 2 = 1 ∧ (d.fa = 5 ∨ d.fb = 5) then some 3
  else if d.rm > 4 then some 4
  else if (d.sca || d.scb) ∧ d.kbase % 32 ≠ 0 then some 5
  else if ea > 0x40000 ∨ eb > 0x40000 then some 6
  else if d.awin < eb ∧ d.bwin < ea then some 7
  else none

/-- A byte of the operand cache. -/
def opcByte (m : MxUnit) (a : Nat) : Byte := arrGet m.opc a 0

/-- The code of element i of a row of elements at byte address a, through a reader of bytes (R34 for F4W). -/
def elemAt (rd : Nat → Byte) (f : Fmt) (a i : Nat) : Nat :=
  match f with
  | .f4w => nbits (rd (a + i / 2)).toNat (4 * (i % 2) + 3) (4 * (i % 2))
  | .i8 | .f8v | .f8g => (rd (a + i)).toNat
  | .bf16 | .fp16 => leNat ((List.range 2).map fun j => rd (a + 2 * i + j))
  | .fp32 | .int32 => leNat ((List.range 4).map fun j => rd (a + 4 * i + j))

/-- An element code of the operand cache. -/
def opcElem (m : MxUnit) (f : Fmt) (a i : Nat) : Nat := elemAt (opcByte m) f a i

/-- Bytes in which two states of the operand cache differ, with the values of the first. -/
def opcDiff : Nat → Arr Byte → Arr Byte → Arr Byte
  | 0, _, _ => []
  | _ + 1, [], b => b.map fun e => (e.1, 0)
  | _ + 1, a, [] => a
  | k + 1, (i, x) :: a, (j, y) :: b =>
    if i < j then (i, x) :: opcDiff k a ((j, y) :: b)
    else if j < i then (j, 0) :: opcDiff k ((i, x) :: a) b
    else if x = y then opcDiff k a b
    else (i, x) :: opcDiff k a b

/-- The operand cache written: an MMA that issues products keeps what the bytes held before (R91). -/
def withOpc (m : MxUnit) (a : Arr Byte) : MxUnit :=
  { m with
    opc := a
    busy := m.busy.map fun r => { r with
      was := (opcDiff (m.opc.length + a.length) m.opc a).foldl (fun w e => arrPut w e.1 (arrGet w e.1 [] ++ [e.2]) false) r.was } }

/-- A byte as an MMA in progress reads it (R91): of a byte written meanwhile any value it has held, a free choice for each output
element. -/
def mixedByte (m : MxUnit) (r : MmaRun) (fresh cell a : Nat) : Byte :=
  match arrGet r.was a [] with
  | [] => opcByte m a
  | l => (opcByte m a :: l).getD (Config.reading fresh (cell * 2 ^ 18 + a) % (l.length + 1)) 0

/-- The header's coarse scale (R72). -/
def winScale (m : MxUnit) (base : Nat) : W32 := BitVec.ofNat 32 (opcElem m .fp32 base 0)

/-- An element's value with its fine code applied (R73, R45): the IEEE formats take a fine code like the short ones. -/
def winValue (f : Fmt) (fine code : Nat) : Num × AFlags :=
  if fmtIeee f then
    let v := decodeElem f code
    let sg := flagIf (numSig v) flagNV
    if fine = 255 then (.nan false, sg ||| flagINGOT)
    else match v with
      | .fin x => (.fin (exactMul (pow2 ((fine : Int) - 127)) x), 0)
      | w => (w, sg)
  else elemValue f 0x3F800000 0 fine code

/-- Element k of row r of a window, as its value with the fine code applied (R71, R73). -/
def winElem (rd : Nat → Byte) (f : Fmt) (base rows k : Nat) (sc : Bool) (r i : Nat) : Num × AFlags :=
  let pitch := winPitch f k
  let fine := if sc then (rd (base + 64 + rows * pitch + r * cdiv k 32 + i / 32)).toNat else 127
  winValue f fine (elemAt rd f (base + 64 + r * pitch) i)

/-- Formats whose header carries a coarse scale (R72, R78). -/
def fmtScaled (f : Fmt) : Bool :=
  match f with
  | .f8v | .f8g | .f4w | .i8 => true
  | _ => false

/-- The coarse product of an instruction (R78), its flags, and whether a header breaks R47. -/
def coarseOf (m : MxUnit) (d : MDesc) : W32 × AFlags × Bool :=
  if fmtScaled (fmtD d.fa) then
    let ca := winScale m d.awin
    let cb := winScale m d.bwin
    if scaleOk ca && scaleOk cb then
      let r := roundFinite .fp32 .rne 0 (exactMul (scaleVal ca) (scaleVal cb))
      (BitVec.ofNat 32 r.1, r.2, false)
    else (BitVec.ofNat 32 (fNan .fp32), flagNV, true)
  else (0x3F800000, 0, false)

/-- One rounded product (R73). -/
def mmaProduct (bad : Bool) (a b : Num × AFlags) : Nat × AFlags :=
  let p := numMul a.1 b.1
  let r := roundNum .fp32 .rne 0 p.1
  (if bad then fNan .fp32 else r.1, if bad then a.2 ||| b.2 else a.2 ||| b.2 ||| p.2 ||| r.2)

/-- The stochastic word of the addition of product k (R75). -/
def mmaWord (seed : Nat) (d : MDesc) (mi ni k : Nat) : Nat :=
  srWord seed (d.tidh * 2 ^ 24 + (d.kbase + k) % 2 ^ 24) ((d.ibase + mi * d.istride + ni) % 2 ^ 48) 15

/-- s + p rounded to FP32 (R74, R76). -/
def mmaStep (mode : RMode) (word : Nat) (s p : Nat × AFlags) : Nat × AFlags :=
  let t := numAdd (decide (mode = .rd)) (decodeElem .fp32 s.1) (decodeElem .fp32 p.1)
  let r := roundNum .fp32 mode word t.1
  (r.1, s.2 ||| p.2 ||| t.2 ||| r.2)

/-- The running sum of one element in normal service (R74): `c` is none under MMAZ. -/
def mmaElement (mode : RMode) (word : Nat → Nat) (prod : Nat → Nat × AFlags) (k : Nat) (c : Option Nat) :
    Nat × AFlags :=
  match c with
  | some c0 => (List.range k).foldl (fun s i => mmaStep mode (word i) s (prod i)) (c0, 0)
  | none => ((List.range k).drop 1).foldl (fun s i => mmaStep mode (word i) s (prod i)) (prod 0)

/-- The sum of one element in Touchstone mode (R63): exact, rounded once. -/
def mmaElementTouch (mode : RMode) (word : Nat → Nat) (bad : Bool) (a b : Nat → Num × AFlags) (k : Nat)
    (c : Option Nat) : Nat × AFlags :=
  let term (i : Nat) : Num × AFlags :=
    let p := numMul (a i).1 (b i).1
    (if bad then .nan false else p.1, (a i).2 ||| (b i).2 ||| p.2)
  let add (s t : Num × AFlags) : Num × AFlags :=
    let r := numAdd (decide (mode = .rd)) s.1 t.1
    (r.1, s.2 ||| t.2 ||| r.2)
  let start : Num × AFlags := match c with
    | some c0 => add (decodeElem .fp32 c0, 0) (term 0)
    | none => term 0
  let s := ((List.range k).drop 1).foldl (fun s i => add s (term i)) start
  let r := roundNum .fp32 mode (word (k - 1)) s.1
  (r.1, s.2 ||| r.2)

/-- The running sum of one I8 × I8 element (R77): two's-complement wrap, OF when an addition wraps. -/
def mmaElementI8 (qa qb : Nat → Int) (k : Nat) (c : Option Nat) : Nat × AFlags :=
  let step (s : Int × AFlags) (i : Nat) : Int × AFlags :=
    let v := s.1 + qa i * qb i
    let w := sext 32 (imod 32 v)
    (w, if w = v then s.2 else s.2 ||| flagOF)
  let r := match c with
    | some c0 => (List.range k).foldl step (sext 32 c0, 0)
    | none => ((List.range k).drop 1).foldl step (qa 0 * qb 0, 0)
  (imod 32 r.1, r.2)

/-- Element (m, n) of an instruction's output (R74, R77, R63), its operand bytes read through `rd`. DESIGN CHOICE (log 61): an
I8 × I8 descriptor whose RMODE, SCA or SCB is not 0, which R77 forbids and R70 does not check, runs as if RMODE were 0 and without
fine codes. -/
def mmaResult (seed : Nat) (touch : Bool) (rd : Nat → Byte) (d : MDesc) (bad : Bool) (mi ni : Nat) (c : Option Nat) :
    Nat × AFlags :=
  let fa := fmtD d.fa
  let fb := fmtD d.fb
  let mode := rmodeD d.rm
  let a := fun i => winElem rd fa d.awin d.m d.k d.sca mi i
  let b := fun i => winElem rd fb d.bwin d.n d.k d.scb ni i
  if fa = .i8 then
    mmaElementI8 (fun i => sext 8 (elemAt rd .i8 (d.awin + 64 + mi * winPitch .i8 d.k) i))
      (fun i => sext 8 (elemAt rd .i8 (d.bwin + 64 + ni * winPitch .i8 d.k) i)) d.k c
  else if touch then mmaElementTouch mode (mmaWord seed d mi ni) bad a b d.k c
  else mmaElement mode (mmaWord seed d mi ni) (fun i => mmaProduct bad (a i) (b i)) d.k c

/-- The number of the bank in FILL (R79). -/
def fillBank (m : MxUnit) : Nat := if m.st0 = .fill then 0 else 1

def bankSt (m : MxUnit) (b : Nat) : BankState := if b = 0 then m.st0 else m.st1
def bankArr (m : MxUnit) (b : Nat) : Arr W32 := if b = 0 then m.acc0 else m.acc1
def bankScale (m : MxUnit) (b : Nat) : W32 := if b = 0 then m.scale0 else m.scale1
def setBankArr (m : MxUnit) (b : Nat) (a : Arr W32) : MxUnit := if b = 0 then { m with acc0 := a } else { m with acc1 := a }
def setBankScale (m : MxUnit) (b : Nat) (v : W32) : MxUnit :=
  if b = 0 then { m with scale0 := v } else { m with scale1 := v }
def setBankSt (m : MxUnit) (b : Nat) (v : BankState) : MxUnit := if b = 0 then { m with st0 := v } else { m with st1 := v }

/-- The number of the bank in DRAIN (R79). -/
def drainBank (m : MxUnit) : Option Nat :=
  if m.st0 = .drain then some 0 else if m.st1 = .drain then some 1 else none

/-- The release flag takes effect (R81): the bank in DRAIN returns to IDLE; none in DRAIN, nothing. -/
def releaseBank (m : MxUnit) : MxUnit :=
  match drainBank m with
  | some b => setBankSt m b .idle
  | none => m

/-- OR flags into ARITH_STATUS (R61). -/
def raiseFlags (t : Tile) (f : AFlags) : Tile := { t with arithStatus := t.arithStatus ||| f.setWidth 32 }

def touchMode (t : Tile) : Bool := bitAt t.arithCtrl 0
def minmaxMode (t : Tile) : Bool := bitAt t.arithCtrl 1

/-- The rows and columns of the output tile, row-major (R66, R74). -/
def mmaCells (d : MDesc) : List (Nat × Nat) :=
  (List.range d.m).flatMap fun mi => (List.range d.n).map fun ni => (mi, ni)

/-- c_sb and L of a pair (R67), in normal service. -/
def pairTiming (d : MDesc) : Nat × Nat :=
  match fmtD d.fa, fmtD d.fb with
  | .f4w, .f4w => (d.k / 2, 22)
  | .i8, _ => (d.k, 18)
  | .bf16, _ | .fp16, _ => (2 * d.k, 26)
  | .fp32, _ => (8 * d.k, 34)
  | _, _ => (d.k, 22)

/-- The products in flight once an instruction has issued its last one (R67, R68; 64 times as long in Touchstone mode, R63): its
results are readable L + 1 A-cycles later, and the next instruction into the bank waits w. -/
def mmaTail (r : MmaRun) (d : MDesc) : MmaTail :=
  let f := if r.touch then 64 else 1
  let p := pairTiming d
  { bank := r.bank, left := f * p.2 + 1, hold := f * p.2 - 1 - (d.m / 16 * (d.n / 16) - 1) * (f * p.1) }

/-- An MMA (`zero` false) or MMAZ of descriptor number dn into the FILL bank: the checks of R70 and R78, and the coarse product.
Its products issue until MMA_COMPLETE. A run of the vector engine in progress may still be writing the operand cache (R91). -/
def mmaStart (zero : Bool) (t : Tile) (dn : Nat) : Except TErr Tile :=
  let u := t.mx
  let d := mdesc u dn
  let b := fillBank u
  match mmaCheck d with
  | some c => .error (badCond c [dn])
  | none =>
    let g := coarseOf u d
    if !zero ∧ g.1 ≠ bankScale u b then .error (badCond 1 [dn])
    else
      let run : MmaRun := {
        bank := b, zero := zero, desc := (List.range 4).map (mxdWord u dn), touch := touchMode t, bad := g.2.2
        was := match t.vx.run with | some r => r.was | none => [] }
      let u1 := if zero then setBankScale u b g.1 else u
      .ok (raiseFlags { t with mx := { u1 with busy := some run } } g.2.1)

/-- The descriptor that the instruction in progress has read (R69). -/
def mmaDesc (r : MmaRun) : MDesc := mdescOf (r.desc.getD 0 0) (r.desc.getD 1 0) (r.desc.getD 2 0) (r.desc.getD 3 0)

/-- The instruction in progress issues its last product (R66, R74): its M × N sums are formed, and are in flight. -/
def mmaFinish (seed fresh : Nat) (t : Tile) (r : MmaRun) : Tile :=
  let u := t.mx
  let d := mmaDesc r
  let out := (mmaCells d).foldl (fun (acc : Arr W32 × AFlags) (mn : Nat × Nat) =>
    let k := 128 * mn.1 + mn.2
    let c := if r.zero then none else some (arrGet (bankArr u r.bank) k 0).toNat
    let x := mmaResult seed r.touch (mixedByte u r fresh k) d r.bad mn.1 mn.2 c
    (arrSet acc.1 k (BitVec.ofNat 32 x.1) 0, acc.2 ||| x.2)) (bankArr u r.bank, 0)
  raiseFlags { t with mx := { setBankArr u r.bank out.1 with busy := none, flight := u.flight ++ [mmaTail r d] } } out.2

/-- One delivered A-clock edge passes for the products in flight (R67, R68). -/
def flightTick (m : MxUnit) : MxUnit :=
  { m with flight := (m.flight.map fun x => { x with left := x.left - 1, hold := x.hold - 1 }).filter fun x => x.left ≠ 0 }

/-- Products in flight are written at once: what a switch waits for (R86). -/
def flightDone (m : MxUnit) : MxUnit := { m with flight := [] }

/-- An instruction into bank b waits for the previous result of the bank (R68). -/
def flightHolds (m : MxUnit) (b : Nat) : Bool := m.flight.any fun x => x.bank = b && x.hold ≠ 0

/-- MX_STATUS (R84). -/
def mxStatus (m : MxUnit) : W32 :=
  let c : BankState → Nat := fun s => match s with
    | .idle => 0 | .fill => 1 | .drain => 2
  BitVec.ofNat 32 (fillBank m + 2 * c m.st0 + 8 * c m.st1 + 32 * b2n (m.busy.isSome || !m.flight.isEmpty))

/-- Opcode of an instruction (R145). -/
def opc (w : W64) : Nat := fld w 63 56

/-- An MMA or MMAZ in MXQ dispatched before `seq` that will write the bank now in FILL: one ahead of the first ACCSW
(R82). -/
def mmaPendingBefore (q : List QEntry) (seq : Nat) : Bool :=
  match q with
  | [] => false
  | e :: t =>
    if seq ≤ e.seq then false
    else if opc e.word = 0x12 then false
    else opc e.word = 0x10 || opc e.word = 0x11 || mmaPendingBefore t seq

/-- Whether an access dispatched as `seq` by a stream, the vector engine or a CSET to ACCn_SCALE may proceed on bank b
(R82): at once on an IDLE bank, else when the results in flight are readable and, on the FILL bank, no earlier MMA is to come. -/
def bankFree (t : Tile) (b seq : Nat) : Bool :=
  bankSt t.mx b = .idle ||
    (!(t.mx.busy.any fun r => r.bank = b) && !(t.mx.flight.any fun x => x.bank = b) &&
      !(bankSt t.mx b = .fill && mmaPendingBefore t.q.mxq seq))

end Sys2Proof.Machine
end

