-- ==== Sys2Proof/Machine/Transcend.lean ====
section
/-! DEFINITION. The six functions of the vector engine (04 R105, R106): rational enclosures of the exact result, the
correctly rounded result of packed and Touchstone mode, and in normal FP32 mode a free choice among the results within
the stated error. -/

namespace Sys2Proof.Machine

/-- The functions of R105. -/
inductive VFunc where
  | exp2 | log2 | rcp | rsq | tanh | erf
deriving DecidableEq, Repr

/-- Binary places of the fixed-point enclosures below. -/
def fixP : Nat := 224

def fixOne : Nat := 2 ^ fixP

/-- Integer square root: the bits of the root from `b` down. -/
def isqrtGo (n : Nat) : Nat → Nat → Nat
  | 0, r => r
  | b + 1, r =>
    let r2 := r + 2 ^ b
    isqrtGo n b (if r2 * r2 ≤ n then r2 else r)

def isqrt (n : Nat) : Nat := isqrtGo n (Nat.log2 n / 2 + 1) 0

/-- Lower sum of 2^P * z^(2n+1)/(2n+1) * sgn^n for z = 1/q: the series of atanh (sgn +) and atan (sgn -). -/
def atanSum (alt : Bool) (q : Nat) : Nat → Nat → Nat → Int → Int
  | 0, _, _, acc => acc
  | k + 1, n, t, acc =>
    let a : Int := (t / (2 * n + 1) : Nat)
    atanSum alt q k (n + 1) (t / (q * q)) (if alt && n % 2 == 1 then acc - a else acc + a)

/-- 2^P ln 2, within 512 below and above. -/
def ln2Fix : Nat := (2 * atanSum false 3 90 0 (fixOne / 3) 0).toNat

/-- 2^P pi, within 8192 below and above. -/
def piFix : Nat := (16 * atanSum true 5 60 0 (fixOne / 5) 0 - 4 * atanSum true 239 20 0 (fixOne / 239) 0).toNat

/-- Enclosure of 2^P exp(y/2^P) for an enclosure of y between 0 and 2^P. -/
def expGo (ylo yhi : Nat) : Nat → Nat → Nat → Nat → Nat → Nat → Nat × Nat
  | 0, _, _, thi, slo, shi => (slo, shi + 2 * thi + 2)
  | k + 1, n, tlo, thi, slo, shi =>
    let tlo2 := tlo * ylo / fixOne / n
    let thi2 := cdiv (cdiv (thi * yhi) fixOne) n
    expGo ylo yhi k (n + 1) tlo2 thi2 (slo + tlo2) (shi + thi2)

def expFix (ylo yhi : Nat) : Nat × Nat := expGo ylo yhi 70 1 fixOne fixOne fixOne fixOne

/-- Squaring of a fixed-point enclosure k times. -/
def sqrFix : Nat → Nat × Nat → Nat × Nat
  | 0, e => e
  | k + 1, e => sqrFix k (e.1 * e.1 / fixOne, cdiv (e.2 * e.2) fixOne)

/-- |x| in units of 2^-P, rounded down, and whether that is exact. -/
def toFix (x : Exact) : Nat × Bool :=
  let nn := x.num * 2 ^ fixP * 2 ^ x.exp.toNat
  let dd := x.den * 2 ^ (-x.exp).toNat
  (nn / dd, nn % dd == 0)

def mkPos (n d : Nat) (e : Int) : Exact := { neg := false, num := n, den := d, exp := e }

/-- Enclosure of 2^x, x not zero. -/
def encExp2 (x : Exact) : Exact × Exact :=
  if magLe (pow2 9) x then
    if x.neg then (pow2 (-600), pow2 (-599)) else (pow2 600, pow2 601)
  else
    let a := toFix x
    let lo := a.1
    let hi := if a.2 then a.1 else a.1 + 1
    let k : Int := if x.neg then -(cdiv hi fixOne : Nat) else (lo / fixOne : Nat)
    let flo := if x.neg then cdiv hi fixOne * fixOne - hi else lo - lo / fixOne * fixOne
    let fhi := if x.neg then cdiv hi fixOne * fixOne - lo else hi - lo / fixOne * fixOne
    if flo = 0 ∧ fhi = 0 then (pow2 k, pow2 k)
    else
      let e := expFix (flo * (ln2Fix - 512) / fixOne) (cdiv (fhi * (ln2Fix + 512)) fixOne)
      (mkPos e.1 1 (k - fixP), mkPos e.2 1 (k - fixP))

/-- Enclosure of the series sum of w^n/(2n+1) for w between 0 and 1/16, in units of 2^-P. -/
def atanhGo (wlo whi : Nat) : Nat → Nat → Nat → Nat → Nat → Nat → Nat × Nat
  | 0, _, _, thi, slo, shi => (slo, shi + 2 * thi + 2)
  | k + 1, n, tlo, thi, slo, shi =>
    let tlo2 := tlo * wlo / fixOne
    let thi2 := cdiv (thi * whi) fixOne
    atanhGo wlo whi k (n + 1) tlo2 thi2 (slo + tlo2 / (2 * n + 1)) (shi + cdiv thi2 (2 * n + 1))

/-- Enclosure of |log2 x| and its sign, x positive and not 1. -/
def encLog2 (x : Exact) : Bool × Exact × Exact :=
  let l := floorLog2 x.num x.den
  -- m = mn/md between 1 and 2, x = m * 2^(l+exp)
  let mn := x.num * 2 ^ (-l).toNat
  let md := x.den * 2 ^ l.toNat
  let big := decide (3 * md < 2 * mn)
  let md2 := if big then 2 * md else md
  let k : Int := l + x.exp + (if big then 1 else 0)
  let zneg := decide (mn < md2)
  let zn := if zneg then md2 - mn else mn - md2
  let zd := mn + md2
  if zn = 0 then (decide (k < 0), mkPos k.natAbs 1 0, mkPos k.natAbs 1 0)
  else
    let wlo := zn * zn * fixOne / (zd * zd)
    let s := atanhGo wlo (wlo + 1) 60 1 fixOne fixOne fixOne fixOne
    let tlo := mkPos (2 * zn * s.1) (zd * (ln2Fix + 512)) 0
    let thi := mkPos (2 * zn * s.2) (zd * (ln2Fix - 512)) 0
    if k = 0 then (zneg, tlo, thi)
    else
      let kk := mkPos k.natAbs 1 0
      if zneg = decide (k < 0) then (zneg, exactAdd false kk tlo, exactAdd false kk thi)
      else (decide (k < 0), exactAdd false kk { thi with neg := true }, exactAdd false kk { tlo with neg := true })

def oneMinus (k : Nat) : Exact := mkPos (2 ^ k - 1) 1 (-(k : Int))

/-- Enclosure of |tanh x|, x not zero. Above 32 the exact value lies between 1 - 2^-90 and 1: any value between those
rounds alike. -/
def encTanh (x : Exact) : Exact × Exact :=
  let a : Exact := { x with neg := false }
  if magLe (pow2 5) a then (oneMinus 80, oneMinus 81)
  else if magLe a (pow2 (-20)) then
    let c := exactMul (exactMul a a) a
    let lo := exactAdd false a { exactMul c (mkPos 1 3 0) with neg := true }
    (lo, exactAdd false lo (exactMul (exactMul c (exactMul a a)) (mkPos 2 15 0)))
  else
    let f := toFix (exactMul a (pow2 (-6)))
    let e := sqrFix 7 (expFix f.1 (f.1 + 1))
    (mkPos (e.1 - fixOne) (e.1 + fixOne) 0, mkPos (e.2 - fixOne) (e.2 + fixOne) 0)

/-- Enclosure of the series sum of (-1)^n w^n/(n!(2n+1)), in units of 2^-P. -/
def erfGo (wlo whi : Nat) : Nat → Nat → Nat → Nat → Int → Int → Int × Int
  | 0, _, _, uhi, slo, shi => (slo - (2 * uhi + 2 : Nat), shi + (2 * uhi + 2 : Nat))
  | k + 1, n, ulo, uhi, slo, shi =>
    let ulo2 := ulo * wlo / fixOne / n
    let uhi2 := cdiv (cdiv (uhi * whi) fixOne) n
    let tlo : Int := (ulo2 / (2 * n + 1) : Nat)
    let thi : Int := (cdiv uhi2 (2 * n + 1) : Nat)
    if n % 2 = 1 then erfGo wlo whi k (n + 1) ulo2 uhi2 (slo - thi) (shi - tlo)
    else erfGo wlo whi k (n + 1) ulo2 uhi2 (slo + tlo) (shi + thi)

/-- Enclosure of |erf x|, x not zero. Above 6 the exact value lies between 1 - 2^-55 and 1. -/
def encErf (x : Exact) : Exact × Exact :=
  let a : Exact := { x with neg := false }
  if magLe (pow2 1) (exactMul a (mkPos 1 3 0)) then (oneMinus 55, oneMinus 56)
  else
    let w := toFix (exactMul a a)
    let s := erfGo w.1 (if w.2 then w.1 else w.1 + 1) 260 1 fixOne fixOne fixOne fixOne
    let c := isqrt (4 * 2 ^ (3 * fixP) / piFix)
    (exactMul a (mkPos (s.1.toNat * (c - 8192)) 1 (-(2 * fixP : Nat))),
      exactMul a (mkPos (s.2.toNat * (c + 8192)) 1 (-(2 * fixP : Nat))))

/-- Enclosure of 1/sqrt x, x positive. -/
def encRsq (x : Exact) : Exact × Exact :=
  let odd := decide (x.exp % 2 ≠ 0)
  let top := x.den * (if odd then 2 else 1) * 2 ^ (2 * fixP)
  let h : Int := (-x.exp - (if odd then 1 else 0)) / 2 - fixP
  let s := isqrt (top / x.num)
  (mkPos s 1 h, if x.num * (s * s) = top then mkPos s 1 h else mkPos (s + 1) 1 h)

/-- The special values of R106. -/
def funcSpecial (op : VFunc) (x : Num) : Option (Num × AFlags) :=
  let zero : Bool → Num := fun n => .fin { neg := n, num := 0, den := 1, exp := 0 }
  let one : Bool → Num := fun n => .fin { neg := n, num := 1, den := 1, exp := 0 }
  match x with
  | .nan s => some (.nan false, flagIf s flagNV)
  | .inf n =>
    match op with
    | .exp2 => some (if n then zero false else .inf false, 0)
    | .log2 => some (if n then (.nan false, flagNV) else (.inf false, 0))
    | .rcp => some (zero n, 0)
    | .rsq => some (if n then (.nan false, flagNV) else (zero false, 0))
    | .tanh | .erf => some (one n, 0)
  | .fin v =>
    if v.num = 0 then
      match op with
      | .exp2 => some (one false, 0)
      | .log2 => some (.inf true, 0)
      | .rcp => some (.inf v.neg, 0)
      | .rsq => some (.inf v.neg, 0)
      | .tanh | .erf => some (zero v.neg, 0)
    else if v.neg ∧ (op = .log2 ∨ op = .rsq) then some (.nan false, flagNV)
    else
      let isOne := !v.neg && magLe v (pow2 0) && magLe (pow2 0) v
      if isOne then
        match op with
        | .exp2 => some (.fin (pow2 1), 0)
        | .log2 => some (zero false, 0)
        | .rcp | .rsq => some (one false, 0)
        | .tanh | .erf => none
      else none

/-- Sign and enclosure of the magnitude of the exact result, where R106 states no special value. -/
def funcEnclose (op : VFunc) (v : Exact) : Bool × Exact × Exact :=
  match op with
  | .exp2 => let e := encExp2 v; (false, e.1, e.2)
  | .log2 => encLog2 v
  | .rcp => let r := exactDiv (pow2 0) { v with neg := false }; (v.neg, r, r)
  | .rsq => let e := encRsq v; (false, e.1, e.2)
  | .tanh => let e := encTanh v; (v.neg, e.1, e.2)
  | .erf => let e := encErf v; (v.neg, e.1, e.2)

def funcCode (op : VFunc) : Nat :=
  match op with
  | .exp2 => 0x20 | .log2 => 0x21 | .rcp => 0x22 | .rsq => 0x23 | .tanh => 0x24 | .erf => 0x25

/-- The error bound in FP32 mode, in units in the last place (R105). -/
def funcUlp (op : VFunc) : Nat :=
  match op with
  | .exp2 | .rcp | .rsq => 1
  | .log2 | .tanh | .erf => 2

/-- |v - x| is at most b, all magnitudes. -/
def distLe (v x b : Exact) : Bool :=
  magLe (exactAdd false { v with neg := false } { x with neg := true }) b

/-- The FP32 magnitude codes within the stated error of the exact result (R105). -/
def funcCandidates (op : VFunc) (lo hi : Exact) : List Nat :=
  let c0 := (roundMag .fp32 .rz 0 lo).1
  let bound := exactMul (pow2 (max (floorLog2 lo.num lo.den + lo.exp) (-126) - 23)) (mkPos (funcUlp op) 1 0)
  ((List.range 10).map fun i => c0 + i - 4).eraseDups.filter fun c =>
    let v := magOf .fp32 false c
    distLe v lo bound && distLe v hi bound

/-- FP32 result in normal service: a free choice, fixed by the input, among the candidates (log 10); infinity with OF beyond the
largest finite value (R106). -/
def funcLoose (op : VFunc) (input : Nat) (neg : Bool) (lo hi : Exact) : Nat × AFlags :=
  let cs := if magLe lo (magOf .fp32 false (fMax .fp32)) then funcCandidates op lo hi else [fMax .fp32 + 1]
  let c := cs.getD (Config.functionPick (funcCode op) input % cs.length) (roundMag .fp32 .rne 0 lo).1
  let sgn := b2n neg * 2 ^ 31
  if c > fMax .fp32 then (sgn + fMax .fp32 + 1, flagOF)
  else
    let v := magOf .fp32 false c
    let exact := magLe v lo && magLe hi v && magLe lo v && magLe v hi
    (sgn + c, flagIf (!exact && decide (c < 2 ^ 23)) flagUF)

/-- Correctly rounded result; where the enclosure does not decide it, a free value. -/
def funcTight (op : VFunc) (f : Fmt) (m : RMode) (input : Nat) (neg : Bool) (lo hi : Exact) : Nat × AFlags :=
  let a := roundFinite f m 0 { lo with neg := neg }
  let b := roundFinite f m 0 { hi with neg := neg }
  if a = b then a
  else (Config.functionRest (funcCode op) (fmtBits f) input % 2 ^ fmtBits f, a.2)

/-- A function applied to a lane value (R105, R106; R63 for Touchstone mode). -/
def funcApply (op : VFunc) (f : Fmt) (touch : Bool) (m : RMode) (code : Nat) : Nat × AFlags :=
  let x := decodeElem f code
  match funcSpecial op x with
  | some (v, fl) => let r := roundNum f .rne 0 v; (r.1, r.2 ||| fl)
  | none =>
    match x with
    | .fin v =>
      let e := funcEnclose op v
      if touch then funcTight op f m code e.1 e.2.1 e.2.2
      else if f = .fp32 then funcLoose op code e.1 e.2.1 e.2.2
      else funcTight op f .rne code e.1 e.2.1 e.2.2
    | _ => (fNan f, 0)

end Sys2Proof.Machine
end

