-- ==== Sys2Proof/Machine/Vector.lean ====
section
/-! DEFINITION. Run descriptors, element programs, row state, scans and the checks at the start of a run
(04_vector_engine), as functions of one tile. -/

namespace Sys2Proof.Machine

def vxdWord (v : VxUnit) (d w : Nat) : W64 := arrGet v.vxd (8 * d + w) 0

/-- A port of a run descriptor (R95). -/
structure VxPort where
  kind : Nat
  bsel : Nat
  fmt : Nat
  addr : Nat
  pitch : Nat
  scp : Bool
deriving DecidableEq, Repr

def vxPortOf (w : W64) : VxPort :=
  { kind := fld w 1 0, bsel := fld w 3 2, fmt := fld w 7 4, addr := 64 * fld w 23 8, pitch := fld w 39 24,
    scp := bitAt w 40 }

/-- A run descriptor (R94). Ports 0 to 2 are I0 to I2, 3 and 4 are O0 and O1. -/
structure RDesc where
  slot : Nat
  pack : Bool
  rsinit : Bool
  rscommit : Bool
  sci : Bool
  sexcl : Bool
  sdim : Bool
  nrow : Nat
  ncol : Nat
  tid : Nat
  ibase : Nat
  istride : Nat
  ports : List VxPort
deriving DecidableEq, Repr

def rdesc (v : VxUnit) (d : Nat) : RDesc :=
  let w0 := vxdWord v d 0
  { slot := fld w0 3 0, pack := bitAt w0 4, rsinit := bitAt w0 5, rscommit := bitAt w0 6, sci := bitAt w0 7,
    sexcl := bitAt w0 8, sdim := bitAt w0 9, nrow := fld w0 21 10 + 1, ncol := fld w0 29 22 + 1, tid := fld w0 63 32,
    ibase := fld (vxdWord v d 1) 47 0, istride := fld (vxdWord v d 2) 27 0,
    ports := [3, 4, 5, 6, 7].map fun w => vxPortOf (vxdWord v d w) }

def vport (d : RDesc) (i : Nat) : VxPort := d.ports.getD i (vxPortOf 0)

/-- The END instruction an unwritten program position holds (R98). -/
def progEnd : W64 := 0xFC00000000000000

/-- An element-program instruction (R99). -/
structure VInstr where
  op : Nat
  vd : Nat
  va : Nat
  vb : Nat
  vc : Nat
  rm : Nat
  isel : Nat
  fmt : Nat
  rsv : Bool
  imm : Nat
deriving DecidableEq, Repr

def vinstr (w : W64) : VInstr :=
  { op := fld w 63 58, vd := fld w 57 54, va := fld w 53 50, vb := fld w 49 46, vc := fld w 45 42, rm := fld w 41 39,
    isel := fld w 38 37, fmt := fld w 36 33, rsv := bitAt w 32, imm := fld w 31 0 }

/-- The instructions of a slot before its first END (R98). -/
def progOf (v : VxUnit) (slot : Nat) : List VInstr :=
  ((List.range 64).map fun i => vinstr (arrGet v.prog (64 * slot + i) progEnd)).takeWhile fun i => i.op ≠ 0x3F

def isFunc (op : Nat) : Bool := decide (0x20 ≤ op ∧ op ≤ 0x25)
def isScanOp (op : Nat) : Bool := decide (0x38 ≤ op ∧ op ≤ 0x3A)
def isRowOp (op : Nat) : Bool := decide (0x30 ≤ op ∧ op ≤ 0x36)
def isIntOp (op : Nat) : Bool := decide (0x18 ≤ op ∧ op ≤ 0x1A)

/-- The opcodes of R100. -/
def vopKnown (op : Nat) : Bool :=
  decide (op ≤ 0x0E) || decide (0x10 ≤ op ∧ op ≤ 0x1A) || isFunc op || decide (0x28 ≤ op ∧ op ≤ 0x2A) ||
    isRowOp op || isScanOp op || op = 0x3F

/-- Whether an operation uses operand b, and c (R100). -/
def vopUsesB (op : Nat) : Bool :=
  [0x01, 0x02, 0x03, 0x04, 0x05, 0x06, 0x07, 0x08, 0x09, 0x10, 0x11, 0x12, 0x13, 0x14, 0x15, 0x16, 0x17, 0x18, 0x19,
    0x1A, 0x3A].contains op

def vopUsesC (op : Nat) : Bool := [0x05, 0x06, 0x09, 0x14].contains op

/-- The rules of R101 that bind one instruction. -/
def vinstrOk (i : VInstr) : Bool :=
  vopKnown i.op &&
  (i.isel = 0 || (i.isel = 1 && vopUsesB i.op) || (i.isel = 2 && vopUsesC i.op)) &&
  decide (i.rm ≤ 4) && (i.rm ≠ 4 || i.op = 0x0D || i.op = 0x2A) &&
  (if i.op = 0x0D then decide (i.fmt ≤ 5) else i.fmt = 0) &&
  ((i.op ≠ 0x28 && i.op ≠ 0x29) || decide (i.va ≤ 2)) && (i.op ≠ 0x2A || decide (i.vd ≤ 1)) &&
  !i.rsv && ((i.op ≠ 0x2A && i.op ≠ 0x0D) || decide (i.imm < 16))

/-- The instructions of a slot that R101 binds: up to and including its first END, or all 64. -/
def progBound (v : VxUnit) (slot : Nat) : List VInstr :=
  ((List.range 64).map fun i => vinstr (arrGet v.prog (64 * slot + i) progEnd)).take ((progOf v slot).length + 1)

/-- The rules of R101 for the instructions it binds. -/
def progOk (p : List VInstr) : Bool :=
  p.all vinstrOk &&
  decide ((p.filter fun i => i.op = 0x2A ∧ i.vd = 0).length ≤ 1) &&
  decide ((p.filter fun i => i.op = 0x2A ∧ i.vd = 1).length ≤ 1) &&
  decide ((p.filter fun i => isScanOp i.op).length ≤ 1)

/-- The ports a program's LD, LDSC and ST name (R96). -/
def namedPorts (p : List VInstr) : List Nat :=
  (p.filterMap fun i =>
    if i.op = 0x28 ∨ i.op = 0x29 then some i.va
    else if i.op = 0x2A then some (3 + i.vd)
    else none).eraseDups

/-- The output ports of KIND 3 (R96). -/
def recordPorts (d : RDesc) : List Nat := [3, 4].filter fun i => (vport d i).kind = 3

/-- Extent of a region in bytes from its header (R92). -/
def regionExtent (d : RDesc) (p : VxPort) : Nat := 64 + d.nrow * p.pitch + b2n p.scp * d.nrow * cdiv d.ncol 32

/-- The bank an accumulator port addresses (R95). -/
def portBank (m : MxUnit) (p : VxPort) : Option Nat :=
  match p.bsel with
  | 0 => some 0
  | 1 => some 1
  | 2 => drainBank m
  | _ => none

/-- Lane format of a run: FP32, or the format of I0 in packed mode (R87, R96). -/
def laneFmt (d : RDesc) : Fmt := if d.pack then fmtD (vport d 0).fmt else .fp32

def overlaps (a la b lb : Nat) : Bool := decide (a < b + lb ∧ b < a + la)

/-- The first condition of R96 that a run breaks, by its row in the table, counted from 1. DESIGN CHOICE (log 61): BSEL 3, which
R95 reserves and no row of R96 names, on a bank port that the program names breaks the second condition. -/
def runCheck (m : MxUnit) (d : RDesc) (p : List VInstr) (scan : Bool) : Option Nat :=
  let named := namedPorts p
  let kinds := fun i => (vport d i).kind
  let regs := named.filter fun i => kinds i = 1
  let banks := named.filter fun i => kinds i = 2
  let rec3 := recordPorts d
  let ins := regs.filter (· < 3)
  let outs := regs.filter (3 ≤ ·)
  let scans := p.filter fun i => isScanOp i.op
  let rows := p.filter fun i => isRowOp i.op
  let same := fun i j =>
    let a := vport d i
    let b := vport d j
    a.addr = b.addr && a.pitch = b.pitch && a.fmt = b.fmt && a.scp = b.scp
  let meet := fun i j => overlaps (vport d i).addr (regionExtent d (vport d i)) (vport d j).addr
    (regionExtent d (vport d j))
  if named.any fun i => kinds i ≠ 1 ∧ kinds i ≠ 2 then some 1
  else if banks.any fun i =>
      (vport d i).bsel = 3 || !((vport d i).fmt = 0 || (vport d i).fmt = 7) || decide (d.nrow > 128) || decide (d.ncol > 128)
    then some 2
  else if regs.any fun i =>
      let q := vport d i
      decide (q.fmt > 7) || decide (q.addr + regionExtent d q > 0x40000) || decide (q.pitch < rowBytes (fmtD q.fmt) d.ncol) ||
        (q.fmt = 5 && d.ncol % 2 = 1)
    then some 3
  else if (outs.any fun o => ins.any fun i => meet o i && !same o i) ||
      (outs.contains 3 && outs.contains 4 && meet 3 4) ||
      (banks.contains 3 && banks.contains 4 && (portBank m (vport d 3) = portBank m (vport d 4)))
    then some 4
  else if rec3.any fun i => (vport d i).addr + 16 * d.nrow > 0x200000 then some 5
  else if d.pack && (!((vport d 0).fmt = 1 || (vport d 0).fmt = 2) || regs.any (fun i => (vport d i).fmt ≠ (vport d 0).fmt) ||
      !banks.isEmpty || !rows.isEmpty || !scans.isEmpty ||
      p.any fun i => isIntOp i.op || i.op = 0x0E || i.op = 0x29)
    then some 6
  else if decide (d.nrow > 128) && (d.rsinit || d.rscommit || !rec3.isEmpty || !rows.isEmpty) then some 7
  else if !scan && !scans.isEmpty then some 8
  else if scan && (scans.length ≠ 1 || !rows.isEmpty || d.pack ||
      decide ((if d.sdim then d.nrow else d.ncol) > 256)) then some 9
  else none

/-- The row-state entries as the run's RSMX, RSAL, RSSM and RSS2 read them (R110): after RSINIT. -/
def rowInit (v : VxUnit) (d : RDesc) : VxUnit := if d.rsinit then { v with mx := [], sm := [], s2 := [], al := [] } else v

/-- What a run reads its inputs from: the tile as the run found it, with the banks fixed at the start. -/
structure RunEnv where
  u : MxUnit
  v : VxUnit
  d : RDesc
  touch : Bool
  minmax : Bool
  seed : Nat
deriving DecidableEq, Repr

/-- Header scale and zero point of a region (R93). -/
def regScale (u : MxUnit) (p : VxPort) : W32 := winScale u p.addr
def regZero (u : MxUnit) (p : VxPort) : Int := sext 8 (opcByte u (p.addr + 4)).toNat

/-- LD (R93, R100): a register value of the lane format. -/
def loadPort (e : RunEnv) (i : Nat) (rm : RMode) (m n : Nat) : Nat × AFlags :=
  let p := vport e.d i
  let f := fmtD p.fmt
  if p.kind = 2 then ((arrGet (bankArr e.u ((portBank e.u p).getD 0)) (128 * m + n) 0).toNat, 0)
  else
    let code := opcElem e.u f (p.addr + 64 + m * p.pitch) n
    if e.d.pack ∨ f = .fp32 ∨ f = .int32 then (code, 0)
    else
      let fine := if p.scp && fmtShort f then
        (opcByte e.u (p.addr + 64 + e.d.nrow * p.pitch + m * cdiv e.d.ncol 32 + n / 32)).toNat else 127
      let x := elemValue f (regScale e.u p) (regZero e.u p) fine code
      let r := roundNum .fp32 rm 0 x.1
      (r.1, x.2 ||| r.2)

/-- LDSC (R100). -/
def loadScale (e : RunEnv) (i : Nat) : Nat :=
  let p := vport e.d i
  if p.kind = 2 then (bankScale e.u ((portBank e.u p).getD 0)).toNat
  else if fmtScaled (fmtD p.fmt) then (regScale e.u p).toNat
  else 0x3F800000

/-- All ones of the lane's width, or zero. -/
def laneMask (f : Fmt) (b : Bool) : Nat := if b then 2 ^ fmtBits f - 1 else 0

/-- The stochastic word of RND or ST (R104): port 0 for O0 and RND, 1 for O1. -/
def runWord (e : RunEnv) (port m n stage : Nat) : Nat :=
  srWord e.seed ((e.d.tid + port) % 2 ^ 32) ((e.d.ibase + m * e.d.istride + n) % 2 ^ 48) stage

def funcOf (op : Nat) : VFunc :=
  match op with
  | 0x20 => .exp2 | 0x21 => .log2 | 0x22 => .rcp | 0x23 => .rsq | 0x24 => .tanh | _ => .erf

/-- A floating result rounded to the lane format. -/
def laneRound (f : Fmt) (rm : RMode) (x : Num × AFlags) : Nat × AFlags :=
  let r := roundNum f rm 0 x.1
  (r.1, x.2 ||| r.2)

/-- RND (R102): to FMT, then held in the lane format. -/
def laneRnd (f g : Fmt) (rm : RMode) (word : Nat) (a : Num) : Nat × AFlags :=
  let r := roundNum g rm word a
  let h := roundNum f .rne 0 (decodeElem g r.1)
  (h.1, flagIf (numSig a) flagNV ||| r.2 ||| h.2)

/-- RINT (R100): an integral value of the same sign; no flag but a signalling NaN's. -/
def laneRint (f : Fmt) (rm : RMode) (a : Num) : Nat × AFlags :=
  match a with
  | .fin x =>
    let q := roundInt rm 0 x
    (roundNum f .rne 0 (.fin { neg := x.neg, num := q.1.natAbs, den := 1, exp := 0 })).1 |> fun c => (c, 0)
  | v => (roundNum f .rne 0 v).1 |> fun c => (c, flagIf (numSig v) flagNV)

/-- ABS and NEG change only the sign bit; a NaN gives the canonical NaN (R102). -/
def laneSign (f : Fmt) (a : Nat) (s : Bool → Bool) : Nat × AFlags :=
  let x := decodeElem f a
  if numIsNan x then (fNan f, flagIf (numSig x) flagNV)
  else
    let h := 2 ^ (fmtBits f - 1)
    (b2n (s (nbit a (fmtBits f - 1))) * h + a % h, 0)

/-- A 32-bit integer result (R102): OF outside the INT32 range. -/
def intResult (x : Int) : Nat × AFlags := (imod 32 x, flagIf (decide (x < -(2 ^ 31) ∨ x ≥ 2 ^ 31)) flagOF)

/-- The result of an instruction that writes vd from registers alone (R100, R102). -/
def laneOp (f : Fmt) (touch minmax : Bool) (i : VInstr) (word : Nat) (a b c : Nat) : Nat × AFlags :=
  let rm := rmodeD i.rm
  let x := decodeElem f a
  let y := decodeElem f b
  let z := decodeElem f c
  let rd := decide (rm = .rd)
  let sg := flagIf (numSig x || numSig y) flagNV
  let nan := numIsNan x || numIsNan y
  match i.op with
  | 0x01 => (b, 0)
  | 0x02 => laneRound f rm (numAdd rd x y)
  | 0x03 => laneRound f rm (numAdd rd x (numNegate y))
  | 0x04 => laneRound f rm (numMul x y)
  | 0x05 =>
    if numIsNan z then (fNan f, flagIf (numSig x || numSig y || numSig z) flagNV)
    else let p := numMul x y; let s := numAdd rd p.1 z; laneRound f rm (s.1, p.2 ||| s.2)
  | 0x06 =>
    if numIsNan z then (fNan f, flagIf (numSig x || numSig y || numSig z) flagNV)
    else let p := numMul x y; let s := numAdd rd z (numNegate p.1); laneRound f rm (s.1, p.2 ||| s.2)
  | 0x07 => laneRound f .rne (numMinMax false minmax x y)
  | 0x08 => laneRound f .rne (numMinMax true minmax x y)
  | 0x09 => let t := numMinMax true minmax x y; let s := numMinMax false minmax t.1 z; laneRound f .rne (s.1, t.2 ||| s.2)
  | 0x0A => laneSign f a fun _ => false
  | 0x0B => laneSign f a fun s => !s
  | 0x0C => laneRint f rm x
  | 0x0D => laneRnd f (fmtD i.fmt) rm word x
  | 0x0E => laneRound f rm (decodeElem .int32 a, 0)
  | 0x10 => (laneMask f (!nan && numLt x y), sg)
  | 0x11 => (laneMask f (!nan && !numLt y x), sg)
  | 0x12 => (laneMask f (!nan && !numLt x y && !numLt y x), sg)
  | 0x13 => (laneMask f (nan || numLt x y || numLt y x), sg)
  | 0x14 => (Nat.lor (Nat.land a b) (Nat.land (2 ^ fmtBits f - 1 - a) c), 0)
  | 0x15 => (Nat.land a b, 0)
  | 0x16 => (Nat.lor a b, 0)
  | 0x17 => (Nat.xor a b, 0)
  | 0x18 => intResult (sext 32 a + sext 32 b)
  | 0x19 => intResult (sext 32 a - sext 32 b)
  | 0x1A => intResult (sext 32 a * sext 32 b)
  | op => funcApply (funcOf op) f touch rm a

/-- One lane of a group: its row, column and registers. -/
structure Lane where
  m : Nat
  n : Nat
  r : List Nat
deriving DecidableEq, Repr

/-- A stored element: output port, position, lane value, mode and word. -/
structure Stored where
  port : Nat
  m : Nat
  n : Nat
  v : Nat
  rm : RMode
  word : Nat
deriving DecidableEq, Repr

/-- What a run accumulates. -/
structure RunAcc where
  mxn : Arr W32
  sm : Arr W32
  s2 : Arr W32
  carry : List W32
  out : List Stored
  fl : AFlags
deriving DecidableEq, Repr

/-- Sum of a group by a balanced tree of RNE additions (R110). -/
def pairUp : List Nat → List Nat × AFlags
  | a :: b :: t =>
    let s := numAdd false (decodeElem .fp32 a) (decodeElem .fp32 b)
    let r := roundNum .fp32 .rne 0 s.1
    let u := pairUp t
    (r.1 :: u.1, s.2 ||| r.2 ||| u.2)
  | l => (l, 0)

/-- Six levels reduce 64 lanes and fewer to one value. -/
def treeSum (l : List Nat) : Nat × AFlags :=
  let r := [0, 1, 2, 3, 4, 5].foldl (fun (a : List Nat × AFlags) _ => let u := pairUp a.1; (u.1, a.2 ||| u.2)) (l, 0)
  (r.1.getD 0 0, r.2)

/-- One RNE addition of FP32 codes. -/
def addRne (a b : Nat) : Nat × AFlags :=
  let s := numAdd false (decodeElem .fp32 a) (decodeElem .fp32 b)
  let r := roundNum .fp32 .rne 0 s.1
  (r.1, s.2 ||| r.2)

/-- -infinity and 1.0 in FP32. -/
def negInf32 : W32 := 0xFF800000
def one32 : W32 := 0x3F800000

/-- A scan step (R114): identity of the instruction, and the new carry. -/
def scanIdentity (op : Nat) : Nat := if op = 0x39 then 0x3F800000 else 0

def scanStep (i : VInstr) (h a b : Nat) : Nat × AFlags :=
  let rm := rmodeD i.rm
  let rd := decide (rm = .rd)
  let x := decodeElem .fp32 a
  let k := decodeElem .fp32 h
  match i.op with
  | 0x38 => laneRound .fp32 rm (numAdd rd k x)
  | 0x39 => laneRound .fp32 rm (numMul k x)
  | _ =>
    let y := decodeElem .fp32 b
    if numIsNan y then (fNan .fp32, flagIf (numSig x || numSig y || numSig k) flagNV)
    else let p := numMul x k; let s := numAdd rd p.1 y; laneRound .fp32 rm (s.1, p.2 ||| s.2)

/-- One instruction applied to one lane; a scan instruction uses the lane's chain. DESIGN CHOICE (log 61): in packed mode the
immediate is IMM[15:0] also where IMM[31:16], which R99 wants zero, is not. -/
def laneInstr (e : RunEnv) (i : VInstr) (carry : List W32) (l : Lane) : Lane × AFlags × Option Nat × Option Stored :=
  let f := laneFmt e.d
  let reg := fun k => l.r.getD k 0
  let a := reg i.va
  let imm := if e.d.pack then i.imm % 2 ^ 16 else i.imm
  let b := if i.isel = 1 then imm else reg i.vb
  let c := if i.isel = 2 then imm else reg i.vc
  let wr := fun (x : Nat × AFlags) => ({ l with r := l.r.set i.vd x.1 }, x.2, (none : Option Nat), (none : Option Stored))
  match i.op with
  | 0x00 => (l, 0, none, none)
  | 0x28 => wr (loadPort e i.va (rmodeD i.rm) l.m l.n)
  | 0x29 => wr (loadScale e i.va, 0)
  | 0x2A => (l, 0, none, some {
      port := 3 + i.vd, m := l.m, n := l.n, v := a, rm := rmodeD i.rm,
      word := runWord e i.vd l.m l.n (i.imm % 16) })
  | 0x30 | 0x31 | 0x32 => (l, 0, none, none)
  | 0x33 => wr ((arrGet e.v.mx l.m negInf32).toNat, 0)
  | 0x34 => wr ((arrGet e.v.al l.m one32).toNat, 0)
  | 0x35 => wr ((arrGet e.v.sm l.m 0).toNat, 0)
  | 0x36 => wr ((arrGet e.v.s2 l.m 0).toNat, 0)
  | 0x38 | 0x39 | 0x3A =>
    let h := (carry.getD (if e.d.sdim then l.m else l.n) 0).toNat
    let r := scanStep i h a b
    ({ l with r := l.r.set i.vd (if e.d.sexcl then h else r.1) }, r.2, some r.1, none)
  | _ => wr (laneOp f e.touch e.minmax i (runWord e 0 l.m l.n (i.imm % 16)) a b c)

/-- One instruction applied to one group (R89, R110, R113). -/
def groupInstr (e : RunEnv) (s : List Lane × RunAcc) (i : VInstr) : List Lane × RunAcc :=
  let acc := s.2
  let outs := s.1.map (laneInstr e i acc.carry)
  let lanes := outs.map (·.1)
  let fl := outs.foldl (fun a o => a ||| o.2.1) acc.fl
  let stores := outs.filterMap (·.2.2.2)
  let carry := (s.1.zip outs).foldl (fun (cs : List W32) lo =>
    match lo.2.2.2.1 with
    | some h => cs.set (if e.d.sdim then lo.1.m else lo.1.n) (BitVec.ofNat 32 h)
    | none => cs) acc.carry
  let acc1 := { acc with fl := fl, out := acc.out ++ stores, carry := carry }
  let m := (s.1.head?.map (·.m)).getD 0
  let vals := s.1.map fun l => l.r.getD i.va 0
  match i.op with
  | 0x30 =>
    let r := vals.foldl (fun (x : Nat × AFlags) a =>
      let t := numMinMax true e.minmax (decodeElem .fp32 x.1) (decodeElem .fp32 a)
      ((roundNum .fp32 .rne 0 t.1).1, x.2 ||| t.2)) ((arrGet acc.mxn m negInf32).toNat, 0)
    (lanes, { acc1 with mxn := arrSet acc.mxn m (BitVec.ofNat 32 r.1) negInf32, fl := acc1.fl ||| r.2 })
  | 0x31 =>
    let t := treeSum vals
    let r := addRne (arrGet acc.sm m 0).toNat t.1
    (lanes, { acc1 with sm := arrSet acc.sm m (BitVec.ofNat 32 r.1) 0, fl := acc1.fl ||| t.2 ||| r.2 })
  | 0x32 =>
    let t := treeSum vals
    let r := addRne (arrGet acc.s2 m 0).toNat t.1
    (lanes, { acc1 with s2 := arrSet acc.s2 m (BitVec.ofNat 32 r.1) 0, fl := acc1.fl ||| t.2 ||| r.2 })
  | _ => (lanes, acc1)

/-- The groups of a run in order (R88, R113). -/
def runGroups (d : RDesc) (scan : Bool) : List (List (Nat × Nat)) :=
  if scan && d.sdim then
    (List.range d.ncol).flatMap fun n =>
      (List.range (cdiv d.nrow 32)).map fun g =>
        ((List.range 32).filter fun j => 32 * g + j < d.nrow).map fun j => (32 * g + j, n)
  else
    let w := if d.pack then 64 else 32
    (List.range d.nrow).flatMap fun m =>
      (List.range (cdiv d.ncol w)).map fun g =>
        ((List.range w).filter fun j => w * g + j < d.ncol).map fun j => (m, w * g + j)

/-- One group of a run (R90: registers start at zero). -/
def runGroup (e : RunEnv) (p : List VInstr) (acc : RunAcc) (g : List (Nat × Nat)) : RunAcc :=
  (p.foldl (groupInstr e) (g.map fun mn => { m := mn.1, n := mn.2, r := List.replicate 16 0 }, acc)).2

/-- Write an element code into a row of elements of the operand cache (R34 for F4W). -/
def opcPutElem (a : Arr Byte) (f : Fmt) (addr i code : Nat) : Arr Byte :=
  match f with
  | .f4w =>
    let old := arrGet a (addr + i / 2) 0
    arrSet a (addr + i / 2) (setFld old (4 * (i % 2) + 3) (4 * (i % 2)) code) 0
  | _ => (List.range (fmtBits f / 8)).foldl (fun m j =>
      arrSet m (addr + i * (fmtBits f / 8) + j) (BitVec.ofNat 8 (code / 256 ^ j)) 0) a

/-- The scaled source of a stored element at an output port (R93). -/
def storeSource (e : RunEnv) (p : VxPort) (v : Nat) : Num × AFlags :=
  scaledSource true (regScale e.u p) (decodeElem .fp32 v)

/-- One stored element of a port without a scale plane, or of a bank (R103). DESIGN CHOICE (log 61): an INT32 region takes the
lane's bits unchanged; R53 has no conversion to INT32 and R103 names FP32 regions and banks only. -/
def storeOne (e : RunEnv) (p : VxPort) (u : MxUnit × AFlags) (s : Stored) : MxUnit × AFlags :=
  let f := fmtD p.fmt
  if p.kind = 2 then
    let b := (portBank e.u p).getD 0
    (setBankArr u.1 b (arrSet (bankArr u.1 b) (128 * s.m + s.n) (BitVec.ofNat 32 s.v) 0), u.2)
  else
    let row := p.addr + 64 + s.m * p.pitch
    let r : Nat × AFlags :=
      if e.d.pack ∨ f = .fp32 ∨ f = .int32 then (s.v, 0)
      else if fmtIeee f then
        let x := decodeElem .fp32 s.v
        let t := roundNum f s.rm s.word x
        (t.1, flagIf (numSig x) flagNV ||| t.2)
      else
        let y := storeSource e p s.v
        let t := storeElem f s.rm s.word (regZero e.u p) y.1
        (t.1, y.2 ||| t.2)
    ({ u.1 with opc := opcPutElem u.1.opc f row s.n r.1 }, u.2 ||| r.2)

/-- One ingot of a port with a scale plane: row m, ingot g (R48, R93, R103). -/
def storeIngotAt (e : RunEnv) (p : VxPort) (all : List Stored) (u : MxUnit × AFlags) (mg : Nat × Nat) : MxUnit × AFlags :=
  let f := fmtD p.fmt
  let els := all.filter fun s => s.m = mg.1 && s.n / 32 = mg.2
  let rm := (els.head?.map (·.rm)).getD .rne
  let src := els.map fun s => (storeSource e p s.v, s.word)
  let st := storeIngot f rm (src.map fun x => (x.1.1, x.2))
  let fl := src.foldl (fun a x => a ||| x.1.2) st.2.2
  let row := p.addr + 64 + mg.1 * p.pitch
  let opc1 := (els.zip st.2.1).foldl (fun m sc => opcPutElem m f row sc.1.n sc.2) u.1.opc
  let plane := p.addr + 64 + e.d.nrow * p.pitch + mg.1 * cdiv e.d.ncol 32 + mg.2
  ({ u.1 with opc := arrSet opc1 plane (BitVec.ofNat 8 st.1) 0 }, u.2 ||| fl)

/-- Every element stored on one output port (R103). -/
def storePort (e : RunEnv) (out : List Stored) (u : MxUnit × AFlags) (port : Nat) : MxUnit × AFlags :=
  let p := vport e.d port
  let els := out.filter (·.port = port)
  if p.kind = 1 && p.scp && fmtShort (fmtD p.fmt) && !e.d.pack then
    if els.isEmpty then u
    else ((List.range e.d.nrow).flatMap fun m => (List.range (cdiv e.d.ncol 32)).map fun g => (m, g)).foldl
      (storeIngotAt e p els) u
  else els.foldl (storeOne e p) u

/-- The carries a scan's chains start from (R114, R115). -/
def startCarries (v : VxUnit) (d : RDesc) (p : List VInstr) : List W32 :=
  let op := ((p.find? fun i => isScanOp i.op).map (·.op)).getD 0x38
  (List.range (if d.sdim then d.nrow else d.ncol)).map fun j =>
    if d.sci then arrGet v.carry j 0 else BitVec.ofNat 32 (scanIdentity op)

/-- Banks that the named ports address (R82). -/
def runBanks (m : MxUnit) (d : RDesc) (p : List VInstr) : List Nat :=
  ((namedPorts p).filterMap fun i => if (vport d i).kind = 2 then portBank m (vport d i) else none).eraseDups

/-- Start of a run (R97): its reads and writes are made, what falls at the completion is kept in the run. -/
def runStart (seed : Nat) (scan : Bool) (t : Tile) (q : QEntry) : Tile :=
  let dn := fld q.word 2 0
  let d := rdesc t.vx dn
  let p := progOf t.vx d.slot
  let v := rowInit t.vx d
  let e : RunEnv := { u := t.mx, v := v, d := d, touch := touchMode t, minmax := minmaxMode t, seed := seed }
  let acc0 : RunAcc := { mxn := [], sm := v.sm, s2 := v.s2, carry := if scan then startCarries v d p else [], out := [], fl := 0 }
  let acc := (runGroups d scan).foldl (runGroup e p) acc0
  let st := [3, 4].foldl (storePort e acc.out) (t.mx, acc.fl)
  let run : VxRun := {
    seq := q.seq, scan := scan, desc := dn, nrow := d.nrow, rel := bitAt q.word 3, commit := d.rscommit,
    committed := false, mxn := acc.mxn, carries := acc.carry, recPorts := (recordPorts d).map fun i => (vport d i).addr,
    recDone := 0, banks := runBanks t.mx d p,
    was := (opcDiff (t.mx.opc.length + st.1.opc.length) t.mx.opc st.1.opc).map fun e => (e.1, [e.2]) }
  raiseFlags { t with
    mx := { withOpc t.mx st.1.opc with acc0 := st.1.acc0, acc1 := st.1.acc1 }
    vx := { v with sm := acc.sm, s2 := acc.s2, run := some run, lastDesc := dn, lastSlot := d.slot, lastScan := scan } } st.2

/-- The row commit of one row (R111). DESIGN CHOICE (log 61): mx - new, and EXP2 in Touchstone mode, round by RNE; R111 names no
mode for them. -/
def commitRow (touch minmax : Bool) (mxn : Arr W32) (va : VxUnit × AFlags) (m : Nat) : VxUnit × AFlags :=
  let v := va.1
  let mx := (arrGet v.mx m negInf32).toNat
  let nm := numMinMax true minmax (decodeElem .fp32 mx) (decodeElem .fp32 (arrGet mxn m negInf32).toNat)
  let new := (roundNum .fp32 .rne 0 nm.1).1
  let al : Nat × AFlags :=
    if numIsNan nm.1 then (fNan .fp32, 0)
    else if new = mx then (one32.toNat, 0)
    else
      let s := numAdd false (decodeElem .fp32 mx) (numNegate (decodeElem .fp32 new))
      let x := roundNum .fp32 .rne 0 s.1
      let r := funcApply .exp2 .fp32 touch .rne x.1
      (r.1, s.2 ||| x.2 ||| r.2)
  let pr := numMul (decodeElem .fp32 (arrGet v.sm m 0).toNat) (decodeElem .fp32 al.1)
  let sm := roundNum .fp32 .rne 0 pr.1
  ({ v with mx := arrSet v.mx m (BitVec.ofNat 32 new) negInf32, al := arrSet v.al m (BitVec.ofNat 32 al.1) one32,
            sm := arrSet v.sm m (BitVec.ofNat 32 sm.1) 0 }, va.2 ||| nm.2 ||| al.2 ||| pr.2 ||| sm.2)

/-- The row commit of a run (R111). -/
def rowCommit (t : Tile) (r : VxRun) : Tile :=
  if r.commit && !r.committed then
    let c := (List.range r.nrow).foldl (commitRow (touchMode t) (minmaxMode t) r.mxn) (t.vx, 0)
    raiseFlags { t with vx := { c.1 with run := some { r with committed := true } } } c.2
  else t

/-- The 16-byte row-state record of row m (R112). -/
def rowRecord (v : VxUnit) (m : Nat) : List Byte :=
  leBytes 4 (arrGet v.mx m negInf32).toNat ++ leBytes 4 (arrGet v.sm m 0).toNat ++ leBytes 4 (arrGet v.s2 m 0).toNat ++
    leBytes 4 (arrGet v.al m one32).toNat

/-- A run has written its last record: carries, release flag and status (R97, R81, R115). -/
def runFinish (t : Tile) (r : VxRun) : Tile :=
  let carry := if r.scan then
      (List.range r.carries.length).foldl (fun a j => arrSet a j (r.carries.getD j 0) 0) t.vx.carry
    else t.vx.carry
  { t with mx := if r.rel then releaseBank t.mx else t.mx, vx := { t.vx with run := none, carry := carry } }

/-- VX_STATUS (R117). -/
def vxStatus (v : VxUnit) : W32 :=
  BitVec.ofNat 32 (b2n v.lastScan + 2 * v.lastSlot + 32 * v.lastDesc + 256 * b2n v.run.isSome)

end Sys2Proof.Machine
end

