-- ==== Sys2Proof/Machine/Boundary.lean ====
section
/-! DEFINITION. The unit queues' heads, the ends of an MMA and of a run, and the instruction boundary at which a switch or a stop
finds a tile (03 R86, 04 R118, 06 R135, R144, R166, 12 R309). -/

namespace Sys2Proof.Machine

/-- Queue of a code (R135). -/
def qGet (q : Queues) (k : Nat) : List QEntry :=
  match k with
  | 0 => q.mxq | 1 => q.vxq | 2 => q.sxq | 3 => q.nxq | _ => q.yxq

def qSet (q : Queues) (k : Nat) (l : List QEntry) : Queues :=
  match k with
  | 0 => { q with mxq := l } | 1 => { q with vxq := l } | 2 => { q with sxq := l } | 3 => { q with nxq := l }
  | _ => { q with yxq := l }

/-- Head of queue k. -/
def headOf (t : Tile) (k : Nat) : Option QEntry := (qGet t.q k).head?

/-- Add 1 to the counter at offset 0x0800 + 8i (R164). -/
def bumpStall (q : Sequencer) (i : Nat) : Sequencer := { q with stall := arrSet q.stall i (arrGet q.stall i 0 + 1) 0 }

/-- The head of queue k leaves it; the A-cycle counts as DONE (R163), and the no-progress timer restarts (10 R272). -/
def popHead (t : Tile) (k : Nat) : Tile :=
  { t with
    q := qSet t.q k ((qGet t.q k).drop 1), sq := bumpStall t.sq (16 * k + 15), net := { t.net with npCount := 0 } }

/-- The MMA or MMAZ in progress issues its last product and leaves its head (R144); the state's next fresh value is used. -/
def finishMma (s : State) (t : Nat) (tl : Tile) (r : MmaRun) : State :=
  bumpFresh (setTile s t (popHead (mmaFinish (jobSeed s) s.fresh tl r) 0))

/-- The records of a run: address of each, by output port and row (R112). -/
def runRecords (r : VxRun) : List (Nat × Nat) :=
  r.recPorts.flatMap fun a => (List.range r.nrow).map fun m => (a + 16 * m, m)

/-- Write records until one meets a full tagged slot (R112, R186): the records left. -/
def writeRecords (v : VxUnit) (t : Nat) : State → List (Nat × Nat) → State × Nat
  | s, [] => (s, 0)
  | s, r :: rest =>
    if slotFullAt s t (r.1 / 512) then (s, rest.length + 1)
    else writeRecords v t (wgbWrite s t r.1 (rowRecord v r.2) true) rest

/-- The run in progress of tile t ends (R97, R111, R112, R115, R81): its commit, then its records while no full tagged slot holds
them, then what falls at its completion. -/
def finishRun (s : State) (t : Nat) (tl : Tile) (r0 : VxRun) : State :=
  let t1 := rowCommit tl r0
  let r := { r0 with committed := true }
  let recs := runRecords r
  let w := writeRecords t1.vx t (setTile s t t1) (recs.drop r.recDone)
  if w.2 ≠ 0 then
    modTile w.1 t fun x => { x with vx := { x.vx with run := some { r with recDone := recs.length - w.2 } } }
  else
    let s2 := fillSlots (flushRunLines w.1 t) t (recs.map fun a => a.1 / 512)
    modTile s2 t fun x => popHead (runFinish x r) 1

/-- The tile at an instruction boundary of MXQ and of VXQ (03 R86, 04 R118, 06 R166): an MMA in progress has issued its products,
those in flight are written, and a run in progress has completed. -/
def toBoundary (s : State) (t : Nat) : State :=
  let s1 := match (tileAt s t).mx.busy with
    | some r => finishMma s t (tileAt s t) r
    | none => s
  let s2 := if (tileAt s1 t).mx.flight.isEmpty then s1 else modTile s1 t fun tl => { tl with mx := flightDone tl.mx }
  match (tileAt s2 t).vx.run with
  | some r => finishRun s2 t (tileAt s2 t) r
  | none => s2

end Sys2Proof.Machine
end

