-- ==== Sys2Proof/Machine/Lifecycle.lean ====
section
/-! DEFINITION. What many commands share about jobs: leave, stopping tiles, the end of sections, the JOB reset, a job's failure,
and passing the device on (12 R309, R310, 14 R335, 15, 16 R379 to R385, 19 R447). -/

namespace Sys2Proof.Machine

/-! ### Leave (16) -/

/-- The standing allowance A_s in W (R379). -/
def standing : Nat := 200

/-- The effective ceiling (R380). -/
def ceilEff (p : Power) : Nat :=
  let a := if p.inlet then min p.ceil 3000 else p.ceil
  match p.share with
  | some v => min a v
  | none => a

def drawSum (d : List Nat) : Nat := d.foldl (· + ·) 0

/-- G: the draw granted; and the part of one class (R379, R391). -/
def grantedAll (p : Power) : Nat := (p.grants.map fun g => drawSum g.draw).foldl (· + ·) 0
def grantedOf (p : Power) (lc : Bool) : Nat := ((p.grants.filter (·.lc = lc)).map fun g => drawSum g.draw).foldl (· + ·) 0
/-- G_n: the draw granted on Level n. -/
def grantedOn (p : Power) (n : Nat) : Nat := (p.grants.map fun g => g.draw.getD n 0).foldl (· + ·) 0

/-- The admission test (R379). -/
def admissible (p : Power) (draw : List Nat) : Bool :=
  decide (standing + grantedAll p + drawSum draw ≤ ceilEff p) &&
    (List.range 4).all fun n => decide (grantedOn p n + draw.getD n 0 ≤ 800)

/-- A request that can never be admissible (R380). -/
def neverAdmissible (p : Power) (draw : List Nat) : Bool :=
  decide (standing + drawSum draw > ceilEff p) || (List.range 4).any fun n => decide (draw.getD n 0 > 800)

/-- floor((num / 16) × 16 / G_BE), from 1 to 16 (R391): `num` is sixteen times the draw left for BE grants. -/
def stretchTo (p : Power) (num : Nat) : Nat := if grantedOf p false = 0 then 16 else min 16 (max 1 (num / grantedOf p false))

/-- e of the BE grants under a brownout hold (R391). -/
def holdE (p : Power) : Nat := stretchTo p (8 * ceilEff p - 16 * (standing + grantedOf p true))

/-- The device ceiling alone: a share never stretches a grant (R387). -/
def ceilOwn (p : Power) : Nat := if p.inlet then min p.ceil 3000 else p.ceil

/-- e of the BE grants under a ceiling set below A_s + G (R386). -/
def ceilE (p : Power) : Nat :=
  if standing + grantedAll p ≤ ceilOwn p then 16 else stretchTo p (16 * ceilOwn p - 16 * (standing + grantedOf p true))

/-- The heat throttle's condition stands: some die has not come below 103 °C (R393). -/
def hotNow (p : Power) : Bool := p.heat && p.temps.any fun d => decide (103 ≤ d.2)

/-- The lowest e that the sources in force allow (R394). -/
def forceE (p : Power) : Nat :=
  min (min (if p.brown then holdE p else 16) (ceilE p)) (min (if p.throt then 1 else 16) (if hotNow p then p.eHeat.foldl min 16 else 16))

/-- The lowest e of the sources that restore window by window: a hold that has ended, a raised ceiling, an ended THROTTLE (R392). -/
def restE (p : Power) : Nat := min (min (if p.brown then 16 else p.eBrown) p.eCeil) (if p.throt then 16 else p.eThrot)

/-- Restoration still has steps to book before any waiting request, a due step after a thermal throttle among them (R392). -/
def restoring (p : Power) : Bool := decide (restE p < forceE p) || !p.heatDue.isEmpty

/-- No leave is granted under a hold, a THROTTLE or an exceeded ceiling (R390, R394); nothing is booked before restoration, or in
the windows that a swap of BK closes (20 R475). -/
def grantsStopped (p : Power) : Bool :=
  p.brown || p.throt || decide (standing + grantedAll p > ceilEff p) || restoring p || decide (p.quiet ≠ 0)

/-- What a grant lets go on (R376, R378). -/
def onGrant (s : State) (w : LeaveFor) : State :=
  match w with
  | .launch k => { s with launches := s.launches.map fun l => if l.ticket = k ∧ l.stage = .leave then { l with stage := .ready } else l }
  | .command _ => s

/-- The Banksman serves the heads of its queues with what headroom the window has left (R381 to R383): an LC request before
any BE one, a head that is not admissible blocking all behind it. -/
def serveLeave : Nat → State → State
  | 0, s => s
  | k + 1, s =>
    let p := s.power
    match (match p.reqs.find? (·.lc) with | some r => some r | none => p.reqs.head?) with
    | none => s
    | some r =>
      if grantsStopped p || !admissible p r.draw then s
      else
        let d := drawSum r.draw
        let b := min (feature s 3 - p.booked) (d - r.booked)
        if r.booked + b = d then
          serveLeave k (onGrant { s with power := { p with
            booked := p.booked + b
            reqs := p.reqs.filter (·.who ≠ r.who)
            grants := p.grants ++ [{ who := r.who, lc := r.lc, draw := r.draw }] } } r.who)
        else { s with power := { p with
          booked := p.booked + b
          reqs := p.reqs.map fun x => if x.who = r.who then { x with booked := x.booked + b, here := x.here + b } else x } }

def serveAll (s : State) : State := serveLeave (s.power.reqs.length + 1) s

/-- A request is taken and answered in the current window (R382). -/
def askLeave (s : State) (w : LeaveFor) (lc : Bool) (draw : List Nat) : State :=
  serveAll { s with power := { s.power with reqs := s.power.reqs ++ [{ who := w, lc := lc, draw := draw, booked := 0, here := 0 }] } }

def hasGrant (s : State) (w : LeaveFor) : Bool := s.power.grants.any (·.who = w)
def hasAsked (s : State) (w : LeaveFor) : Bool := s.power.reqs.any (·.who = w)

/-- Leave ends, or a waiting request is withdrawn with its bookings of the current window (R384, R385). -/
def releaseLeave (s : State) (w : LeaveFor) : State :=
  let p := s.power
  let back := ((p.reqs.filter (·.who = w)).map (·.here)).foldl (· + ·) 0
  serveAll { s with power := { p with
    reqs := p.reqs.filter (·.who ≠ w), grants := p.grants.filter (·.who ≠ w), booked := p.booked - back } }

/-! ### Stopping tiles -/

/-- A closed queue: what it held is gone (10 R261). -/
def closeQueue (q : RecvQueue) : RecvQueue :=
  { q with items := [], wr := 0, lost := 0, tags := [], spill := [], spWr := 0, spilling := false, high := false, opened := false }

/-- Messages and contributions a queue holds. -/
def heldIn (q : RecvQueue) : Nat := q.items.length + (q.tags.map (·.count)).foldl (· + ·) 0 + q.spill.length

/-- What all queues of a tile hold. -/
def netHeld (n : NetIf) : Nat := (n.queues.map fun e => heldIn e.2).foldl (· + ·) 0

def closeQueues (n : NetIf) : NetIf := { n with queues := n.queues.map fun e => (e.1, closeQueue e.2) }

/-- Add n to spoil counter i (10 R264). -/
def addSpoil (n : NetIf) (i k : Nat) : NetIf := { n with spoil := arrSet n.spoil i (arrGet n.spoil i 0 + BitVec.ofNat 64 k) 0 }

/-- A message on its way, or held at the hub, is for the tile of this device (12 R309). -/
def goesTo (s : State) (t : Nat) (n : NetMsg) : Bool := n.msg.ddev = deviceId s && substT s n.msg.dtile = t

/-- Messages on their way to a tile of this device, those held at the hub among them. -/
def netTo (s : State) (t : Nat) : Nat := ((s.net ++ s.heldIn).filter (goesTo s t)).length

/-- Stream chains in progress (12 R309). -/
def chainsOf (tl : Tile) : Nat := (tl.pad.slots.filter fun x => x.chain.isSome).length

/-- Tokens of a tile (12 R309). -/
def tokensOf (s : State) (t : Nat) : Nat := let tl := tileAt s t; netHeld tl.net + netTo s t + chainsOf tl

def tileRunning (tl : Tile) : Bool := tl.sq.st = .running || tl.sq.st = .halted

/-- The tile with its work discarded: IDLE, queues, loops, chains and runs gone (12 R309, 14 R343). -/
def stoppedTile (tl : Tile) : Tile :=
  { tl with
    sq := { tl.sq with st := .idle, loops := [], pend := 0 }
    q := queuesReset
    mx := { tl.mx with busy := none, flight := [] }
    vx := { tl.vx with run := none }
    pad := { tl.pad with slots := tl.pad.slots.map fun x => { x with chain := none, tagw := false } } }

/-- Drop the waiters that satisfy p (11 R287, R288). -/
def dropWaiters (s : State) (p : Waiter → Bool) : State :=
  { s with levels := s.levels.map fun l =>
    { l with tally := l.tally.filterMap fun e =>
      let y := { e.2 with waiters := e.2.waiters.filter fun w => !p w }
      if y = { value := 0, fault := false, waiters := [] } then none else some (e.1, y) } }

/-- Stop one tile as DISCARD does: at its instruction boundaries, tokens discarded, messages counted under EPOCH (12 R309). A waiter that
it has registered stays with its tally (11 R286; log 62). -/
def discardTile (s0 : State) (t : Nat) : State :=
  let s := toBoundary s0 t
  let n := netHeld (tileAt s t).net + netTo s t
  let s1 := modTile s t fun tl => let x := stoppedTile tl; { x with net := addSpoil (closeQueues x.net) 3 n }
  { s1 with
    net := s1.net.filter fun m => !goesTo s t m
    heldIn := s1.heldIn.filter fun m => !goesTo s t m
    paused := s1.paused.filter (· ≠ t)
    launches := s1.launches.map fun l =>
      if l.stage = .running && s.comp = some l.job && (l.started.any fun u => substT s u = t) && tileRunning (tileAt s t) then { l with stopped := l.stopped + 1 } else l }

/-! ### The end of a section -/

/-- FAULT_RECOVERED (18 R437 step 6). -/
def resumeRecovery (s : State) (ticket : Nat) : State :=
  match s.errs.recov with
  | some r =>
    if r.ticket = ticket then
      let s1 := { s with errs := { s.errs with recov := none }, net := s.net ++ s.heldIn.map (fun n => { n with msg := { n.msg with dtile := substT s n.msg.dtile } }), heldIn := [] }
      jobRecord s1 0x0E stFaultRecovered 1 r.unit r.spare [r.seq % 2 ^ 32, (s.clock - r.since) / 3600]
    else s
  | none => s

/-- A launch has its final reply (14 R343): leave, input log and snapshot cover end with it. -/
def endLaunch (s : State) (l : Launch) : State :=
  let s1 := resumeRecovery { s with launches := s.launches.filter (·.ticket ≠ l.ticket), replays := s.replays.filter (·.ticket ≠ l.ticket) } l.ticket
  releaseLeave (replyOk s1 l.ticket l.started.length l.stopped) (.launch l.ticket)

/-- Every started tile of a running launch of the computing job is FINISHED or stopped; a section of a job switched out keeps
running in its saved state (15 R361). -/
def launchDone (s : State) (l : Launch) : Bool :=
  l.stage = .running && s.comp = some l.job && l.started.all fun t => !tileRunning (tileAt s (substT s t))

/-- SECTION_END (95): launches whose last tile has ended get their final reply. -/
def endSections (s : State) : State := (s.launches.filter (launchDone s)).foldl endLaunch s

/-- Stop the tiles given, as SECTION_STOP does (14 R343). -/
def stopTiles (s : State) (ts : List Nat) : State := endSections (ts.foldl discardTile s)

/-! ### Resets of a tile's contents (19 R451) -/

/-- A tile after a JOB reset: detour entries, GEN and AGEN stay (12 R320, 19 R451). -/
def tileJobReset (tl : Tile) : Tile :=
  { tileReset with net := { netReset with detour := tl.net.detour, guided := tl.net.guided, gen := tl.net.gen, agen := tl.net.agen }, a1 := tl.a1, s1 := tl.s1 }

/-- A tile after a TILE reset, or on its return from S1: GEN + 1, EPOCH 0, PREV the old EPOCH, AGEN and peers at reset
(12 R316, 19 R451 column G). -/
def tileGenReset (tl : Tile) : Tile :=
  { tileReset with net := { netReset with detour := tl.net.detour, guided := tl.net.guided, gen := tl.net.gen + 1, prev := tl.net.epoch } }

/-- Apply a tile reset to every tile. -/
def resetTiles (s : State) (f : Tile → Tile) : State :=
  { s with tiles := s.tiles.filterMap fun e => let x := f e.2; if x = tileReset then none else some (e.1, x) }

/-- The JOB reset (19 R446, R451; 02 to 12's own lines): every tile, every scratchpad, the Level units; every message and
lock of the ended job; substitutions end and the reserves are chosen again (18 R427). -/
def jobReset (s : State) (j : Nat) : State :=
  let s1 := memDrop (resetTiles s tileJobReset) 0x080000000000 padTop
  { s1 with
    levels := List.replicate 4 levelReset
    cbar := []
    tmap := []
    snap := none
    net := []
    ctl := []
    heldIn := []
    paused := []
    images := s1.images.filter fun i => i.job ≠ j && i.job ≠ 0
    replays := s1.replays.filter fun r => s1.launches.any fun l => l.ticket = r.ticket && l.job ≠ j
    subst := []
    sec := { s1.sec with debugNonce := none }
    errs := { s1.errs with recov := none }
    reserve := (List.range 4).flatMap (reserveOf s1.retired (feature s1 6)) }

/-! ### Giving the device (15 R356 to R358) -/

/-- Shaft ticks a job has waited are added to its account and its client's (R368). -/
def modClient (s : State) (p c : Nat) (f : Client → Client) : State :=
  modPort s p fun x =>
    let d : Client := { completed := 0, qwait := 0, preempts := 0, ptime := 0, energy := 0 }
    { x with clients := arrSet x.clients c (f (arrGet x.clients c d)) d }

/-- OWN (21 R484). -/
def ownNotice (s : State) (j : Job) : Notice :=
  .own j.id j.port j.client (deviceId s) s.casc.domain.toNat s.casc.system.toNat (shaftCount s)

/-- The Pithead's decisions about a cascade job, and what the other devices do (R354): 0 open it, 1 give it the device, 2 and 3 switch it
out by force or at a boundary, 4 restore it, 5 close it, 6 withdraw a decision to switch. -/
def tellCascade (s : State) (j : Job) (code : Nat) (bytes : List Byte) : State :=
  if j.casc && s.casc.pith then
    ((s.casc.present.filter fun d => d ≠ deviceId s && inMembers s d).foldl (fun a d =>
      sendResp a { dev := d, src := deviceId s, what := .decision, last := true, port := j.port, code := code, num := j.id } bytes) s)
  else s

/-- The other devices of the cascade switch the job too (R354). -/
def tellSwitch (s : State) (j : Job) (forced : Bool) : State :=
  let s1 := tellCascade s j (if forced then 2 else 3) []
  if j.casc && s.casc.pith then
    { s1 with casc := { s1.casc with awaiting := s1.casc.present.filter fun d => d ≠ deviceId s && inMembers s d } }
  else s1

/-- A cascade job on a Member: the Pithead decides (R354). -/
def decidedElsewhere (s : State) (j : Job) : Bool := j.casc && !s.casc.pith

/-- The device is given to a job (R356, R357). -/
def giveDevice (s : State) (j : Job) : State :=
  let w := shaftCount s - j.enq.getD (shaftCount s)
  let s1 := modJob s j.id fun x => { x with state := .computing, enq := none, qwait := x.qwait + w }
  let s2 := modClient s1 j.port j.client fun c => { c with qwait := c.qwait + w }
  notify { tellCascade s2 j 1 [] with comp := some j.id, lcq := s2.lcq.filter (· ≠ j.id), beq := s2.beq.filter (· ≠ j.id) } (ownNotice s j)

/-- The device passes on (R357): the head of the LC queue, else of the BE queue unless that one must be restored first
(R362); with both empty it is free. A device that has stopped computing is given to none (18 R423). -/
def passDevice (s : State) : State :=
  let s1 := { s with comp := none, sw := none }
  if s1.errs.fatal then s1
  else match s1.lcq.head?.bind (jobOf s1) with
  | some j => giveDevice s1 j
  | none =>
    match s1.beq.head?.bind (jobOf s1) with
    | some j => if j.state = .preempted then s1 else giveDevice s1 j
    | none => notify s1 (.free (shaftCount s1))

/-- With the device free, what stands at the head of the queues now is given it (R357). -/
def passIfFree (s : State) : State :=
  if s.comp.isNone && s.sw.isNone && !(s.lcq.isEmpty && s.beq.isEmpty) then passDevice s else s

/-- A decision that no LC job waits for any longer is withdrawn (R364). -/
def withdrawDecision (s : State) : State :=
  match s.sw with
  | some w =>
    if w.phase = .wait && w.ticket.isNone && s.lcq.isEmpty then
      let s1 := modJob { s with sw := none, casc := { s.casc with awaiting := [] } } w.job fun y => { y with pre := none }
      match jobOf s1 w.job with
      | some j => notify (tellCascade s1 j 6 []) (ownNotice s1 j)
      | none => s1
    else s
  | none => s

/-- Sections of a job that run (R355). -/
def runningOf (s : State) (j : Nat) : List Launch := s.launches.filter fun l => l.job = j && l.stage = .running

/-- Nanoseconds a running section has left of TMAX; none without a declared maximum (R358). -/
def leftNs (s : State) (l : Launch) : Option Nat :=
  match l.img with
  | some i => if i.tmax = 0 then none else some (i.tmax - (s.clock - l.begin_) * 10 / 36)
  | none => none

/-- The decision of R358 when LC job c arrives while BE job j computes. -/
def decideSwitch (s : State) (j c : Nat) : State :=
  let rs := runningOf s j
  let loading := match s.load with | some l => l.img.job = j | none => false
  let fits := rs.all fun l => match leftNs s l with | some r => decide (r ≤ feature s 2 * 1000) | none => false
  let forced := !(rs.isEmpty && !loading) && !(!rs.isEmpty && fits)
  let s0 := modJob s j fun x => { x with pre := some (shaftCount s) }
  let s1 := match jobOf s0 j with | some x => tellSwitch s0 x forced | none => s0
  notify { s1 with sw := some { job := j, phase := .wait, forced := forced, ticket := none, cause := c, start := s.clock } }
    (.switch c (shaftCount s))

/-- A job enters its class queue, or is given the device at once (R356); an LC arrival may start a pre-emption (R358). -/
def enterQueue (s : State) (j : Job) : State :=
  if decidedElsewhere s j then s
  else if s.comp.isNone && s.sw.isNone && s.lcq.isEmpty && (j.lc || s.beq.isEmpty) then giveDevice s j
  else
    let s1 := modJob s j.id fun x => { x with state := .queued, enq := some (shaftCount s) }
    let s2 := if j.lc then { s1 with lcq := s1.lcq ++ [j.id] } else { s1 with beq := s1.beq ++ [j.id] }
    match compJob s2 with
    | some c => if j.lc && !c.lc && s2.sw.isNone && !decidedElsewhere s2 c then decideSwitch s2 c.id j.id else s2
    | none => s2

/-! ### Failure (14 R335, 19 R447) -/

/-- Commands a failure completes (R335): all of the job's but TALLY_WAIT and JOB_CLOSE. -/
def failTickets (s : State) (j : Nat) : List Nat :=
  (s.out.filter fun k => pJob k = j && !k.away && pOpcode k ≠ 0x0402 && pOpcode k ≠ 0x0201).map (·.ticket)

/-- Withdraw and release everything the job's operations hold of the Banksman (16 R384, R385). -/
def releaseJobLeave (s : State) (j : Nat) : State :=
  let ks := (s.out.filter fun k => pJob k = j).map (·.ticket)
  ks.foldl (fun s k => releaseLeave (releaseLeave s (.launch k)) (.command k)) s

/-- The job becomes FAILED with a status (R335, R447): its leave ends, its commands complete with FAULT_FATAL (a cascade job's
when SHACK_N is high, 17 R414), the JOB reset follows when it held the tiles, and the device passes on. -/
def failJob (s : State) (j st : Nat) : State :=
  match jobOf s j with
  | none => s
  | some x =>
    if x.state = .failed then s
    else
      let held := s.comp = some j || (match s.sw with | some w => w.job = j | none => false)
      let s1 := releaseJobLeave s j
      let ks := failTickets s1 j
      let s2 := modJob { s1 with
        launches := s1.launches.filter (·.job ≠ j)
        load := match s1.load with | some l => if l.img.job = j then none else some l | none => none
        lcq := s1.lcq.filter (· ≠ j)
        beq := s1.beq.filter (· ≠ j)
        casc := if x.casc then { s1.casc with shflt := true, ackTickets := s1.casc.ackTickets ++ ks } else s1.casc } j
        fun y => { y with state := .failed, fail := st, saved := none, enq := none, pre := none }
      let s3 := if x.casc then s2 else ks.foldl (fun s k => refuse s k stFaultFatal 0) s2
      let s4 := notify s3 (.close j (shaftCount s3))
      if held then passDevice (jobReset { s4 with comp := none, sw := none } j) else passIfFree (withdrawDecision s4)

/-- The computing job fails; with no job computing, nothing does (18 R423). -/
def failComputing (s : State) (st : Nat) : State :=
  match s.comp with
  | some j => failJob s j st
  | none => s

/-- The record of a tile's job-fatal error (06 R165): SRC 0x01, unit and index. The tile stops with FAULT set. -/
def tileRecord (s : State) (t unit idx : Nat) (e : TErr) : State :=
  let s1 := modTile s t fun tl => { tl with sq := { tl.sq with fault := true } }
  jobRecord s1 1 e.status 2 t (unit + 2 ^ 8 * idx) e.detail

/-- A job-fatal error of a tile. -/
def tileFatal (s : State) (t unit idx : Nat) (e : TErr) : State := failComputing (tileRecord s t unit idx e) e.status

/-- A job-fatal error of the Level units (11 R285, R291): SRC 0x05. -/
def levelRecord (s : State) (st level loc1 : Nat) (detail : List Nat) : State := jobRecord s 5 st 2 level loc1 detail
def levelFatal (s : State) (st level loc1 : Nat) (detail : List Nat) : State := failComputing (levelRecord s st level loc1 detail) st

/-- The journal of an update is complete (20 R476, R477): a moment between the swap and the end of the rewriting, a free choice. -/
def journalDone (s : State) (u : Update) : Bool := (u.swapped || u.comp = 0) && Config.choice s.fresh % 2 = 1

/-- A device-fatal record (18 R423): every open job fails, the device stops computing, SHFLT_N falls. -/
def deviceFatal (s : State) (st src loc0 loc1 : Nat) (detail : List Nat) : State :=
  let s1 := addRecord s st 3 false false src 0 loc0 loc1 detail
  let s2 := (s1.jobs.map (·.id)).foldl (fun s j => failJob s j st) { s1 with errs := { s1.errs with fatal := true } }
  -- an update not yet journalled is discarded with FAULT_FATAL (20 R477)
  let s3 := match s2.sec.update with
    | some u => if journalDone s2 u then bumpFresh s2
      else refuse (bumpFresh { s2 with sec := { s2.sec with update := none } }) u.ticket stFaultFatal 0
    | none => s2
  { s3 with casc := { s3.casc with shflt := true }, alert := true }

/-- Where an address of external memory lies, for a record (18 R444): source, LOC0, LOC1 and DETAIL. -/
def memPlace (s : State) (a : Nat) : Nat × Nat × Nat × List Nat :=
  if isLpddr a then
    (4, packageOf a, a % 2 ^ 32, [0, 0, a / 2 ^ 32])
  else let p := (linePlace s a).1; (3, p.1, p.2, [0, 0, a % 2 ^ 32, a / 2 ^ 32])

/-- The job whose region or save area an address of external memory lies in. -/
def memOwner (s : State) (a : Nat) : Option Nat :=
  match regionOver s a with
  | some r => some r.job
  | none => (s.jobs.find? fun j => j.area.any fun b => decide (b ≤ a) && decide (a < b + 703 * 0x200000)).map (·.id)

/-- An uncorrectable error at an address of external memory (09 R224, 18 R423, R430; 15 R364): job-fatal for the owner of its region or
save area, device-fatal in a reserved area, contained where neither covers it. -/
def memFatal (s : State) (a : Nat) (lasting : Bool) : State :=
  let p := memPlace s a
  match memOwner s a with
  | some j => failJob (addRecord s stFaultFatal 2 lasting false p.1 j p.2.1 p.2.2.1 p.2.2.2) j stFaultFatal
  | none =>
    if isReserved a then deviceFatal s stFaultFatal p.1 p.2.1 p.2.2.1 p.2.2.2
    else addRecord s stContained 1 lasting false p.1 0 p.2.1 p.2.2.1 p.2.2.2

end Sys2Proof.Machine
end

