-- ==== Sys2Proof/Machine/Packets.lean ====
section
/-! DEFINITION. What the rows of packet commands share: finding the packet, fences, and the checks of memory ranges
(09 R231, 14 R325, R332). -/

namespace Sys2Proof.Machine

/-- The row of an opcode for packet k: nothing happens unless k is an outstanding packet of that opcode that may start. -/
def withCmd (s : State) (k op : Nat) (f : Packet → Outcome) : Outcome :=
  match packetN s k with
  | some x => if pOpcode x = op && !fenced s x && !x.away && s.module = .on && !s.s3 then f x else .next s
  | none => .next s

/-- As withCmd, with the job of the packet; a packet whose job has gone completes with NO_JOB (R336). -/
def withJob (s : State) (k op : Nat) (f : Packet → Job → Outcome) : Outcome :=
  withCmd s k op fun x =>
    match jobOf s (pJob x) with
    | some j => f x j
    | none => .next (refuse s k stNoJob 0)

/-- BAD_PARAM with the offset of the first offending field (R330). -/
def badField (s : State) (k off : Nat) : State := refuse s k stBadParam off

/-- ACCEPTED when EARLY asks for it and the command starts (R331). -/
def early (s : State) (x : Packet) : State := if pEarly x && !x.sent then accept s x.ticket 0 else s

/-- A region of a job by its base (R230). -/
def regionBase (s : State) (j base : Nat) : Option Region := s.regions.find? fun r => r.job = j && r.base = base

/-- [a, a + n) lies in one region of port p, in its visible range, with the right asked for (R231). -/
def hostRange (s : State) (p a n : Nat) (wr : Bool) : Bool :=
  match regionAt s a with
  | some r => r.port = p && decide (a + n ≤ r.base + visibleBytes r) &&
      (if wr then r.hw && !regionLocked s r.base else r.hr)
  | none => false

/-- Every region that [a, a + n) meets allows the access, whole (R231): the range may span neighbouring regions. -/
def hostSpan (s : State) (p : Nat) (wr : Bool) : Nat → Nat → Nat → Bool
  | _, _, 0 => true
  | 0, _, _ => false
  | f + 1, a, n =>
    match regionAt s a with
    | some r =>
      let m := min n (r.base + visibleBytes r - a)
      hostRange s p a m wr && hostSpan s p wr f (a + m) (n - m)
    | none => false

/-- The whole range of a COPY, FILL or COLLECTIVE. -/
def spanOk (s : State) (p a n : Nat) (wr : Bool) : Bool := hostSpan s p wr (s.regions.length + 1) a n

/-- A rectangle of tiles is valid: X0 ≤ X1 ≤ 47 and Y0 ≤ Y1 ≤ 47. -/
def rectOk (r : Rect) : Bool := decide (r.x0 ≤ r.x1 ∧ r.x1 ≤ 47 ∧ r.y0 ≤ r.y1 ∧ r.y1 ≤ 47)

/-- Good tiles of a rectangle outside the spare reserve (14 R343). -/
def launchTiles (s : State) (r : Rect) : List Nat := (goodTiles s r).filter fun t => !s.reserve.contains t

/-- A section of the job runs (15 R355). -/
def jobRunning (s : State) (j : Nat) : Bool := s.launches.any fun l => l.job = j && l.stage = .running

/-- A replayable section of the job runs, not committed (18 R436). -/
def replayRunning (s : State) (j : Nat) : Bool :=
  s.launches.any fun l => l.job = j && l.stage = .running && !l.committed && (match l.img with | some i => i.rpl | none => false)

/-- Drop the computing job's images whose epoch no tile holds any more (12 R306). What a job that has been switched out has loaded stays
known, to be locked again once its tiles hold the epoch again (12 R320). -/
def pruneImages (s : State) : State :=
  { s with images := s.images.filter fun i => (i.job ≠ 0 && s.comp ≠ some i.job) || imageHeld s i }

end Sys2Proof.Machine
end

