-- ==== Sys2Proof/Machine/Regions.lean ====
section
/-! DEFINITION. Regions, key slots, save areas, and the copy engines (09 R226 to R241, 14 R323, R337, R341, 16 R376, R377). -/

namespace Sys2Proof.Machine

/-- A granule (09 R226). -/
def granule : Nat := 0x200000

/-- First byte and bytes of a Level's part of a tier (09 R217). -/
def tierBase (tier n : Nat) : Nat := if tier = 0 then n * 0x3000000000 else 0x10000000000 + n * 0x4000000000
def tierLen (tier : Nat) : Nat := if tier = 0 then Config.hbmPerLevel else 0x4000000000

/-- Granules of a save area in each Level (14 R341). -/
def areaGran : Nat := 703

/-- The backing bytes of a region. -/
def backing (r : Region) : Nat × Nat := (r.base, r.gran * granule)

/-- Ranges no region may take: regions, save areas and reserved areas (09 R227). -/
def takenRanges (s : State) : List (Nat × Nat) :=
  s.regions.map backing ++ s.jobs.flatMap (fun j => j.area.map fun a => (a, areaGran * granule)) ++
    (List.range 4).map fun n => (0x10000000000 + n * 0x4000000000 + 0x3FFC000000, 0x4000000)

def meetsRange (a b : Nat × Nat) : Bool := decide (a.1 < b.1 + b.2) && decide (b.1 < a.1 + a.2)

def rangeFree (s : State) (r : Nat × Nat) : Bool := (takenRanges s).all fun t => !meetsRange r t

/-- The range lies in the Level's part of the tier. -/
def inTier (tier n : Nat) (r : Nat × Nat) : Bool :=
  decide (tierBase tier n ≤ r.1) && decide (r.1 + r.2 ≤ tierBase tier n + tierLen tier)

def fitsAt (s : State) (tier n len a : Nat) : Bool := inTier tier n (a, len) && rangeFree s (a, len)

def least : List Nat → Option Nat
  | [] => none
  | a :: t => some (t.foldl min a)

def greatest : List Nat → Option Nat
  | [] => none
  | a :: t => some (t.foldl max a)

/-- The lowest free range of a length (09 R227): it starts where the tier or a taken range ends. -/
def lowestFree (s : State) (tier n len : Nat) : Option Nat :=
  least ((tierBase tier n :: (takenRanges s).map fun t => t.1 + t.2).filter (fitsAt s tier n len))

/-- The highest free range of a length (14 R341). -/
def highestFree (s : State) (tier n len : Nat) : Option Nat :=
  greatest (((tierBase tier n + tierLen tier - len) :: (takenRanges s).map fun t => t.1 - len).filter (fitsAt s tier n len))

/-! ### Key slots (09 R239) -/

/-- The lowest free job key slot. -/
def freeSlot (s : State) : Option Nat := ((List.range 15).map (· + 1)).find? fun k => s.jobs.all fun j => j.key ≠ some k

/-- The holder's key is generated when the slot is taken (R239; 20 R465). -/
def takeKey (s : State) (slot : Option Nat) : State :=
  match slot with
  | some n => { s with keys := arrPut s.keys n (drawKey s.rng) false, rng := s.rng + 4 }
  | none => s

/-- The key of a slot is discarded, and its ore-bin lines with it (R239, 08 R210). -/
def dropKey (s : State) (slot : Option Nat) : State :=
  match slot with
  | some n => binsWithout { s with keys := s.keys.filter (·.1 ≠ n) } fun y => y.slot = n
  | none => s

/-! ### Retired memory (18 R429) -/

/-- Pseudo-channels of Level n that are lost, by stack of the Level and channel. -/
def lostChannels (s : State) (n : Nat) : List (Nat × Nat) :=
  (List.range 4).flatMap fun k => (List.range 32).filterMap fun c =>
    if s.retiredStack.contains (4 * n + k) || s.retiredPc.contains (4 * n + k, c) then some (k, c) else none

/-- A protection covers every retired unit of the Level: no stripe of R233 or R234 loses two lines. -/
def protCovers (s : State) (n prot : Nat) : Bool :=
  let l := lostChannels s n
  match prot with
  | 0 => l.isEmpty
  | 1 => l.all fun a => (l.filter fun b => b.1 = a.1 && b.2 / 16 = a.2 / 16).length ≤ 1
  | _ => l.all fun a => (l.filter fun b => b.2 = a.2).length ≤ 1

/-! ### Leave of a transfer (16 R376, R377) -/

/-- Levels whose memory some ranges meet. -/
def rangeLevels (rs : List (Nat × Nat)) : List Nat :=
  (List.range 4).filter fun n => rs.any fun r => [0, 1].any fun tier => meetsRange r (tierBase tier n, tierLen tier)

/-- A transfer asks leave when it starts (R377). A request that could never be admissible is not made: the transfer keeps its rate (R380). -/
def startTransfer (s : State) (k : Nat) (lc : Bool) (rs : List (Nat × Nat)) : State :=
  let draw := (List.range 4).map fun n => if (rangeLevels rs).contains n then 60 else 0
  if neverAdmissible s.power draw then s else askLeave s (.command k) lc draw

/-- What a transfer does in the row that starts it (log 50): with leave granted at once it goes on to its end; while its request waits it
runs slowly, and ends in a later row of the packet. -/
def orLater (s : State) (k count : Nat) (fin : State → State) : State :=
  if hasAsked s (.command k) then modPacket s k fun y => { y with sent := true, count := count } else fin s

/-- The end of a transfer, and of its leave (R376). -/
def endTransfer (s : State) (k r0 r1 : Nat) : State := releaseLeave (replyOk s k r0 r1) (.command k)

/-- A transfer that has started and not ended moves bytes of a range (R230). -/
def transferIn (s : State) (b : Nat × Nat) : Bool :=
  s.out.any fun y => y.sent &&
    ((pOpcode y = 0x0102 && (meetsRange (pfld y 0x10 8, pfld y 0x20 8) b || meetsRange (pfld y 0x18 8, pfld y 0x20 8) b)) ||
      (pOpcode y = 0x0103 && meetsRange (pfld y 0x10 8, pfld y 0x18 8) b))

/-! ### REGION_CREATE -/

/-- Check 2 of R227, and R429: the offset of the first field that fails. -/
def createField (s : State) (x : Packet) : Option Nat :=
  let tier := pfld x 0x10 1
  let lvl := pfld x 0x11 1
  let prot := pfld x 0x12 1
  let fixed := pfld x 0x14 1
  let gran := pfld x 0x18 4
  let base := pfld x 0x20 8
  if tier > 1 then some 0x10
  else if lvl > 3 then some 0x11
  else if prot > 2 ∨ (prot ≠ 0 ∧ tier = 1) ∨ (tier = 0 ∧ !protCovers s lvl prot) then some 0x12
  else if pfld x 0x13 1 > 1 then some 0x13
  else if fixed > 1 then some 0x14
  else if gran = 0 then some 0x18
  else if fixed = 1 ∧ (base % granule ≠ 0 ∨ !inTier tier lvl (base, gran * granule)) then some 0x20
  else none

/-- The base a region gets, or the offset of R227's checks 5 and 6. -/
def createBase (s : State) (x : Packet) : Except Nat Nat :=
  let len := pfld x 0x18 4 * granule
  if pfld x 0x14 1 = 1 then
    if rangeFree s (pfld x 0x20 8, len) then .ok (pfld x 0x20 8) else .error 0x20
  else match lowestFree s (pfld x 0x10 1) (pfld x 0x11 1) len with
    | some a => .ok a
    | none => .error 0x18

/-- REGION_CREATE (R227, R228, R229, R239). -/
def execRegionCreate (k : Nat) (s : State) : Outcome :=
  withJob s k 0x0100 fun x j =>
    if x.sent then .next (endTransfer s k (x.count % 2 ^ 32) (x.count / 2 ^ 32))
    else match createField s x with
    | some o => .next (badField s k o)
    | none =>
      if j.key.isNone ∧ (freeSlot s).isNone then .next (refuse s k stJobBusy 0)
      else if s.regions.length ≥ 1024 then .next (refuse s k stBadParam noField)
      else match createBase s x with
      | .error o => .next (badField s k o)
      | .ok base =>
        if s.sec.rngWait then .next s
        else
        let gran := pfld x 0x18 4
        let zero := pfld x 0x13 1 = 1 || pfld x 0x12 1 ≠ 0
        let slot := if j.key.isSome then none else freeSlot s
        let s1 := takeKey (memDrop (bumpFresh (early s x)) base (base + gran * granule)) slot
        let r : Region :=
          { base := base, gran := gran, tier := pfld x 0x10 1, level := pfld x 0x11 1, prot := pfld x 0x12 1, job := j.id, port := j.port,
            tw := true, hr := true, hw := true, zero := zero, salt := drawKey s1.rng, fresh := s.fresh + 1 }
        let s2 := modJob (memCanon { s1 with regions := s1.regions ++ [r], rng := s1.rng + 4 }) j.id fun y =>
          { y with key := if y.key.isSome then y.key else slot }
        let fin := fun (s : State) => endTransfer s k (base % 2 ^ 32) (base / 2 ^ 32)
        .next (if zero then orLater (startTransfer s2 k j.lc [backing r]) k base fin else fin s2)

/-! ### REGION_DESTROY, REGION_PROTECT -/

/-- DETAIL of an enabled queue of a port that lies in a region (14 R323). -/
def boundQueue (s : State) (r : Region) : Option Nat :=
  let pt := portN s r.port
  let within := fun (b : W64) => decide (r.base ≤ b.toNat) && decide (b.toNat < r.base + r.gran * granule)
  ((List.range 16).findSome? fun q => let x := sqN pt q; if bitAt x.cfg 17 && bitAt x.cfg 12 && within x.base then some q else none) <|>
    ((List.range 16).findSome? fun q =>
      let x := cqN pt q
      if bitAt x.cfg 23 && bitAt x.cfg 12 && within x.base then some (q + 16) else none)

/-- A region goes: its salt and key pair with it, so that its contents cannot be read again, its ore-bin lines, and what an image loaded
from it locked; the key slot of an LC job's last region is freed (R230, R239). -/
def destroyRegion (s0 : State) (r : Region) : State :=
  let e := r.base + r.gran * granule
  let s := binsWithout s0 fun y => decide (r.base ≤ 512 * y.line) && decide (512 * y.line < e)
  let s1 := memDrop s r.base e
  let s2 := memCanon { s1 with
    regions := s1.regions.filter (· ≠ r)
    images := s1.images.filter fun i => i.region ≠ r.base
    saves := s1.saves.filter fun v => !(decide (r.base ≤ v.base) && decide (v.base + v.len ≤ e)) }
  if s2.regions.any (·.job = r.job) then s2
  else match jobOf s2 r.job with
    | some j => if j.area.isEmpty then modJob (dropKey s2 j.key) r.job fun y => { y with key := none } else s2
    | none => s2

/-- REGION_DESTROY (R230, R306, R323). -/
def execRegionDestroy (k : Nat) (s : State) : Outcome :=
  withJob s k 0x0101 fun x j =>
    match regionBase s j.id (pfld x 0x10 8) with
    | none => .next (badField s k 0x10)
    | some r =>
      match boundQueue s r with
      | some d => .next (refuse s k stJobBusy d)
      | none =>
        if regionLocked s r.base ∨ jobRunning s j.id then .next (refuse s k stJobBusy 0)
        else if transferIn s (backing r) then .next s
        else .next (replyOk (destroyRegion (early s x) r) k 0 0)

/-- REGION_PROTECT (R229, R306, R323). -/
def execRegionProtect (k : Nat) (s : State) : Outcome :=
  withJob s k 0x0104 fun x j =>
    let w := pfld x 0x18 1
    match regionBase s j.id (pfld x 0x10 8) with
    | none => .next (badField s k 0x10)
    | some r =>
      match (if nbit w 1 && nbit w 2 then none else boundQueue s r) with
      | some d => .next (refuse s k stJobBusy d)
      | none =>
        if regionLocked s r.base then .next (refuse s k stJobBusy 0)
        else
          let s1 := early s x
          .next (replyOk { s1 with
            regions := s1.regions.map fun y => if y = r then { y with tw := nbit w 0, hr := nbit w 1, hw := nbit w 2 } else y } k 0 0)

/-! ### COPY and FILL (R231, R337) -/

/-- The first field of a COPY that offends. -/
def copyField (s : State) (x : Packet) : Option Nat :=
  let len := pfld x 0x20 8
  let h := pfld x 0x28 1
  if len = 0 ∨ len > 2 ^ 40 then some 0x20
  else if h = 3 then some 0x28
  else if !nbit h 0 ∧ !spanOk s x.port (pfld x 0x10 8) len false then some 0x10
  else if !nbit h 1 ∧ !spanOk s x.port (pfld x 0x18 8) len true then some 0x18
  else none

/-- The bytes of a COPY move, and it ends: a lost line is an uncorrectable error (18 R429). -/
def copyEnd (s : State) (x : Packet) (dma : List Byte) : State :=
  let h := pfld x 0x28 1
  let len := pfld x 0x20 8
  let src := pfld x 0x10 8
  let dst := pfld x 0x18 8
  let data := if nbit h 0 then slice dma 0 len else memRead s src len
  let s1 := if nbit h 0 then s else binReads s src len
  match (if nbit h 0 then none else lostIn s src len) <|> (if nbit h 1 then none else lostIn s dst len) with
  | some a => releaseLeave (refuse (memFatal s a false) x.ticket stFaultFatal 0) (.command x.ticket)
  | none => endTransfer (if nbit h 1 then hostWrite s1 x.port dst data else memPut s1 dst data) x.ticket 0 0

/-- COPY (R337, 16 R377): `dma` is what host memory holds at SRC. -/
def execCopy (k : Nat) (dma : List Byte) (s : State) : Outcome :=
  withJob s k 0x0102 fun x j =>
    if x.sent then .next (copyEnd s x dma)
    else match copyField s x with
    | some o => .next (badField s k o)
    | none =>
      let h := pfld x 0x28 1
      let len := pfld x 0x20 8
      let ends := (if nbit h 0 then [] else [(pfld x 0x10 8, len)]) ++ if nbit h 1 then [] else [(pfld x 0x18 8, len)]
      .next (orLater (startTransfer (early s x) k j.lc ends) k 0 fun s => copyEnd s x dma)

/-- The bytes of a FILL are written, and it ends. -/
def fillEnd (s : State) (x : Packet) : State :=
  let len := pfld x 0x18 8
  let dst := pfld x 0x10 8
  let data := (List.range len).map fun i => BitVec.ofNat 8 (pfld x (0x20 + i % 8) 1)
  match lostIn s dst len with
  | some a => releaseLeave (refuse (memFatal s a false) x.ticket stFaultFatal 0) (.command x.ticket)
  | none => endTransfer (memPut s dst data) x.ticket 0 0

/-- FILL (R337, 16 R377). -/
def execFill (k : Nat) (s : State) : Outcome :=
  withJob s k 0x0103 fun x j =>
    let len := pfld x 0x18 8
    let dst := pfld x 0x10 8
    if x.sent then .next (fillEnd s x)
    else if len = 0 ∨ len > 2 ^ 40 then .next (badField s k 0x18)
    else if !spanOk s x.port dst len true then .next (badField s k 0x10)
    else .next (orLater (startTransfer (early s x) k j.lc [(dst, len)]) k 0 fun s => fillEnd s x)

end Sys2Proof.Machine
end

