-- ==== Sys2Proof/Machine/Control.lean ====
section
/-! DEFINITION. The tile control space: every register's read and write (02 R60, R61, 03 R69, R84, R85, 04 R94 to R117,
05 R121, 06 R141, R164, 07 R168, 08 R183, R185, R208, R214, 10 R251 to R274, 11 R295, 12 R313), and the checks that a
write can break. -/

namespace Sys2Proof.Machine

/-- Who writes a control register (R98, R134, R251, R351). -/
inductive Writer where
  | cset | record | host | frame
deriving DecidableEq, Repr

/-- Two 32-bit registers as one 64-bit word. -/
def pair32 (lo hi : Nat) : W64 := BitVec.ofNat 64 (lo % 2 ^ 32 + hi % 2 ^ 32 * 2 ^ 32)

def seqCode (s : SeqState) : Nat :=
  match s with
  | .idle => 0 | .running => 1 | .halted => 2 | .finished => 3

/-- SEQ_STATUS (R141). -/
def seqStatus (q : Sequencer) : Nat := q.pc % 4096 + 4096 * q.loops.length + 2 ^ 15 * seqCode q.st + 2 ^ 17 * b2n q.fault

/-- QOCC (R141). -/
def qocc (q : Queues) : Nat :=
  q.mxq.length + 2 ^ 5 * q.vxq.length + 2 ^ 10 * q.sxq.length + 2 ^ 15 * q.nxq.length + 2 ^ 20 * q.yxq.length

/-- A fetched attribute descriptor of the slot's chain has a deadline that has not been missed (R214 DLARM). -/
def deadlineArmed (s : StreamSlot) : Bool :=
  match s.chain with
  | some c => (match c.attr with | some a => a.dl.isSome && !c.missed | none => false) || c.burst.any fun d => d.dl.isSome && !d.missed
  | none => false

/-- Status word of a stream slot (R214). -/
def slotStatus (s : StreamSlot) : Nat :=
  b2n s.chain.isSome + 2 * s.daddr + 2 ^ 16 * b2n s.tagw + 2 ^ 17 * b2n (deadlineArmed s)

/-- Positions of a queue's main area that are occupied (R255, R260, R266): held messages and skipped positions, held
contributions with their head flits, accumulators. -/
def queueOcc (q : RecvQueue) : Nat :=
  let a := (fld q.w0 29 24 + 1) * (if bitAt q.w0 38 then 2 else 1)
  (q.items.map fun i => i.flits + i.skip).sum + (q.tags.map fun g => a + g.held.length * (g.flits + 1)).sum

/-- Acquired and not yet freed messages (R273). -/
def queueAcq (q : RecvQueue) : Nat := (q.items.filter (·.acq)).length

/-- Status word of a receive queue (R273). -/
def queueStatus (q : RecvQueue) : Nat :=
  b2n q.opened + 2 * b2n q.high + 4 * b2n q.spilling + 8 * (queueOcc q % 2 ^ 17) + 2 ^ 20 * queueAcq q +
    2 ^ 27 * q.tags.length

/-- TCFG (R313). -/
def tcfg (n : NetIf) : Nat :=
  n.epoch.toNat + 2 ^ 8 * n.prev.toNat + 2 ^ 16 * n.gen.toNat + 2 ^ 24 * n.agen.toNat + 2 ^ 32 * b2n (n.gen != n.agen)

/-- The tags of slots 32w to 32w + 31 (R185). -/
def tagWord (p : Pad) (w : Nat) : Nat := (List.range 32).foldl (fun a b => a + b2n (arrGet p.tags (32 * w + b) false) * 2 ^ b) 0

def slotN (p : Pad) (s : Nat) : StreamSlot := p.slots.getD s { chain := none, daddr := 0, tagw := false, dlmiss := 0, bytes := 0, tagwait := 0 }

/-- The 64 bits at an offset of a tile's control space, a multiple of 8; `split` is the computing job's (R208). Reserved
locations read zero (R7). -/
def ctlRead64 (t : Tile) (split off : Nat) : W64 :=
  let i := off / 8
  if off = 0 then pair32 (seqStatus t.sq) t.sq.pend.toNat
  else if off = 0x8 then pair32 t.sq.entry.toNat t.sq.markLate.toNat
  else if off = 0x10 then pair32 (qocc t.q) 0
  else if 0x100 ≤ off ∧ off < 0x180 then arrGet t.sq.s (i - 0x20) 0
  else if off = 0x200 then pair32 t.arithCtrl.toNat t.arithStatus.toNat
  else if off = 0x210 then pair32 (mxStatus t.mx).toNat 0
  else if off = 0x218 then pair32 t.mx.scale0.toNat t.mx.scale1.toNat
  else if off = 0x220 then pair32 (vxStatus t.vx).toNat 0
  else if 0x300 ≤ off ∧ off < 0x340 then arrGet t.pad.treg (i - 0x60) 0
  else if off = 0x348 then pair32 split 0
  else if 0x400 ≤ off ∧ off < 0x500 then arrGet t.mx.mxd (i - 0x80) 0
  else if 0x600 ≤ off ∧ off < 0x800 then arrGet t.vx.vxd (i - 0xC0) 0
  else if 0x800 ≤ off ∧ off < 0xAC8 then arrGet t.sq.stall (i - 0x100) 0
  else if 0xB00 ≤ off ∧ off < 0xBC0 then
    let s := slotN t.pad ((off - 0xB00) / 32)
    match i % 4 with
    | 0 => pair32 (slotStatus s) 0
    | 1 => s.dlmiss
    | 2 => s.bytes
    | _ => s.tagwait
  else if 0xC00 ≤ off ∧ off < 0xE00 then
    let q := queueN t.net ((off - 0xC00) / 32)
    match i % 4 with
    | 0 => q.w0
    | 1 => q.w1
    | 2 => q.w2
    | _ => 0
  else if 0xE00 ≤ off ∧ off < 0x1000 then
    let q := queueN t.net ((off - 0xE00) / 32)
    match i % 4 with
    | 0 => pair32 (queueStatus q) 0
    | 1 => q.msgs
    | 2 => q.qreset
    | _ => q.spilled
  else if 0x1000 ≤ off ∧ off < 0x1040 then arrGet t.net.spoil (i - 0x200) 0
  else if 0x1080 ≤ off ∧ off < 0x10C0 then arrGet t.net.detour (i - 0x210) 0
  else if off = 0x1100 then pair32 t.net.npLimit.toNat 0
  else if off = 0x1200 then pair32 t.net.wepoch.toNat 0
  else if off = 0x1300 then BitVec.ofNat 64 (tcfg t.net)
  else if off = 0x1308 then t.net.peer.setWidth 64
  else if 0x1800 ≤ off ∧ off < 0x2000 then arrGet (queueN t.net ((off - 0x1800) / 128)).stall (i % 16) 0
  else if 0x2000 ≤ off ∧ off < 0x4000 then arrGet t.vx.prog (i - 0x400) progEnd
  else if 0x4000 ≤ off ∧ off < 0x4800 then
    let m := (off - 0x4000) / 16
    if i % 2 = 0 then pair32 (arrGet t.vx.mx m negInf32).toNat (arrGet t.vx.sm m 0).toNat
    else pair32 (arrGet t.vx.s2 m 0).toNat (arrGet t.vx.al m one32).toNat
  else if 0x4800 ≤ off ∧ off < 0x4C00 then
    let j := (off - 0x4800) / 4
    pair32 (arrGet t.vx.carry j 0).toNat (arrGet t.vx.carry (j + 1) 0).toNat
  else if 0x5000 ≤ off ∧ off < 0x5040 then
    let j := (off - 0x5000) / 4
    pair32 (arrGet t.vx.bind j 0).toNat (arrGet t.vx.bind (j + 1) 0).toNat
  else if 0x5800 ≤ off ∧ off < 0x5A00 then
    let w := (off - 0x5800) / 4
    pair32 (tagWord t.pad w) (tagWord t.pad (w + 1))
  else if 0x6000 ≤ off ∧ off < 0x8000 then arrGet t.sq.ldesc (i - 0xC00) 0
  else if 0x8000 ≤ off then arrGet t.sq.imem (i - 0x1000) 0
  else 0

/-- Bits [hi:lo] set. -/
def maskOf (hi lo : Nat) : Nat := 2 ^ (hi + 1) - 2 ^ lo

/-- Writable bits of the 64 bits at an offset (R8); W1C bits count as writable. -/
def ctlMask (off : Nat) : Nat :=
  let i := off / 8
  if off = 0x8 then maskOf 11 0 + maskOf 63 32
  else if 0x100 ≤ off ∧ off < 0x180 then maskOf 63 0
  else if off = 0x200 then maskOf 1 0 + maskOf 35 32
  else if off = 0x218 then maskOf 63 0
  else if 0x300 ≤ off ∧ off < 0x340 then maskOf 25 0
  else if 0x400 ≤ off ∧ off < 0x500 then
    match i % 4 with
    | 0 => maskOf 13 0 + maskOf 20 16 + maskOf 47 24
    | 1 => maskOf 51 0
    | 2 => maskOf 31 0
    | _ => maskOf 47 0
  else if 0x600 ≤ off ∧ off < 0x800 then
    match i % 8 with
    | 0 => maskOf 29 0 + maskOf 63 32
    | 1 => maskOf 47 0
    | 2 => maskOf 27 0
    | _ => maskOf 40 0
  else if 0x800 ≤ off ∧ off < 0xA80 then (if 11 ≤ i % 16 ∧ i % 16 ≤ 13 then 0 else maskOf 63 0)
  else if 0xA80 ≤ off ∧ off < 0xAC8 then maskOf 63 0
  else if 0xB00 ≤ off ∧ off < 0xBC0 then (if i % 4 = 0 then 0 else maskOf 63 0)
  else if 0xC00 ≤ off ∧ off < 0xE00 then
    match i % 4 with
    | 0 => maskOf 53 0
    | 1 => maskOf 33 0
    | 2 => maskOf 55 0
    | _ => 0
  else if 0xE00 ≤ off ∧ off < 0x1000 then (if i % 4 = 0 then 0 else maskOf 63 0)
  else if 0x1000 ≤ off ∧ off < 0x1040 then maskOf 63 0
  else if 0x1080 ≤ off ∧ off < 0x10C0 then maskOf 27 0
  else if off = 0x1100 then maskOf 31 0
  else if 0x1800 ≤ off ∧ off < 0x2000 then (if 11 ≤ i % 16 ∧ i % 16 ≤ 13 then 0 else maskOf 63 0)
  else if 0x2000 ≤ off ∧ off < 0x4000 then maskOf 63 0
  else if 0x4000 ≤ off ∧ off < 0x4C00 then maskOf 63 0
  else if 0x5000 ≤ off ∧ off < 0x5040 then
    (maskOf 6 0 + maskOf 11 8) * (2 ^ 32 + 1)
  else if 0x5800 ≤ off ∧ off < 0x5A00 then maskOf 63 0
  else if 0x6000 ≤ off ∧ off < 0x8000 then
    let w := i % 64
    if w = 0 then maskOf 20 0
    else if w < 7 then maskOf 2 0 + maskOf 55 8
    else if w = 7 then maskOf 35 0
    else if w < 56 then (if w % 8 = 0 then maskOf 59 0 else maskOf 63 0)
    else 0
  else if 0x8000 ≤ off then maskOf 63 0
  else 0

/-- Whether a writer reaches an offset at all: instruction memory and program slots are not CSET's (R98, R134), the
detour entries neither (R251), and a host reaches programs and sequencer registers only while the tile is IDLE or
FINISHED (R98, R134). -/
def ctlAllowed (w : Writer) (t : Tile) (off : Nat) : Bool :=
  let prog := decide (0x2000 ≤ off ∧ off < 0x4000) || decide (0x8000 ≤ off)
  let resting := t.sq.st = .idle || t.sq.st = .finished
  match w with
  | .cset => !prog && !decide (0x1080 ≤ off ∧ off < 0x10C0)
  | .host => !prog || resting
  | .record | .frame => true

/-- A tagged region's slots (R183): first, count, when enabled and not empty. -/
def tregRange (w : W64) : Option (Nat × Nat) :=
  if bitAt w 25 ∧ fld w 24 12 ≠ 0 then some (fld w 11 0, fld w 24 12) else none

def rangesMeet (a b : Nat × Nat) : Bool := overlaps a.1 a.2 b.1 b.2

/-- The slot ranges of a declared queue: area and spill area (R254). -/
def declRanges (q : RecvQueue) : List (Nat × Nat) :=
  if fld q.w0 23 12 = 0 then []
  else (fld q.w0 11 0, fld q.w0 23 12) :: (if fld q.w2 23 12 = 0 then [] else [(fld q.w2 11 0, fld q.w2 23 12)])

def tregRanges (p : Pad) : List (Nat × Nat) := (List.range 8).filterMap fun n => tregRange (arrGet p.treg n 0)

/-- All pairs of a list are apart. -/
def allApart : List (Nat × Nat) → Bool
  | [] => true
  | a :: t => t.all (fun b => !rangesMeet a b) && allApart t

/-- FIRST + COUNT of a TREG does not exceed 4,096 (R184). -/
def tregInside (w : W64) : Bool := decide (fld w 11 0 + fld w 24 12 ≤ 4096)

/-- R184: FIRST + COUNT stays inside the scratchpad, the enabled regions are apart, and hold no queue or spill area. -/
def tregsOk (t : Tile) : Bool :=
  let rs := tregRanges t.pad
  let qs := (List.range 16).flatMap fun q => declRanges (queueN t.net q)
  ((List.range 8).all fun n => tregInside (arrGet t.pad.treg n 0)) && allApart rs && rs.all fun r => qs.all fun q => !rangesMeet r q

/-- R254: the declaration of queue n is valid. -/
def declOk (t : Tile) (n : Nat) : Bool :=
  let q := queueN t.net n
  let nslot := fld q.w0 23 12
  let maxlen := fld q.w0 29 24
  let mode := fld q.w0 37 36
  let hwm := fld q.w1 16 0
  let nt := fld q.w0 53 51 + 1
  let cc := fld q.w0 50 39 + 1
  let a := (maxlen + 1) * (if bitAt q.w0 38 then 2 else 1)
  let mine := declRanges q
  let others := ((List.range 16).filter (· ≠ n)).flatMap fun k => declRanges (queueN t.net k)
  if nslot = 0 then true
  else
    (mine.all fun r => decide (r.1 + r.2 ≤ 4096)) && allApart mine &&
    (mine.all fun r => (tregRanges t.pad ++ others).all fun o => !rangesMeet r o) &&
    (if mode = 0 then decide (16 * nslot ≥ 2 * (maxlen + 2))
      else decide (16 * nslot ≥ nt * a + 2 * (maxlen + 2) + (if mode = 1 then nt * cc * (maxlen + 2) else 0))) &&
    decide (fld q.w0 35 30 ≤ maxlen + 1) &&
    (hwm = 0 || decide (fld q.w1 33 17 < hwm ∧ hwm ≤ 16 * nslot)) &&
    decide (mode ≠ 3) && (mode = 0 || fld q.w2 23 12 = 0)

/-- Tags of two words written (R185). -/
def setTags (p : Pad) (w v n : Nat) : Pad :=
  { p with tags := (List.range n).foldl (fun a b => arrSet a (32 * w + b) (nbit v b) false) p.tags }

/-- Store the 64 bits `v` (writable bits of the new word) at an offset; `m` are the bits written. -/
def ctlStore (t : Tile) (w : Writer) (off : Nat) (v m : W64) : Tile :=
  let i := off / 8
  if off = 0x8 then { t with sq := { t.sq with entry := v.setWidth 12, markLate := (v >>> 32).setWidth 32 } }
  else if 0x100 ≤ off ∧ off < 0x180 then
    let k := i - 0x20
    let la := match w with
      | .record | .host =>
        if w = .record ∨ t.sq.st = .idle ∨ t.sq.st = .finished then arrSet t.sq.launch k ((arrGet t.sq.launch k 0 &&& ~~~m) ||| (v &&& m)) 0
        else t.sq.launch
      | _ => t.sq.launch
    { t with sq := { t.sq with s := arrSet t.sq.s k v 0, launch := la } }
  else if off = 0x200 then
    { t with arithCtrl := v.setWidth 32, arithStatus := t.arithStatus &&& ~~~((v &&& m) >>> 32).setWidth 32 }
  else if off = 0x218 then { t with mx := { t.mx with scale0 := v.setWidth 32, scale1 := (v >>> 32).setWidth 32 } }
  else if 0x300 ≤ off ∧ off < 0x340 then { t with pad := { t.pad with treg := arrSet t.pad.treg (i - 0x60) v 0 } }
  else if 0x400 ≤ off ∧ off < 0x500 then { t with mx := { t.mx with mxd := arrSet t.mx.mxd (i - 0x80) v 0 } }
  else if 0x600 ≤ off ∧ off < 0x800 then { t with vx := { t.vx with vxd := arrSet t.vx.vxd (i - 0xC0) v 0 } }
  else if 0x800 ≤ off ∧ off < 0xAC8 then { t with sq := { t.sq with stall := arrSet t.sq.stall (i - 0x100) v 0 } }
  else if 0xB00 ≤ off ∧ off < 0xBC0 then
    { t with pad := { t.pad with slots := modAt t.pad.slots ((off - 0xB00) / 32) fun s =>
      match i % 4 with
      | 1 => { s with dlmiss := v }
      | 2 => { s with bytes := v }
      | _ => { s with tagwait := v } } }
  else if 0xC00 ≤ off ∧ off < 0xE00 then
    { t with net := modQueue t.net ((off - 0xC00) / 32) fun q =>
      if q.opened then q
      else match i % 4 with
        | 0 => { q with w0 := v }
        | 1 => { q with w1 := v }
        | _ => { q with w2 := v } }
  else if 0xE00 ≤ off ∧ off < 0x1000 then
    { t with net := modQueue t.net ((off - 0xE00) / 32) fun q =>
      match i % 4 with
      | 1 => { q with msgs := v }
      | 2 => { q with qreset := v }
      | _ => { q with spilled := v } }
  else if 0x1000 ≤ off ∧ off < 0x1040 then { t with net := { t.net with spoil := arrSet t.net.spoil (i - 0x200) v 0 } }
  else if 0x1080 ≤ off ∧ off < 0x10C0 then { t with net := { t.net with detour := arrSet t.net.detour (i - 0x210) v 0, guided := false } }
  else if off = 0x1100 then { t with net := { t.net with npLimit := v.setWidth 32 } }
  else if 0x1800 ≤ off ∧ off < 0x2000 then
    { t with net := modQueue t.net ((off - 0x1800) / 128) fun q => { q with stall := arrSet q.stall (i % 16) v 0 } }
  else if 0x2000 ≤ off ∧ off < 0x4000 then { t with vx := { t.vx with prog := arrSet t.vx.prog (i - 0x400) v progEnd } }
  else if 0x4000 ≤ off ∧ off < 0x4800 then
    let k := (off - 0x4000) / 16
    let lo : W32 := v.setWidth 32
    let hi : W32 := (v >>> 32).setWidth 32
    if i % 2 = 0 then { t with vx := { t.vx with mx := arrSet t.vx.mx k lo negInf32, sm := arrSet t.vx.sm k hi 0 } }
    else { t with vx := { t.vx with s2 := arrSet t.vx.s2 k lo 0, al := arrSet t.vx.al k hi one32 } }
  else if 0x4800 ≤ off ∧ off < 0x4C00 then
    let j := (off - 0x4800) / 4
    { t with vx := { t.vx with carry := arrSet (arrSet t.vx.carry j (v.setWidth 32) 0) (j + 1) ((v >>> 32).setWidth 32) 0 } }
  else if 0x5000 ≤ off ∧ off < 0x5040 then
    let j := (off - 0x5000) / 4
    { t with vx := { t.vx with bind := arrSet (arrSet t.vx.bind j (v.setWidth 32) 0) (j + 1) ((v >>> 32).setWidth 32) 0 } }
  else if 0x5800 ≤ off ∧ off < 0x5A00 then { t with pad := setTags t.pad ((off - 0x5800) / 4) v.toNat 64 }
  else if 0x6000 ≤ off ∧ off < 0x8000 then { t with sq := { t.sq with ldesc := arrSet t.sq.ldesc (i - 0xC00) v 0 } }
  else if 0x8000 ≤ off then { t with sq := { t.sq with imem := arrSet t.sq.imem (i - 0x1000) v 0 } }
  else t

/-- A write of the bits `m` of `v` at an offset, a multiple of 8 (R8, R152): reserved and RO bits are ignored; a CSET or
command record that breaks R184 or R254 is refused (R184, R254). -/
def ctlWrite64 (w : Writer) (t : Tile) (split off : Nat) (v m : W64) : Except TErr Tile :=
  let wm := m &&& BitVec.ofNat 64 (ctlMask off)
  if wm = 0 ∨ !ctlAllowed w t off then .ok t
  else
    let old := ctlRead64 t split off
    let t2 := ctlStore t w off ((old &&& ~~~wm) ||| (v &&& wm)) wm
    let checks := w = .cset || w = .record
    if checks && decide (0x300 ≤ off ∧ off < 0x340) && !tregsOk t2 then .error (badCond 1 [])
    else if checks && decide (0xC00 ≤ off ∧ off < 0xE00) && !declOk t2 ((off - 0xC00) / 32) then .error (badCond 1 [])
    else .ok t2

/-- A 32-bit or 64-bit write at a byte offset, a multiple of 4. -/
def ctlWrite (w : Writer) (t : Tile) (split off : Nat) (w64 : Bool) (v : W64) : Except TErr Tile :=
  let sh := (off % 8) * 8
  if w64 then ctlWrite64 w t split (off / 8 * 8) v (BitVec.ofNat 64 (2 ^ 64 - 1))
  else ctlWrite64 w t split (off / 8 * 8) (BitVec.ofNat 64 (v.toNat % 2 ^ 32 * 2 ^ sh)) (BitVec.ofNat 64 ((2 ^ 32 - 1) * 2 ^ sh))

/-- A 32-bit or 64-bit read at a byte offset, zero-extended (R152). -/
def ctlRead (t : Tile) (split off : Nat) (w64 : Bool) : W64 :=
  let v := ctlRead64 t split (off / 8 * 8)
  if w64 then v else BitVec.ofNat 64 (v.toNat / 2 ^ ((off % 8) * 8) % 2 ^ 32)

end Sys2Proof.Machine
end

