-- ==== Sys2Proof/Machine/Mesh.lean ====
section
/-! DEFINITION. The mesh (10_mesh_messages R242 to R252): gate routers, routes with their detour entries, and the flits that messages hold
in the routers' buffers, by virtual channel. A router's buffers are a view of the messages on their way (log 24). -/

namespace Sys2Proof.Machine

def msgFlits (m : Msg) : Nat := m.payload.length / 32

/-! ### Ports and gate routers (R242, R244)

Output ports of a router, as R251 numbers them: 0 north, 1 east, 2 south, 3 west, 4 gate; then 5 ejection, 6 to 9 the direct neighbour
links north, east, south and west, 10 injection. -/

/-- The router beyond a mesh port; none at the device edge (R242). -/
def beyond (t p : Nat) : Option Nat :=
  match p with
  | 0 => if 48 ≤ t then some (t - 48) else none
  | 1 => if t % 48 < 47 then some (t + 1) else none
  | 2 => if t / 48 < 47 then some (t + 48) else none
  | 3 => if 0 < t % 48 then some (t - 1) else none
  | _ => none

/-- The link at a mesh port, as the records number links (18 R444): the tile at its west or north end, and 0 east or 1 south. -/
def linkAt (t p : Nat) : Nat × Nat :=
  match p with
  | 0 => (t - 48, 1)
  | 1 => (t, 0)
  | 2 => (t, 1)
  | _ => (t - 1, 0)

/-- Level-local places of the gate routers, in the order north-west, north-east, south-east, south-west (R244). -/
def gatePlaces : List (Nat × Nat) := [(11, 11), (12, 11), (12, 12), (11, 12)]

/-- The tile at a place of Level n (01 R11). -/
def levelTile (n x y : Nat) : Nat := 48 * (24 * (n / 2) + y) + 24 * (n % 2) + x

/-- The quadrant of a tile in its Level (R244). -/
def quadrantOf (t : Nat) : Nat :=
  match t % 24 / 12, t / 48 % 24 / 12 with
  | 0, 0 => 0
  | _, 0 => 1
  | 0, _ => 3
  | _, _ => 2

/-- The gate router of quadrant q of Level n: the next quadrant's takes over for a retired tile (R244). -/
def gateRouter (s : State) (n q : Nat) : Nat :=
  let gates := (List.range 4).map fun i => let g := gatePlaces.getD ((q + i) % 4) (0, 0); levelTile n g.1 g.2
  (gates.find? fun t => !tileRetired s t).getD (gates.headD 0)

/-- The gate router that serves a tile. -/
def gateOf (s : State) (t : Nat) : Nat := gateRouter s (levelOf t) (quadrantOf t)

/-! ### Routes (R243, R250 to R252) -/

/-- The first enabled detour entry of router r whose rectangle holds tile d: its port (R251). -/
def detourPort (s : State) (r d : Nat) : Option Nat :=
  ((List.range 8).map fun k => arrGet (tileAt s r).net.detour k 0).find? (fun w =>
    bitAt w 27 && decide (fld w 5 0 ≤ d % 48) && decide (d % 48 ≤ fld w 11 6) && decide (fld w 17 12 ≤ d / 48) &&
      decide (d / 48 ≤ fld w 23 18)) |>.map fun w => fld w 26 24

/-- The port that router r sends a message for tile d out of; at d itself, `out` (R250, R251). -/
def routePort (s : State) (r d out : Nat) : Nat :=
  (detourPort s r d).getD
    (if r % 48 < d % 48 then 1 else if d % 48 < r % 48 then 3 else if r / 48 < d / 48 then 2 else if d / 48 < r / 48 then 0 else out)

/-- Routers and output ports from r on, until the message leaves the mesh or no link goes on: a retired tile's router forwards nothing
and a disabled link carries nothing (R252, 18 R428). -/
def routeFrom (s : State) (d out : Nat) : Nat → Nat → List (Nat × Nat)
  | 0, _ => []
  | k + 1, r =>
    if tileRetired s r then []
    else
      let p := routePort s r d out
      (r, p) :: (match beyond r p with
        | some u => if s.links.contains (linkAt r p) then [] else routeFrom s d out k u
        | none => [])

/-- The port of the direct neighbour link from tile a to tile b, while it is enabled (R243, 01 R23, 18 R428). -/
def directPort (s : State) (a b : Nat) : Option Nat :=
  if levelOf a ≠ levelOf b then none
  else ((List.range 4).find? fun p => beyond a p = some b && !s.links.contains ((linkAt a p).1, (linkAt a p).2 + 2)).map (· + 6)

/-- The hub injects the message: a delivery, or a message from another device (R248). -/
def fromHub (s : State) (m : Msg) : Bool := m.kind = 2 || m.sdev ≠ deviceId s

/-- The router where a message enters the mesh (R244). -/
def startRouter (s : State) (m : Msg) : Nat := if fromHub s m then gateOf s m.dtile else m.stile

/-- The router where it leaves the mesh: its destination's, or for another device the gate router of its sender's quadrant (R244). -/
def endRouter (s : State) (m : Msg) : Nat := if m.ddev = deviceId s then m.dtile else gateOf s m.stile

/-- The routers a message passes, each with its output port (R243, R250). A message for another device counts as one for its gate
router where detour entries are compared (log 49). -/
def routeOf (s : State) (m : Msg) : List (Nat × Nat) :=
  let a := startRouter s m
  let d := endRouter s m
  if m.ddev ≠ deviceId s then routeFrom s d 4 2304 a
  else match (if fromHub s m then none else directPort s a d) with
    | some p => if tileRetired s d then [(a, p)] else [(a, p), (d, 5)]
    | none => routeFrom s d 5 2304 a

/-- The route ends where the message leaves the mesh, or passes a router whose detour entries the Level controller has chosen: those
lead around what is out of service (R252). -/
def routeArrives (s : State) (m : Msg) : Bool :=
  let l := routeOf s m
  l.getLast? = some (endRouter s m, if m.ddev = deviceId s then 5 else 4) || l.any fun x => (tileAt s x.1).net.guided

/-- The last router on a message's path that is live (R252). -/
def lastLiveRouter (s : State) (m : Msg) : Nat := (((routeOf s m).getLast?).map (·.1)).getD (startRouter s m)

/-! ### What waiting messages hold (R248, R249, R265) -/

/-- The virtual channel of a data message (R248): 2 for what the hub injects, else 1. -/
def vcOf (s : State) (m : Msg) : Nat := if fromHub s m then 2 else 1

/-- The buffers and output channels of one virtual channel that messages which wait hold: the flits in the buffer beyond an output port,
and the output ports whose channel a message keeps. -/
structure Jam where
  flits : List ((Nat × Nat) × Nat)
  ports : List (Nat × Nat)
deriving DecidableEq, Repr

def jamAt (j : Jam) (l : Nat × Nat) : Nat := ((j.flits.filter (·.1 = l)).map (·.2)).sum

/-- n flits stand in the buffers of links given from the head back, eight in each; the channel of a link that flits have still to pass is
kept (R249). The flits that find no room are left. -/
def fillBack : List (Nat × Nat) → Nat → Jam → Jam × Nat
  | [], n, j => (j, n)
  | l :: ls, n, j =>
    let k := min n (8 - jamAt j l)
    let j1 := { j with flits := (l, k) :: j.flits }
    if n = k then (j1, 0) else fillBack ls (n - k) { j1 with ports := l :: j1.ports }

/-- The buffers along a route: those beyond its links; for a message to its own tile, the injection port's (log 24). -/
def routeBuffers (l : List (Nat × Nat)) : List (Nat × Nat) :=
  let ls := l.dropLast
  if ls.isEmpty then (l.take 1).map fun x => (x.1, 10) else ls

/-- What a message waiting at its ejection port holds: that port's channel, and buffers back from it (R265). -/
def jamWaiting (s : State) (m : Msg) (j : Jam) : Jam × Nat :=
  let l := routeOf s m
  fillBack (routeBuffers l).reverse (msgFlits m + 1) { j with ports := l.getLast?.toList ++ j.ports }

/-- What a message meets on its route that is held, and where: none when its way is clear. -/
def jamMeets (j : Jam) (l : List (Nat × Nat)) : Option Nat :=
  indexWhere (fun x => j.ports.contains x || decide (0 < jamAt j x)) l

/-- What a message that meets a held channel or buffer holds itself. -/
def jamBehind (s : State) (m : Msg) (k : Nat) (j : Jam) : Jam × Nat :=
  let l := routeOf s m
  let own := l.take k ++ (match l[k]? with | some x => if j.ports.contains x then [] else [x] | none => [])
  fillBack (own.filter fun x => x.2 ≠ 5 && x.2 ≠ 4).reverse (msgFlits m + 1) j

/-- The messages of a virtual channel that cannot move, by position, with the flits of each that are not injected yet, and what they hold:
those waiting at their ejection ports, then, in the order of injection, those that meet them (R265). -/
def jamOf (s : State) (v : Nat) : Jam × List (Nat × Nat) :=
  let all := (List.range s.net.length).zip s.net |>.filter fun (p : Nat × NetMsg) => vcOf s p.2.msg = v && !p.2.held
  let first := (all.filter fun p => p.2.waiting).foldl (fun (a : Jam × List (Nat × Nat)) p =>
    let r := jamWaiting s p.2.msg a.1
    (r.1, a.2 ++ [(p.1, r.2)])) ({ flits := [], ports := [] }, [])
  (all.filter fun p => !p.2.waiting).foldl (fun (a : Jam × List (Nat × Nat)) p =>
    match jamMeets a.1 (routeOf s p.2.msg) with
    | some k => let r := jamBehind s p.2.msg k a.1; (r.1, a.2 ++ [(p.1, r.2)])
    | none => a) first

/-- No message waits at an ejection port, so that none is held by another. -/
def meshClear (s : State) : Bool := s.net.all fun n => !n.waiting

/-- A message's way is clear: it waits at its ejection port already, or nothing on its route is held (R249, R265). -/
def wayClear (s : State) (i : Nat) (n : NetMsg) : Bool :=
  meshClear s || n.waiting || !((jamOf s (vcOf s n.msg)).2.any fun x => x.1 = i)

/-- Messages of one sender that take one path arrive in the order they were sent (R250). -/
def firstOfPath (s : State) (i : Nat) (m : Msg) : Bool :=
  (s.net.take i).all fun n => !(n.msg.stile = m.stile && n.msg.sdev = m.sdev && n.msg.dtile = m.dtile && n.msg.ddev = m.ddev &&
    vcOf s n.msg = vcOf s m)

/-- Message i may leave the mesh now (R249 to R252). A message on the old path of a route update goes on there. -/
def mayLeave (s : State) (i : Nat) (n : NetMsg) : Bool :=
  !n.held && firstOfPath s i n.msg && wayClear s i n && (n.old || routeArrives s n.msg)

/-! ### Injection (R156, R265) -/

/-- Messages of the tile that have not left the mesh. -/
def underWay (s : State) (t : Nat) : List NetMsg :=
  s.net.filter fun n => decide (n.msg.kind < 2) && n.msg.stile = t && n.msg.sdev = deviceId s

/-- The flits of the tile's messages to one tile exceed the buffers of their path (log 24); those held for a route update stand at their
own router (R252). -/
def pathFull (s : State) (l : List NetMsg) (n : NetMsg) : Bool :=
  let same := l.filter fun x => x.msg.dtile = n.msg.dtile && x.msg.ddev = n.msg.ddev
  let room := if n.held then 8 else 8 * (routeBuffers (routeOf s n.msg)).length
  decide (room < (same.map fun x => msgFlits x.msg + 1).sum)

/-- The tile's injection port has no room for a flit because a message it needs to pass waits: the head waits under MESH (R265). -/
def injectionHeld (s : State) (t : Nat) : Bool :=
  let l := underWay s t
  (l.any fun n => (n.waiting || n.held) && pathFull s l n) ||
    (!meshClear s && (jamOf s 1).2.any fun x => decide (0 < x.2) &&
      (match s.net[x.1]? with | some n => n.msg.stile = t && n.msg.sdev = deviceId s | none => false))

/-- The tile's injection port has no room for a flit (R156, R265). -/
def injectionFull (s : State) (t : Nat) : Bool :=
  let l := underWay s t
  (l.any fun n => pathFull s l n) || injectionHeld s t

/-- A new message between two routers of which one is still on the old path of a route update is held at its router (R252). -/
def heldBehindOld (s : State) (m : Msg) : Bool :=
  s.net.any fun n => n.old && startRouter s n.msg = startRouter s m && endRouter s n.msg = endRouter s m

/-- A data message enters the mesh. -/
def injectMsg (s : State) (m : Msg) : State :=
  { s with net := s.net ++ [
      { msg := m, waiting := false, age := 0, held := heldBehindOld s m, old := false, hub := m.ddev ≠ deviceId s }] }

/-- A route update from state s0 to s (R252): the messages whose path it changes are on the old path. -/
def holdRoutes (s0 s : State) : State :=
  { s with net := s.net.map fun n => if !n.held && routeOf s0 n.msg ≠ routeOf s n.msg then { n with old := true } else n }

end Sys2Proof.Machine
end

