-- ==== Sys2Proof/Machine/Chains.lean ====
section
/-! DEFINITION. Fused chains: the menu, canonical sequences and the checks of bound runs (05_fused_chains). -/

namespace Sys2Proof.Machine

/-- A canonical instruction: the fields R122 compares; `imm` none where the immediate is free. DESIGN CHOICE (log 61): a register
field that the instruction does not use must be 0, as R122 compares it and gives no value; the fields of the closing END are not
compared. -/
structure CInstr where
  op : Nat
  vd : Nat
  va : Nat
  vb : Nat
  vc : Nat
  isel : Nat
  fmt : Option Nat
  imm : Option Nat
deriving DecidableEq, Repr

def ci (op vd va vb : Nat) : CInstr :=
  { op := op, vd := vd, va := va, vb := vb, vc := 0, isel := 0, fmt := some 0, imm := none }

/-- Load of port p into v. -/
def ciLd (vd p : Nat) : CInstr := ci 0x28 vd p 0
/-- Operation with an immediate as b. -/
def ciImm (op vd va : Nat) (imm : Option Nat) : CInstr := { ci op vd va 0 with isel := 1, imm := imm }
/-- FMA with registers. -/
def ciFma (vd va vb vc : Nat) : CInstr := { ci 0x05 vd va vb with vc := vc }

/-- Stages of R122. -/
inductive Stage where
  | dq | dqi | bias | relu | gelu | silu | glu | res | save | out | stout | rowsq | n1 | n2 | n3
deriving DecidableEq, Repr

/-- The canonical sequence of a stage (R122, R129): `x` is the extra input port it uses, `k` its stage number. -/
def stageCode (s : Stage) (x k : Nat) : List CInstr :=
  match s with
  | .dq => [ciLd 0 0, ci 0x29 1 0 0, ci 0x04 0 0 1]
  | .dqi => [ciLd 0 0, ciLd 1 1, ci 0x18 0 0 1, ci 0x0E 0 0 0, ci 0x29 1 0 0, ci 0x04 0 0 1]
  | .bias | .res => [ciLd 1 x, ci 0x02 0 0 1]
  | .relu => [ciImm 0x08 0 0 (some 0)]
  | .gelu => [ciImm 0x04 1 0 (some 0x3F3504F3), ci 0x25 1 1 0, ciImm 0x04 2 0 (some 0x3F000000), ciFma 0 2 1 2]
  | .silu => [ciImm 0x04 1 0 (some 0x3F000000), ci 0x24 2 1 0, ciFma 0 1 2 1]
  | .glu => [ciLd 1 x, ci 0x04 0 0 1]
  | .save => [{ ci 0x2A 1 0 0 with imm := some k }]
  | .out => [{ ci 0x2A 0 0 0 with imm := some k }]
  | .stout => [{ ci 0x0D 1 0 0 with fmt := none, imm := some k }, { ci 0x2A 0 1 0 with imm := some k }, ci 0x04 2 1 1,
      ci 0x32 0 2 0]
  | .rowsq => [ciLd 0 0, ci 0x04 1 0 0, ci 0x32 0 1 0]
  | .n1 => [ciLd 0 0, ci 0x38 1 0 0, { ci 0x2A 0 1 0 with imm := some k }]
  | .n2 => [ciLd 0 0, ci 0x30 0 0 0]
  | .n3 => [ciLd 0 0, ci 0x33 1 0 0, ciImm 0x04 1 1 none, ciImm 0x02 1 1 none, ci 0x23 1 1 0, ci 0x04 0 0 1,
      { ci 0x2A 0 0 0 with imm := some k }]

/-- Stages of a fusion code (R123) with the extra input port and the stage number of each; PART selects the run of F13. -/
def menu (code part : Nat) : List (Stage × Nat × Nat) :=
  match code with
  | 0 => [(.dq, 0, 1), (.out, 0, 2)]
  | 1 => [(.dq, 0, 1), (.bias, 1, 2), (.out, 0, 3)]
  | 2 => [(.dq, 0, 1), (.relu, 0, 2), (.out, 0, 3)]
  | 3 => [(.dq, 0, 1), (.gelu, 0, 2), (.out, 0, 3)]
  | 4 => [(.dq, 0, 1), (.bias, 1, 2), (.gelu, 0, 3), (.out, 0, 4)]
  | 5 => [(.dq, 0, 1), (.silu, 0, 2), (.glu, 1, 3), (.out, 0, 4)]
  | 6 => [(.dq, 0, 1), (.res, 1, 2), (.out, 0, 3)]
  | 7 => [(.dq, 0, 1), (.bias, 1, 2), (.res, 2, 3), (.out, 0, 4)]
  | 8 => [(.dq, 0, 1), (.res, 1, 2), (.stout, 0, 3)]
  | 9 => [(.dq, 0, 1), (.bias, 1, 2), (.res, 2, 3), (.stout, 0, 4)]
  | 10 => [(.dq, 0, 1), (.bias, 1, 2), (.save, 0, 3), (.gelu, 0, 4), (.out, 0, 5)]
  | 11 => [(.dqi, 1, 1), (.out, 0, 2)]
  | 12 => [(.dqi, 1, 1), (.bias, 2, 2), (.out, 0, 3)]
  | 13 => if part = 0 then [(.n1, 0, 1)] else if part = 1 then [(.n2, 0, 0)] else [(.n3, 0, 2)]
  | _ => [(.rowsq, 0, 1)]

/-- The rounding point RND v0, v0 to SFMT (R120). -/
def ciRound (sfmt k : Nat) : CInstr := { ci 0x0D 0 0 0 with fmt := some sfmt, imm := some k }

/-- The canonical program of a code before END (R120, R122). A stage that is neither last nor SAVE ends in an RND when SFMT
is not FP32. -/
def canonical (code part sfmt : Nat) : List CInstr :=
  let st := menu code part
  (st.zip (List.range st.length)).flatMap fun (s, i) =>
    stageCode s.1 s.2.1 s.2.2 ++
      (if i + 1 = st.length ∨ s.1 = .save ∨ sfmt = 0 then [] else [ciRound sfmt s.2.2])

def cinstrMatches (c : CInstr) (i : VInstr) : Bool :=
  c.op = i.op && c.vd = i.vd && c.va = i.va && c.vb = i.vb && c.vc = i.vc && c.isel = i.isel &&
    (match c.fmt with | some f => f = i.fmt | none => decide (i.fmt ≤ 2)) &&
    (match c.imm with | some v => v = i.imm | none => true)

def canonicalOk (code part sfmt : Nat) (p : List VInstr) : Bool :=
  let c := canonical code part sfmt
  c.length = p.length && (c.zip p).all fun x => cinstrMatches x.1 x.2

/-- FUSE_BIND's own fields (R121, R125). -/
def bindFieldsOk (b : W32) : Bool :=
  let code := fld b 3 0
  let part := fld b 6 5
  let sfmt := fld b 11 8
  decide (sfmt ≤ 2) && decide (part ≤ 2) && (code = 13 || part = 0) && (decide (code < 13) || sfmt = 0)

/-- The first condition of R126 that a bound run breaks, by row of its table; 0 for a binding or program that R125 would
have rejected. DESIGN CHOICE (log 61): a CSET's binding to a code that the image's fusion-code list lacks is not refused for that
here, as R126 lists no such condition. -/
def bindCheck (t : Tile) (d : RDesc) (p : List VInstr) (scan : Bool) : Option Nat :=
  let b := arrGet t.vx.bind d.slot 0
  if !bitAt b 4 then none
  else
    let code := fld b 3 0
    let part := fld b 6 5
    let sfmt := fld b 11 8
    let i0 := vport d 0
    let o0 := vport d 3
    let o1 := vport d 4
    let extras := (namedPorts p).filter fun i => i = 1 ∨ i = 2
    let fp := fun (q : VxPort) => decide (q.fmt ≤ 2)
    let glu := code = 5
    let dqi := code = 11 || code = 12
    let red := code = 8 || code = 9
    if !bindFieldsOk b || !canonicalOk code part sfmt p then some 0
    else if d.pack then some 1
    else if decide (code ≤ 12) && (i0.kind ≠ 2 || i0.bsel ≠ 2 || i0.fmt ≠ (if dqi then 7 else 0) ||
        extras.any (fun i =>
          let q := vport d i
          q.kind ≠ 1 || (if dqi && i = 1 then q.fmt ≠ 7 else if glu && i = 1 then q.fmt ≠ sfmt else !fp q)) ||
        (!red && (d.rsinit || d.rscommit)) || scan) then some 2
    else if red && (!fp o0 || (p.find? fun i => i.op = 0x0D ∧ i.vd = 1).any (fun i => i.fmt ≠ o0.fmt) || o1.kind ≠ 3 ||
        !d.rsinit || d.rscommit) then some 3
    else if code = 13 && (minmaxMode t ||
        (if part = 0 then !scan || !d.sdim || d.sci || d.sexcl || i0.fmt ≠ 0
         else if part = 1 then scan || !d.rsinit || !d.rscommit
         else scan || d.rsinit || d.rscommit || o0.kind ≠ 1)) then some 4
    else if decide (code ≥ 14) && (scan || i0.kind ≠ 1 || !fp i0 || decide (d.ncol > 128) || o1.kind ≠ 3 ||
        (code = 14 && !d.rsinit)) then some (if code = 14 then 5 else 6)
    else none

end Sys2Proof.Machine
end

