-- ==== Sys2Proof/Machine/Loops.lean ====
section
/-! DEFINITION. Loop nests, pointer lists, bounds and padding (07_loop_nests), as functions of one loop's copy. -/

namespace Sys2Proof.Machine

/-- Word w of a loop descriptor held as 64 words from index base. -/
def ldw (a : Arr W64) (w : Nat) : W64 := arrGet a w 0

/-- The 64 words of loop descriptor d (R168). -/
def ldCopy (q : Sequencer) (d : Nat) : Arr W64 :=
  (q.ldesc.filter fun e => e.1 / 64 = d).map fun e => (e.1 % 64, e.2)

def ldLevels (a : Arr W64) : Nat := fld (ldw a 0) 2 0
def ldPos (a : Arr W64) (k : Nat) : Nat := fld (ldw a 0) (3 * k + 5) (3 * k + 3)
def ldBdim (a : Arr W64) (s : Nat) : Nat := fld (ldw a (1 + s)) 2 0
def ldCbase (a : Arr W64) (s : Nat) : Int := sext 24 (fld (ldw a (1 + s)) 31 8)
def ldExt (a : Arr W64) (s : Nat) : Nat := fld (ldw a (1 + s)) 55 32
def ldClip (a : Arr W64) (l s : Nat) : Bool := bitAt (ldw a 7) (6 * l + s)
def ldBound (a : Arr W64) (l : Nat) : Nat := fld (ldw a (8 + 8 * l)) 23 0
def ldRem (a : Arr W64) (l : Nat) : Nat := fld (ldw a (8 + 8 * l)) 47 24
def ldPtr (a : Arr W64) (l : Nat) : Bool := bitAt (ldw a (8 + 8 * l)) 48
def ldPsel (a : Arr W64) (l s : Nat) : Bool := bitAt (ldw a (8 + 8 * l)) (49 + s)
def ldSsh (a : Arr W64) (l : Nat) : Nat := fld (ldw a (8 + 8 * l)) 59 55
def ldAstride (a : Arr W64) (l s : Nat) : Int := sext 40 (fld (ldw a (9 + 8 * l + s)) 39 0)
def ldSstride (a : Arr W64) (l s : Nat) : Int := sext 24 (fld (ldw a (9 + 8 * l + s)) 63 40)
def ldIstr (a : Arr W64) (l s : Nat) : Int :=
  if s = 2 then sext 32 (fld (ldw a (15 + 8 * l)) 31 0)
  else if s = 5 then sext 32 (fld (ldw a (15 + 8 * l)) 63 32)
  else 0

/-- The first condition of R169 a descriptor breaks, counted from 1; reserved bits read zero by construction. -/
def ldCheck (a : Arr W64) : Option Nat :=
  let n := ldLevels a
  let pos := (List.range 6).map (ldPos a)
  if ¬ (1 ≤ n ∧ n ≤ 6) then some 1
  else if ((pos.take n).eraseDups.length ≠ n) ∨ (pos.take n).any (fun p => n ≤ p) ∨ (pos.drop n).any (· ≠ 0) then some 2
  else if (List.range (6 - n)).any (fun k =>
      (List.range 8).any (fun w => ldw a (8 + 8 * (n + k) + w) ≠ 0) || (List.range 6).any fun s => ldClip a (n + k) s) then some 3
  else if (List.range 6).any (fun s => ldBdim a s = 6 || (ldBdim a s = 7 && (List.range 6).any fun l => ldClip a l s)) then some 4
  else if (List.range n).any (fun l => ldRem a l ≠ 0 && !(List.range 6).any fun s => ldClip a l s) then some 5
  else if (List.range n).any (fun l =>
      (ldPtr a l != (List.range 6).any fun s => ldPsel a l s) || (!ldPtr a l && ldSsh a l ≠ 0)) then some 6
  else if (List.range n).any (fun l => (List.range 6).any fun s => ldPsel a l s && ldClip a l s) then some 7
  else none

/-- The iteration count of the nest is zero (R170). -/
def ldEmpty (a : Arr W64) : Bool := (List.range (ldLevels a)).any fun l => ldBound a l = 0

/-- LEND's advance (R170): the position k moves; none when the loop is done. -/
def ldAdvance (a : Arr W64) : Nat → List Nat → Option (List Nat)
  | 0, _ => none
  | k + 1, idx =>
    let l := ldPos a k
    let v := idx.getD l 0 + 1
    if v < ldBound a l then some (idx.set l v) else ldAdvance a k (idx.set l 0)

/-- The levels that begin a new iteration at that LEND: the one that moves and those inside it (R170, R175). -/
def ldMoved (a : Arr W64) : Nat → List Nat → List Nat
  | 0, _ => []
  | k + 1, idx => let l := ldPos a k; if idx.getD l 0 + 1 < ldBound a l then [l] else l :: ldMoved a k idx

/-- Pointer levels whose entry for the current iteration has not been read (R175). -/
def ptrNeeded (p : ActiveLoop) : Option Nat :=
  (List.range (ldLevels p.desc)).find? fun l => ldPtr p.desc l && (p.entries.getD l none).isNone

/-- Address of the entry of level l (R174). -/
def ptrAddr (p : ActiveLoop) (l : Nat) : Nat :=
  match p.lists.getD l none with
  | some b => b.1 + 8 * p.idx.getD l 0
  | none => 0

/-- The entry of pointer level l (R174). -/
def entryOf (p : ActiveLoop) (l : Nat) : W64 := (p.entries.getD l none).getD 0

/-- Offsets of slot s from one loop (R171): walked address, scale plane, index base, and pad. -/
def loopOffsets (p : ActiveLoop) (s : Nat) : Int × Int × Int × Bool :=
  (List.range (ldLevels p.desc)).foldl (fun (o : Int × Int × Int × Bool) l =>
    let i : Int := (p.idx.getD l 0 : Nat)
    let io := o.2.2.1 + i * ldIstr p.desc l s
    if ldPtr p.desc l && ldPsel p.desc l s then
      let e := entryOf p l
      let q := sext 48 (fld e 47 0)
      (o.1 + q, o.2.1 + q / (2 ^ ldSsh p.desc l : Nat), io, o.2.2.2 || bitAt e 63)
    else (o.1 + i * ldAstride p.desc l s, o.2.1 + i * ldSstride p.desc l s, io, o.2.2.2)) (0, 0, 0, false)

/-- Sums over every enclosing loop (R172). -/
def nestOffsets (ps : List ActiveLoop) (s : Nat) : Int × Int × Int × Bool :=
  ps.foldl (fun o p => let q := loopOffsets p s; (o.1 + q.1, o.2.1 + q.2.1, o.2.2.1 + q.2.2.1, o.2.2.2 || q.2.2.2)) (0, 0, 0, false)

/-- t_b of R176 doubled, so that the half byte of F4W is whole. -/
def stride2 (strides : List Int) (f4 : Bool) (b : Nat) : Int := if b = 0 ∧ f4 then 1 else 2 * strides.getD b 0

/-- R176: whether the exactness conditions fail for slot s of one loop. -/
def boundBad (p : ActiveLoop) (s : Nat) (strides : List Int) (f4 : Bool) : Bool :=
  let b := ldBdim p.desc s
  if b = 7 then false
  else
    let t := stride2 strides f4 b
    (List.range (ldLevels p.desc)).any fun l =>
      ldClip p.desc l s && (let a := 2 * ldAstride p.desc l s; if t = 0 then a ≠ 0 else a % t ≠ 0)

/-- R177: whether the element with indices j of slot s is out of bounds for one loop. -/
def loopOut (p : ActiveLoop) (s : Nat) (strides : List Int) (f4 : Bool) (j : List Nat) : Bool :=
  let b := ldBdim p.desc s
  if b = 7 then false
  else
    let t := stride2 strides f4 b
    let jb := j.getD b 0
    let lv := (List.range (ldLevels p.desc)).filter fun l => ldClip p.desc l s
    let c : Int := lv.foldl (fun c l =>
      c + (p.idx.getD l 0 : Nat) * (if t = 0 then 0 else 2 * ldAstride p.desc l s / t)) (ldCbase p.desc s + jb)
    let ext := ldExt p.desc s
    (ext ≠ 0 && (decide (c < 0) || decide ((ext : Int) ≤ c))) ||
      lv.any fun l => p.idx.getD l 0 + 1 = ldBound p.desc l && ldRem p.desc l ≠ 0 && decide (ldRem p.desc l ≤ jb)

/-- R177 over the nest. -/
def elemOut (ps : List ActiveLoop) (s : Nat) (strides : List Int) (f4 : Bool) (j : List Nat) : Bool :=
  (nestOffsets ps s).2.2.2 || ps.any fun p => loopOut p s strides f4 j

/-- R175: a slot in PSEL with a scale plane needs the low SSH bits of P zero. -/
def ptrShiftBad (ps : List ActiveLoop) (s : Nat) : Bool :=
  ps.any fun p => (List.range (ldLevels p.desc)).any fun l =>
    ldPtr p.desc l && ldPsel p.desc l s && fld (entryOf p l) 47 0 % 2 ^ ldSsh p.desc l ≠ 0

end Sys2Proof.Machine
end

