-- ==== Sys2Proof/Machine/Sequencer.lean ====
section
/-! DEFINITION. Dispatch, the unit queues, control instructions, register instructions, and the matrix and vector rows
(06_tile_sequencer; 03, 04 and 05 for what the units do). -/

namespace Sys2Proof.Machine

/-- Head of queue k when it is the instruction with opcode `op`. -/
def headIs (t : Tile) (k op : Nat) : Option QEntry := (headOf t k).filter fun e => opc e.word = op

/-- The head of queue k is replaced. -/
def setHead (t : Tile) (k : Nat) (e : QEntry) : Tile := { t with q := qSet t.q k (e :: (qGet t.q k).drop 1) }

/-- A tile whose sequencer acts: RUNNING, or HALTED with its queues draining, and not stopped by a fault (R139, R165). -/
def tileLive (t : Tile) : Bool := (t.sq.st = .running || t.sq.st = .halted) && !t.sq.fault

/-- The unit queue an instruction is dispatched to (R135); none for a sequencer instruction, and for a reserved opcode or
queue code. -/
def queueOf (w : W64) : Option Nat :=
  match opc w with
  | 0x10 | 0x11 | 0x12 => some 0
  | 0x18 | 0x19 => some 1
  | 0x20 | 0x21 => some 2
  | 0x28 | 0x29 | 0x2A => some 3
  | 0x38 => some 4
  | 0x30 | 0x31 | 0x32 | 0x34 | 0x35 | 0x03 | 0x0C | 0x0D => if fld w 55 53 ≤ 4 then some (fld w 55 53) else none
  | _ => none

/-- The sequencer register a CSET or CGET names, if any (R137). -/
def csetReg (w : W64) : Option Nat :=
  let off := 4 * fld w 46 33
  if 0x100 ≤ off ∧ off < 0x180 then some ((off - 0x100) / 8) else none

/-- Sequencer registers read (R137). -/
def regsRead (w : W64) : List Nat :=
  match opc w with
  | 0x02 => [fld w 55 52]
  | 0x03 => if bitAt w 48 then [fld w 52 49] else []
  | 0x0C => if bitAt w 51 then [fld w 50 47] else []
  | 0x0D => (csetReg w).toList
  | 0x21 => if bitAt w 36 then [fld w 35 32] else []
  | 0x28 | 0x2A => if bitAt w 29 then [fld w 55 52, fld w 28 25] else [fld w 55 52]
  | _ => []

/-- Sequencer registers written when the instruction completes (R137). -/
def regsWritten (w : W64) : List Nat :=
  match opc w with
  | 0x29 => if bitAt w 42 then [] else if bitAt w 47 then [fld w 55 52, (fld w 55 52 + 1) % 16] else [fld w 55 52]
  | 0x38 => [fld w 55 52]
  | 0x0D => [fld w 51 48]
  | 0x0C => (csetReg w).toList
  | _ => []

/-- Register a captured as s[SA], or as the register a CGET reads, register b as s[SB] (R137). -/
def captureA (t : Tile) (w : W64) : W64 := arrGet t.sq.s ((regsRead w).getD 0 0) 0
def captureB (t : Tile) (w : W64) : W64 := arrGet t.sq.s ((regsRead w).getD 1 0) 0

def setPend (p : BitVec 16) (rs : List Nat) (b : Bool) : BitVec 16 := rs.foldl (fun a r => setFld a r r (b2n b)) p

/-- Write a sequencer register and clear its pending mark (R137). -/
def writeReg (t : Tile) (r : Nat) (v : W64) : Tile :=
  { t with sq := { t.sq with s := arrSet t.sq.s r v 0, pend := setPend t.sq.pend [r] false } }

/-- Instruction at the PC (R134). -/
def instrAt (q : Sequencer) (i : Nat) : W64 := arrGet q.imem i 0

/-- An executed sequencer instruction, counted in DISPATCHED. -/
def bumpDispatched (q : Sequencer) : Sequencer := bumpStall q 0x58

/-- Set the PC; past index 4,095 dispatch is a job-fatal error (R140). -/
def goTo (t : Tile) (pc : Nat) : Except TErr Tile :=
  if pc > 4095 then .error (badCond 1 []) else .ok { t with sq := { t.sq with pc := pc } }

/-- LOOP (R150, R169, R170, R175). -/
def doLoop (t : Tile) (w : W64) : Except TErr Tile :=
  let q := t.sq
  let d := fld w 55 52
  let a := ldCopy q d
  match ldCheck a with
  | some c => .error (badCond c [d])
  | none =>
    if q.loops.any (·.ld = d) then .error (badCond 1 [d])
    else if ldEmpty a then goTo { t with sq := bumpDispatched q } (fld w 11 0 + 1)
    else if q.loops.length ≥ 4 then .error (badCond 1 [d])
    else
      let lists := (List.range 6).map fun l =>
        if decide (l < ldLevels a) && ldPtr a l then
          (match arrGet q.plist (6 * d + l) (0, 0) with | (_, 0) => none | b => some b)
        else none
      if (List.range (ldLevels a)).any fun l => ldPtr a l &&
          (match lists.getD l none with | some b => decide (b.2 < ldBound a l) | none => true) then .error (badCond 1 [d])
      else
        let lp : ActiveLoop := {
          ld := d, at_ := q.pc, desc := a, idx := List.replicate 6 0, lists := lists,
          entries := List.replicate 6 none }
        goTo { t with sq := { bumpDispatched q with loops := lp :: q.loops } } (q.pc + 1)

/-- LEND (R150, R170): a level that begins a new iteration has its entry read again (R175). -/
def doLend (t : Tile) (w : W64) : Except TErr Tile :=
  let q := t.sq
  match q.loops with
  | [] => .error (badCond 1 [fld w 55 52])
  | lp :: rest =>
    if lp.ld ≠ fld w 55 52 then .error (badCond 1 [fld w 55 52])
    else
      match ldAdvance lp.desc (ldLevels lp.desc) lp.idx with
      | some idx =>
        let moved := ldMoved lp.desc (ldLevels lp.desc) lp.idx
        let ents := (List.range 6).map fun l => if moved.contains l then none else lp.entries.getD l none
        goTo { t with sq := { bumpDispatched q with loops := { lp with idx := idx, entries := ents } :: rest } } (lp.at_ + 1)
      | none => goTo { t with sq := { bumpDispatched q with loops := rest } } (q.pc + 1)

/-- PLIST (R151); a level the load rejects (R147) is job-fatal here (log 20), and one that is no pointer level takes no binding
(R174). -/
def doPlist (t : Tile) (w : W64) : Except TErr Tile :=
  let q := t.sq
  let addr := 8 * fld w 47 30
  let cnt := fld w 11 0 + 1
  if addr + 8 * cnt > 0x200000 ∨ fld w 51 49 > 5 then .error (badCond 1 [fld w 55 52])
  else if !ldPtr (ldCopy q (fld w 55 52)) (fld w 51 49) then goTo { t with sq := bumpDispatched q } (q.pc + 1)
  else goTo { t with sq := { bumpDispatched q with plist := arrPut q.plist (6 * fld w 55 52 + fld w 51 49) (addr, cnt) false } }
    (q.pc + 1)

/-- JNZ (R148); the register it tests is not pending. -/
def doJnz (t : Tile) (w : W64) : Except TErr Tile :=
  let q := t.sq
  let sa := fld w 55 52
  let v := arrGet q.s sa 0
  let tested := if bitAt w 50 then fld v 15 0 else v.toNat
  if tested = 0 then goTo { t with sq := bumpDispatched q } (q.pc + 1)
  else
    let q2 := if bitAt w 51 then { q with s := arrSet q.s sa (v - 1) 0 } else q
    goTo { t with sq := bumpStall (bumpDispatched q2) 0x57 } (fld w 11 0)

/-- Dispatch into unit queue k (R136, R137). -/
def doEnqueue (t : Tile) (w : W64) (k : Nat) : Except TErr Tile :=
  let q := t.sq
  let e : QEntry := {
    idx := q.pc, seq := q.count, word := w, a := captureA t w, b := captureB t w, loops := q.loops,
    sent := false, ready := false }
  goTo { t with
    q := qSet t.q k (qGet t.q k ++ [e])
    sq := { bumpDispatched q with count := q.count + 1, pend := setPend q.pend (regsWritten w) true } } (q.pc + 1)

/-- What holds the next instruction before its iteration's entries are read, by the counter it adds to (R136, R137, R164): QFULL,
then REG. -/
def dispatchStall (t : Tile) (w : W64) : Option Nat :=
  let pend := (regsRead w ++ regsWritten w).any fun r => bitAt t.sq.pend r
  match queueOf w with
  | some k => if (qGet t.q k).length ≥ 16 then some (0x50 + k) else if pend then some 0x55 else none
  | none => if pend then some 0x55 else none

/-- The sequencer's A-cycle when nothing holds it back (R135). Reserved opcodes and queue codes, which the load rejects
(R145, R147), are job-fatal here (log 20). -/
def dispatchOne (t : Tile) (w : W64) : Except TErr Tile :=
  match opc w with
  | 0x00 => .ok { t with sq := { bumpDispatched t.sq with st := .halted } }
  | 0x01 => goTo { t with sq := bumpStall (bumpDispatched t.sq) 0x57 } (fld w 11 0)
  | 0x02 => doJnz t w
  | 0x08 => doLoop t w
  | 0x09 => doLend t w
  | 0x0A => doPlist t w
  | _ =>
    match queueOf w with
    | some k => doEnqueue t w k
    | none => .error (badCond 1 [])

/-- Read the entry of level l of the innermost loop (R174, R175). -/
def readEntry (s : State) (t : Nat) (lp : ActiveLoop) (l : Nat) : Except TErr ActiveLoop :=
  let v : W64 := BitVec.ofNat 64 (leNat (padBytes s t (ptrAddr lp l) 8))
  if fld v 62 48 ≠ 0 then .error (badCond 1 [lp.ld]) else .ok { lp with entries := lp.entries.set l (some v) }

/-- Pointer entries the current iteration still needs, read while their slots are not empty: the loops, and whether a
read waits on a slot tag (R151, R175). -/
def readEntries (s : State) (t : Nat) : Nat → ActiveLoop → Except TErr (ActiveLoop × Bool)
  | 0, lp => .ok (lp, false)
  | k + 1, lp =>
    match ptrNeeded lp with
    | none => .ok (lp, false)
    | some l =>
      if slotEmptyAt s t (ptrAddr lp l / 512) then .ok (lp, true)
      else
        match readEntry s t lp l with
        | .error e => .error e
        | .ok lp2 => readEntries s t k lp2

/-- The loops with the innermost one's entries read. -/
def refreshLoops (s : State) (t : Nat) (ls : List ActiveLoop) : Except TErr (List ActiveLoop × Bool) :=
  match ls with
  | [] => .ok ([], false)
  | lp :: rest =>
    match readEntries s t 6 lp with
    | .error e => .error e
    | .ok (lp2, w) => .ok (lp2 :: rest, w)

/-- A tile's new value, or the job-fatal error of its instruction idx (R165). -/
def settle (s : State) (t idx : Nat) (r : Except TErr Tile) : Outcome :=
  match r with
  | .ok tl => .next (setTile s t tl)
  | .error e => .next (tileFatal s t 8 idx e)

/-- Gather lines that hold the entries about to be read are flushed (08 R190). -/
def flushPtr (s : State) (t : Nat) : State :=
  match (tileAt s t).sq.loops with
  | [] => s
  | lp :: _ => ((List.range (ldLevels lp.desc)).filter fun l => ldPtr lp.desc l && (lp.entries.getD l none).isNone).foldl
      (fun s l => flushPad s t (ptrAddr lp l) 8) s

/-- The sequencer's A-cycle at its next instruction (R135, R151): what holds it counts QFULL or REG; else the entries of the
iteration are read as it is dispatched, and a read that waits counts PTAG. -/
def dispatchStep (s : State) (t : Nat) (tl0 : Tile) : Outcome :=
  match dispatchStall tl0 (instrAt tl0.sq tl0.sq.pc) with
  | some c => .next (setTile s t { tl0 with sq := bumpStall tl0.sq c })
  | none =>
    let s1 := flushPtr s t
    let tl := tileAt s1 t
    match refreshLoops s1 t tl.sq.loops with
    | .error e => .next (tileFatal s1 t 8 tl.sq.pc e)
    | .ok (ls, wait) =>
      let tl1 := { tl with sq := { tl.sq with loops := ls } }
      if wait then .next (setTile s1 t { tl1 with sq := bumpStall tl1.sq 0x56 })
      else settle s1 t tl.sq.pc (dispatchOne tl1 (instrAt tl.sq tl.sq.pc))

/-- DISPATCH (R135 to R140, R148, R150, R151): one A-cycle of the sequencer. -/
def execDispatch (t : Nat) (s : State) : Outcome :=
  withTile s t fun tl => if tl.sq.st ≠ .running ∨ tl.sq.fault ∨ tilePaused s t then .next s else dispatchStep s t tl

/-- POINTER_ENTRY_READ (R151, R174, R175): the reads alone, when nothing else holds the instruction whose dispatch makes them. -/
def execPointerEntryRead (t : Nat) (s : State) : Outcome :=
  withTile s t fun tl0 =>
    if tl0.sq.st ≠ .running ∨ tl0.sq.fault ∨ tilePaused s t ∨ (dispatchStall tl0 (instrAt tl0.sq tl0.sq.pc)).isSome then .next s
    else
      let s1 := flushPtr s t
      let tl := tileAt s1 t
      match refreshLoops s1 t tl.sq.loops with
      | .error e => .next (tileFatal s1 t 8 tl.sq.pc e)
      | .ok (ls, _) => .next (setTile s1 t { tl with sq := { tl.sq with loops := ls } })

/-- A row for the head of queue k of tile t with opcode op: nothing happens when that is not the head (log 4). -/
def withHead (s : State) (t k op : Nat) (f : Tile → QEntry → Outcome) : Outcome :=
  withTile s t fun tl =>
    if !tileLive tl || tilePaused s t || leaveWait s t then .next s
    else match headIs tl k op with
      | some e => f tl e
      | none => .next s

/-- The shaft count a MARK waits for (R149). -/
def markTarget (e : QEntry) : Nat :=
  if bitAt e.word 48 then (e.a.toNat + fld e.word 31 0) % 2 ^ 64 else fld e.word 31 0

/-- MARK (R149). One that has waited at the head is not late, however far the count has gone since. -/
def execMark (t q : Nat) (s : State) : Outcome :=
  withQueue q s <| withHead s t q 0x03 fun tl e =>
    let now := shaftCount s
    if now < markTarget e then .next (setTile s t (setHead tl q { e with sent := true }))
    else
      let late := !e.sent && decide (markTarget e < now) && decide (tl.sq.markLate.toNat < 2 ^ 32 - 1)
      let p := popHead tl q
      .next (setTile s t { p with sq := { p.sq with markLate := if late then p.sq.markLate + 1 else p.sq.markLate } })

/-- Whether a CSET's target register holds it (R143: R82, R94, R109, R115, R121). -/
def csetHeld (t : Tile) (e : QEntry) : Bool :=
  let off := 4 * fld e.word 46 33
  let run := t.vx.run.isSome
  (decide (0x600 ≤ off ∧ off < 0x800) && run) || (decide (0x4000 ≤ off ∧ off < 0x4C00) && run) ||
    (decide (0x5000 ≤ off ∧ off < 0x5040) && run) ||
    (decide (0x218 ≤ off ∧ off < 0x21C) && !bankFree t 0 e.seq) ||
    ((decide (0x21C ≤ off ∧ off < 0x220) || (off = 0x218 && bitAt e.word 52)) && !bankFree t 1 e.seq)

/-- CSET (R143, R152). -/
def execCset (t q : Nat) (s : State) : Outcome :=
  withQueue q s <| withHead s t q 0x0C fun tl e =>
    if csetHeld tl e then .next s
    else
      let v := if bitAt e.word 51 then e.a else BitVec.ofNat 64 (fld e.word 31 0)
      match ctlWrite .cset tl (jobSplit s) (4 * fld e.word 46 33) (bitAt e.word 52) v with
      | .error x => .next (tileFatal s t 8 e.idx x)
      | .ok t2 =>
        let p := popHead t2 q
        .next (setTile s t { p with sq := { p.sq with pend := setPend p.sq.pend (csetReg e.word).toList false } })

/-- CGET (R143, R152); of s0 to s15 it gives what it captured at dispatch (R137). -/
def execCget (t q : Nat) (s : State) : Outcome :=
  withQueue q s <| withHead s t q 0x0D fun tl e =>
    let off := 4 * fld e.word 46 33
    let r := ctlRead tl (jobSplit s) off (bitAt e.word 52)
    let v := if (csetReg e.word).isNone then r else if bitAt e.word 52 then e.a else BitVec.ofNat 64 (e.a.toNat / 2 ^ ((off % 8) * 8) % 2 ^ 32)
    .next (setTile s t (writeReg (popHead tl q) (fld e.word 51 48) v))

/-- The ports of a queued run name bank b (R82). -/
def runNames (t : Tile) (e : QEntry) (b : Nat) : Bool :=
  let d := rdesc t.vx (fld e.word 2 0)
  let p := progOf t.vx d.slot
  (namedPorts p).any fun i => (vport d i).kind = 2 && portBank t.mx (vport d i) = some b

/-! ### Accesses of stream chains to the accumulators (R82) -/

/-- Word w of a descriptor (R195). -/
def dw (d : Desc) (w : Nat) : Nat := leAt d.bytes (4 * w) 4
def dwf (d : Desc) (w hi lo : Nat) : Nat := nbits (dw d w) hi lo

def descKind (d : Desc) : Nat := dwf d 1 17 16

/-- Transfer descriptor (R195). -/
structure Xfer where
  addr : Nat
  nd : Nat
  last : Bool
  sig : Bool
  count : List Nat
  stride : List Int
  spaddr : Nat
  spp : Nat
deriving DecidableEq, Repr

def xferOf (d : Desc) : Xfer :=
  { addr := dw d 0 + dwf d 1 15 0 * 2 ^ 32, nd := dwf d 1 20 18 + 1, last := nbit (dw d 1) 21, sig := nbit (dw d 1) 22,
    count := (List.range 6).map fun k => dwf d (2 + 2 * k) 23 0,
    stride := (List.range 6).map fun k => sext 40 (dwf d (2 + 2 * k) 31 24 + dw d (3 + 2 * k) * 2 ^ 8),
    spaddr := dw d 14 + dwf d 15 15 0 * 2 ^ 32, spp := dwf d 15 31 16 }

/-- Local rows of a transfer descriptor: the product of counts 1 onward (R198). -/
def xferRows (x : Xfer) : Nat := ((x.count.take x.nd).drop 1).foldl (· * ·) 1

/-- Accumulator banks that n local rows from row r of a local end at `laddr` reach (R83, R198, R199). -/
def rowBanks (laddr r n : Nat) : List Nat :=
  if laddr < 0x200000 then []
  else
    let a := laddr - 0x200000 + 512 * r
    [a / 0x10000, (a + 512 * n - 1) / 0x10000].eraseDups

/-- A chain still has an access to bank b to make: its fetched descriptors, then those in scratchpad from `next` on, with the
attribute descriptor in force and its local rows so far (R82, R193, R194, R198). -/
def chainTouches (s : State) (t b : Nat) : Nat → List Desc → Nat → Option Desc → Nat → Bool
  | 0, _, _, _, _ => false
  | k + 1, burst, next, attr, row =>
    let d := burst.headD { addr := next, bytes := padBytes s t (64 * next) 64, dl := none, missed := false }
    let nxt := if burst.isEmpty then (next + 1) % 2 ^ 15 else next
    match descKind d, attr with
    | 3, _ => chainTouches s t b k [] (dwf d 0 14 0) attr row
    | 2, _ => chainTouches s t b k (burst.drop 1) nxt (some d) 0
    | 1, some a =>
      let x := xferOf d
      (dwf a 1 20 19 = 0 && (rowBanks (dwf a 0 23 0) row (xferRows x)).contains b) ||
        (!x.last && chainTouches s t b k (burst.drop 1) nxt attr (row + xferRows x))
    | _, _ => false

/-- A chain in progress (R82). -/
def chainNames (s : State) (t : Nat) (c : Chain) (b : Nat) : Bool := chainTouches s t b 32768 c.burst c.next c.attr c.row

/-- An access to bank b dispatched before `seq` that has not completed holds an MMA back (R82): the run in progress, runs and
chains still queued, chains in progress, and CSETs to the bank's scale. -/
def mmaHeld (s : State) (n : Nat) (t : Tile) (b seq : Nat) : Bool :=
  (match t.vx.run with | some r => decide (r.seq < seq) && r.banks.contains b | none => false) ||
  (t.q.vxq.any fun e => decide (e.seq < seq) && !e.sent && (opc e.word = 0x18 || opc e.word = 0x19) && runNames t e b) ||
  (t.q.sxq.any fun e => decide (e.seq < seq) && !e.sent && opc e.word = 0x20 &&
    chainTouches s n b 32768 [] (fld e.word 14 0) none 0) ||
  (t.pad.slots.any fun sl => match sl.chain with | some c => decide (c.seq < seq) && chainNames s n c b | none => false) ||
  ([1, 2, 3, 4].any fun k => (qGet t.q k).any fun e => decide (e.seq < seq) && opc e.word = 0x0C &&
    (let off := 4 * fld e.word 46 33; off = 0x218 + 4 * b || (off = 0x218 && bitAt e.word 52)))

/-- MMA or MMAZ at the head of MXQ (R68, R70 to R78, R82). -/
def startProduct (zero : Bool) (op t : Nat) (s : State) : Outcome :=
  withHead s t 0 op fun tl e =>
    if e.sent ∨ tl.mx.busy.isSome ∨ flightHolds tl.mx (fillBank tl.mx) ∨ mmaHeld s t tl (fillBank tl.mx) e.seq then .next s
    else match mmaStart zero tl (fld e.word 2 0) with
      | .error x => .next (tileFatal s t 8 e.idx x)
      | .ok t2 => .next (setTile s t (setHead t2 0 { e with sent := true }))

/-- MMA (R74). -/
def execMma (t : Nat) (s : State) : Outcome := startProduct false 0x10 t s

/-- MMAZ (R78). -/
def execMmaz (t : Nat) (s : State) : Outcome := startProduct true 0x11 t s

/-- MMA_COMPLETE (R67, R144). -/
def execMmaComplete (t : Nat) (s : State) : Outcome :=
  withTile s t fun tl =>
    if !tileLive tl then .next s
    else match headOf tl 0, tl.mx.busy with
      | some e, some r => if e.sent then .next (finishMma s t tl r) else .next s
      | _, _ => .next s

/-- ACCSW (R80). -/
def execAccsw (t : Nat) (s : State) : Outcome :=
  withHead s t 0 0x12 fun tl _ =>
    let b := fillBank tl.mx
    if bankSt tl.mx (1 - b) ≠ .idle then .next s
    else .next (setTile s t (popHead { tl with mx := setBankSt (setBankSt tl.mx b .drain) (1 - b) .fill } 0))

/-- Whether a run at the head waits (R97): the previous run, a bank in DRAIN for BSEL 2, or R82. -/
def runHeld (t : Tile) (e : QEntry) : Bool :=
  let d := rdesc t.vx (fld e.word 2 0)
  let p := progOf t.vx d.slot
  t.vx.run.isSome ||
  ((namedPorts p).any fun i => (vport d i).kind = 2 && (vport d i).bsel = 2 && (drainBank t.mx).isNone) ||
  ((runBanks t.mx d p).any fun b => !bankFree t b e.seq)

/-- The checks at the start of a run (R96, R126): in table order; a program that R101 would have rejected is refused as a
tenth condition (log 21). -/
def runRefused (t : Tile) (e : QEntry) (scan : Bool) : Option TErr :=
  let dn := fld e.word 2 0
  let d := rdesc t.vx dn
  let p := progOf t.vx d.slot
  match runCheck t.mx d p scan with
  | some c => some (badCond c [dn])
  | none =>
    if !progOk (progBound t.vx d.slot) then some (badCond 10 [dn])
    else match bindCheck t d p scan with
      | some c => some { status := stFusionUnsupported, detail := [c, dn, fld (arrGet t.vx.bind d.slot 0) 3 0] }
      | none => none

/-- VRUN or VSCAN at the head of VXQ (R97). -/
def startRun (scan : Bool) (op t : Nat) (s : State) : Outcome :=
  withHead s t 1 op fun tl e =>
    if e.sent ∨ runHeld tl e then .next s
    else match runRefused tl e scan with
      | some x => .next (tileFatal s t 8 e.idx x)
      | none => .next (setTile s t (setHead (runStart (jobSeed s) scan tl e) 1 { e with sent := true }))

/-- VRUN (R97). -/
def execVrun (t : Nat) (s : State) : Outcome := startRun false 0x18 t s

/-- VSCAN (R113). -/
def execVscan (t : Nat) (s : State) : Outcome := startRun true 0x19 t s

/-- Every unit queue is empty and every chain has finished (R139). -/
def tileDrained (t : Tile) : Bool :=
  t.q.mxq.isEmpty && t.q.vxq.isEmpty && t.q.sxq.isEmpty && t.q.nxq.isEmpty && t.q.yxq.isEmpty &&
    t.mx.busy.isNone && t.vx.run.isNone && t.pad.slots.all fun sl => sl.chain.isNone

end Sys2Proof.Machine
end

