-- ==== Sys2Proof/Machine/Streams.lean ====
section
/-! DEFINITION. Stream slots, descriptor chains, element transfers, tags, deadlines, the write-gather buffer's rows
(08_scratchpad_streams). -/

namespace Sys2Proof.Machine

/-- Attribute descriptor (R197). -/
structure Attr where
  laddr : Nat
  zp : Int
  lpitch : Nat
  dir : Bool
  lkind : Nat
  tagm : Nat
  fmt : Nat
  rmode : Nat
  scp : Bool
  dlact : Bool
  scale : W32
  pad : Nat
  tid : Nat
  ibase : Nat
  dlm : Nat
  lfmt : Nat
  istr1 : Nat
  dl : Nat
  dtally : Nat
  dtn : Nat
  lrows : Nat
deriving DecidableEq, Repr

def attrOf (d : Desc) : Attr :=
  { laddr := dwf d 0 23 0, zp := sext 8 (dwf d 0 31 24), lpitch := dwf d 1 15 0, dir := nbit (dw d 1) 18, lkind := dwf d 1 20 19,
    tagm := dwf d 1 22 21, fmt := dwf d 1 26 23, rmode := dwf d 1 29 27, scp := nbit (dw d 1) 30, dlact := nbit (dw d 1) 31,
    scale := BitVec.ofNat 32 (dw d 2), pad := dw d 3, tid := dw d 4, ibase := dw d 5 + dwf d 6 15 0 * 2 ^ 32, dlm := dwf d 6 17 16,
    lfmt := dwf d 6 21 18, istr1 := dwf d 7 27 0, dl := dw d 8 + dwf d 9 7 0 * 2 ^ 32, dtally := dwf d 9 19 8, dtn := dwf d 9 27 20,
    lrows := dwf d 10 12 0 }

/-- Element size in bytes, STRIDE0's value (R195). -/
def strideUnit (f : Fmt) : Int := match f with
  | .f4w => 1
  | f => (fmtBits f / 8 : Nat)

/-- Header bytes before the local rows (R198). -/
def localHead (a : Attr) : Nat := if a.lkind = 1 then 64 else 0

/-- Bytes from LADDR that the governed rows take: header, rows and local scale plane (R198). -/
def localExtent (a : Attr) (rows n0 : Nat) : Nat :=
  let last := if rows = 0 then 0 else (rows - 1) * a.lpitch + rowBytes (fmtD a.lfmt) n0
  let plane := if a.scp && a.lfmt = a.fmt && fmtShort (fmtD a.fmt) then a.lrows * a.lpitch + rows * cdiv n0 32 else 0
  localHead a + max last plane

/-- Reserved fields of an attribute descriptor (R197, R204 row 2). -/
def attrReserved (d : Desc) : Bool :=
  let a := attrOf d
  decide (a.fmt > 7 ∨ a.lfmt > 7 ∨ a.rmode > 4 ∨ a.tagm = 3 ∨ a.dlm = 3 ∨ a.lkind > 1) ||
    dwf d 6 31 22 ≠ 0 || dwf d 7 31 28 ≠ 0 || dwf d 9 31 28 ≠ 0 || dwf d 10 31 13 ≠ 0 ||
    (List.range 5).any fun k => dw d (11 + k) ≠ 0

/-- Checks of an attribute descriptor when it is fetched (R204): the row of the table that fails. -/
def attrCheck (d : Desc) : Option Nat :=
  let a := attrOf d
  let acc := decide (0x200000 ≤ a.laddr ∧ a.laddr < 0x220000)
  let pad := decide (a.laddr < 0x200000)
  if attrReserved d then some 2
  else if a.lfmt ≠ a.fmt ∧ (a.lfmt > 2 ∨ a.fmt = 7) then some 4
  else if (if a.lkind = 1 then decide (a.laddr % 64 ≠ 0) || decide (a.laddr ≥ 0x40000) else !(acc || pad)) then some 5
  else if a.lkind = 0 && acc && !(a.lfmt = a.fmt && (a.fmt = 0 || a.fmt = 7) && a.lpitch = 512) then some 5
  else if a.lrows = 0 && a.scp && a.lfmt = a.fmt then some 6
  else if a.lrows > 4096 then some 2
  else if a.dlm ≠ 0 && a.dir then some 7
  else none

/-- Checks of a transfer descriptor against its attribute descriptor (R204), `row` local rows coming before it. -/
def xferCheck (d : Desc) (a : Attr) (row : Nat) (count0 : Option Nat) : Option Nat :=
  let x := xferOf d
  let n0 := x.count.getD 0 0
  let f := fmtD a.fmt
  let rows := xferRows x
  let acc := decide (a.lkind = 0 ∧ 0x200000 ≤ a.laddr)
  let extent := a.laddr + localExtent a (row + rows) n0
  if nbits (dw d 1) 31 23 ≠ 0 || x.nd > 6 then some 2
  else if ((x.count.drop x.nd).any (· ≠ 0)) || ((x.stride.drop x.nd).any (· ≠ 0)) then some 2
  else if ((x.count.take x.nd).any (· = 0)) || x.stride.getD 0 0 ≠ strideUnit f || (n0 % 2 = 1 && (a.fmt = 5 || a.lfmt = 5)) then
    some 3
  else if a.lpitch < rowBytes (fmtD a.lfmt) n0 then some 5
  else if acc && (decide (row + rows > 128) || decide (extent > 0x220000)) then some 5
  else if !acc && decide (extent > (if a.lkind = 1 then 0x40000 else 0x200000)) then some 5
  else if (match count0 with | some c => decide (c ≠ n0) | none => false) then some 6
  else if a.lrows ≠ 0 && decide (row + rows > a.lrows) then some 6
  else none

/-- R175 and R176 at acceptance: 9 for a pointer offset, 10 for a bound, beyond the rows of R204. -/
def boundCheck (ps : List ActiveLoop) (sl : Nat) (d : Desc) (a : Attr) : Option Nat :=
  let x := xferOf d
  let strides := x.stride.take x.nd
  if a.scp && fmtShort (fmtD a.fmt) && ptrShiftBad ps sl then some 1
  else if ps.any fun p => boundBad p sl strides (a.fmt = 5) then some 1
  else none

/-- Walk of a fetched burst up to the chain's end (R193, R194, R204): attribute in force, rows and COUNT0 so far. -/
def burstCheck (ps : List ActiveLoop) (sl : Nat) : List Desc → Option Attr → Nat → Option Nat → Option (Nat × Nat)
  | [], _, _, _ => none
  | d :: rest, at_, row, c0 =>
    match descKind d with
    | 2 =>
      match attrCheck d with
      | some c => some (c, d.addr)
      | none => burstCheck ps sl rest (some (attrOf d)) 0 none
    | 3 =>
      if nbits (dw d 0) 31 15 ≠ 0 ∨ nbits (dw d 1) 31 18 ≠ 0 ∨ nbits (dw d 1) 15 0 ≠ 0 ∨ (List.range 14).any (fun k => dw d (2 + k) ≠ 0)
      then some (2, d.addr) else none
    | 1 =>
      match at_ with
      | none => some (1, d.addr)
      | some a =>
        match xferCheck d a row c0 with
        | some c => some (c, d.addr)
        | none =>
          match boundCheck ps sl d a with
          | some c => some (c, d.addr)
          | none =>
            if (xferOf d).last then none
            else burstCheck ps sl rest at_ (row + xferRows (xferOf d)) (some ((xferOf d).count.getD 0 0))
    | _ => some (1, d.addr)

/-- Descriptors from `addr` (64-byte units) to the end of its scratchpad slot, none beyond a link (R194). -/
def fetchBurst (s : State) (t : Nat) : Nat → Nat → List Desc
  | 0, _ => []
  | k + 1, addr =>
    let b := padBytes s t (64 * addr) 64
    let d : Desc := { addr := addr, bytes := b, dl := none, missed := false }
    if descKind d = 3 then [d] else d :: fetchBurst s t k (addr + 1)

/-- Deadline of an attribute descriptor fixed at the fetch (R212). -/
def fixDeadline (now : Nat) (d : Desc) : Desc :=
  if descKind d = 2 then
    let a := attrOf d
    if a.dlm = 1 then
      let base := now / 2 ^ 40 * 2 ^ 40 + a.dl
      { d with dl := some (if base < now then base + 2 ^ 40 else base) }
    else if a.dlm = 2 then { d with dl := some (now + a.dl) }
    else d
  else d

/-- The deadlines of a burst: of the attribute descriptors before the chain's end (R193, R212). -/
def fixDeadlines (now : Nat) : List Desc → List Desc
  | [] => []
  | d :: rest => fixDeadline now d :: if descKind d = 1 && (xferOf d).last then rest else fixDeadlines now rest

def setSlot (t : Tile) (sl : Nat) (f : StreamSlot → StreamSlot) : Tile :=
  { t with pad := { t.pad with slots := modAt t.pad.slots sl f } }

/-- A stream slot's job-fatal error (R204): SRC tile, unit stream slot; DETAIL the condition and the descriptor's address. -/
def slotFatal (s : State) (t sl c addr : Nat) : State := tileFatal s t 7 sl { status := stBadParam, detail := [c, addr] }

/-- The burst at the chain's next address: fetched when its slot is not empty (R186, R194). -/
def fetchStep (s : State) (t sl : Nat) (tl : Tile) (c : Chain) : State :=
  if slotEmptyAt s t (c.next / 8) then setTile s t (setSlot tl sl fun x => { x with tagw := true, daddr := c.next % 2 ^ 15 })
  else
    let s1 := flushPad s t (64 * c.next) 512
    let ds := fixDeadlines (shaftCount s) (fetchBurst s1 t (8 - c.next % 8) c.next)
    let total := c.fetched + ds.length
    let first := c.fetched = 0
    let c0 := if c.row = 0 then none else some c.count0
    let nxt := match ds.getLast? with
      | some d => if descKind d = 3 then dwf d 0 14 0 else (c.next / 8 + 1) * 8 % 2 ^ 15
      | none => c.next
    if total > 32768 then slotFatal s1 t sl 1 c.next
    else match burstCheck c.loops sl ds (c.attr.map attrOf) c.row c0 with
      | some (k, a) => slotFatal s1 t sl k a
      | none =>
        modTile s1 t fun x =>
          let y := setSlot x sl fun z =>
            { z with chain := some { c with burst := ds, fetched := total, next := nxt }, tagw := false, daddr := c.next % 2 ^ 15 }
          if first then popHead y 2 else y

/-- STRM (R154): the chain starts on a free slot; STRM leaves the head when the first burst is accepted (R194). -/
def execStrm (t : Nat) (s : State) : Outcome :=
  withHead s t 2 0x20 fun tl e =>
    let sl := fld e.word 55 53
    if sl > 5 then .next (tileFatal s t 8 e.idx (badCond 1 []))
    else if e.sent ∨ (slotN tl.pad sl).chain.isSome then .next s
    else
      let c : Chain := {
        rel := bitAt e.word 52, strm := e.idx, seq := e.seq, loops := e.loops, next := fld e.word 14 0,
        burst := [], fetched := 0, attr := none, row := 0, count0 := 0, hdr := false, missed := false }
      .next (setTile s t (setHead (setSlot tl sl fun x => { x with chain := some c, tagw := false, daddr := c.next })
        2 { e with sent := true }))

/-- The STRM of a chain that has fetched nothing stands at its head, where nothing is performed while leave is awaited
(16 R378). -/
def headWaits (s : State) (t : Nat) (c : Chain) : Bool := c.fetched = 0 && leaveWait s t

/-- DESCRIPTOR_FETCH (R194, R204, R212). -/
def execDescriptorFetch (t sl : Nat) (s : State) : Outcome :=
  withSlot sl s <| withTile s t fun tl =>
    match (slotN tl.pad sl).chain with
    | none => .next s
    | some c =>
      if !tileLive tl ∨ tilePaused s t ∨ headWaits s t c ∨ !c.burst.isEmpty then .next s
      else .next (fetchStep s t sl tl c)

/-! ### Moving the elements of one descriptor -/

/-- Everything one descriptor's transfer needs. -/
structure Move where
  t : Nat
  sl : Nat
  a : Attr
  x : Xfer
  loops : List ActiveLoop
  aoff : Int
  soff : Int
  ioff : Int
  row : Nat
  subst : Bool
  seed : Nat
deriving DecidableEq, Repr

/-- Indices j1 to j5 of line L, j1 fastest (R44). -/
def lineIndices (counts : List Nat) : Nat → List Nat
  | l => (counts.foldl (fun (a : List Nat × Nat) n => (a.1 ++ [a.2 % (max n 1)], a.2 / max n 1)) ([], l)).1

def moveJ (m : Move) (l j0 : Nat) : List Nat := j0 :: lineIndices ((m.x.count.take m.x.nd).drop 1) l

/-- Walked byte address of line L (R172, R195). -/
def lineAddr (m : Move) (l : Nat) : Nat :=
  let js := lineIndices ((m.x.count.take m.x.nd).drop 1) l
  imod 48 ((m.x.addr : Int) + m.aoff + ((js.zip (m.x.stride.drop 1)).map fun p => (p.1 : Int) * p.2).foldl (· + ·) 0)

/-- Byte address of element j0 of line L at the walked end, and its nibble for F4W (R34, R195). -/
def elemAddr (f : Fmt) (base j0 : Nat) : Nat × Nat :=
  match f with
  | .f4w => ((base + j0 / 2) % 2 ^ 48, j0 % 2)
  | _ => ((base + j0 * (fmtBits f / 8)) % 2 ^ 48, 0)

/-- Fine code address at the walked end (R44, R196). -/
def fineAddr (m : Move) (l g : Nat) : Nat :=
  imod 48 ((m.x.spaddr : Int) + m.soff + ((if m.x.spp = 0 then l * cdiv (m.x.count.getD 0 0) 32 else l * m.x.spp) + g : Nat))

def moveOut (m : Move) (l j0 : Nat) : Bool :=
  m.subst || elemOut m.loops m.sl (m.x.stride.take m.x.nd) (m.a.fmt = 5) (moveJ m l j0)

/-- Local byte address of row r (R198). -/
def localRow (m : Move) (l : Nat) : Nat := m.a.laddr + localHead m.a + (m.row + l) * m.a.lpitch

/-- Local fine code address (R198). -/
def localFine (m : Move) (l g : Nat) : Nat :=
  m.a.laddr + localHead m.a + m.a.lrows * m.a.lpitch + (m.row + l) * cdiv (m.x.count.getD 0 0) 32 + g

/-- A byte of the local end. -/
def localByte (s : State) (m : Move) (a : Nat) : Byte :=
  if m.a.lkind = 1 then opcByte (tileAt s m.t).mx a
  else if a < 0x200000 then (padBytes s m.t a 1).getD 0 0
  else
    let i := (a - 0x200000) % 0x10000
    let w := (arrGet (bankArr (tileAt s m.t).mx ((a - 0x200000) / 0x10000)) (i / 4) 0).toNat
    BitVec.ofNat 8 (w / 256 ^ (i % 4))

def setLocalByte (s : State) (m : Move) (a : Nat) (b : Byte) : State :=
  if m.a.lkind = 1 then modTile s m.t fun t => { t with mx := withOpc t.mx (arrSet t.mx.opc a b 0) }
  else if a < 0x200000 then padWrite s m.t a [b]
  else
    let k := (a - 0x200000) / 0x10000
    let i := (a - 0x200000) % 0x10000
    modTile s m.t fun t =>
      let arr := bankArr t.mx k
      let w := arrGet arr (i / 4) 0
      { t with mx := setBankArr t.mx k (arrSet arr (i / 4) (setFld w (8 * (i % 4) + 7) (8 * (i % 4)) b.toNat) 0) }

/-- An element code from byte reads. -/
def codeFrom (f : Fmt) (an : Nat × Nat) (rd : Nat → Byte) : Nat :=
  match f with
  | .f4w => nbits (rd an.1).toNat (4 * an.2 + 3) (4 * an.2)
  | _ => leNat ((List.range (fmtBits f / 8)).map fun i => rd (an.1 + i))

/-- Bytes an element code becomes at an address, a nibble merged with the old byte (R179). -/
def codeBytes (f : Fmt) (an : Nat × Nat) (rd : Nat → Byte) (code : Nat) : List (Nat × Byte) :=
  match f with
  | .f4w => [(an.1, setFld (rd an.1) (4 * an.2 + 3) (4 * an.2) code)]
  | _ => (leBytes (fmtBits f / 8) code).zip (List.range (fmtBits f / 8)) |>.map fun p => (an.1 + p.2, p.1)

def putLocal (s : State) (m : Move) (f : Fmt) (an : Nat × Nat) (code : Nat) : State :=
  (codeBytes f an (localByte s m) code).foldl (fun s p => setLocalByte s m p.1 p.2) s

def putWalked (s : State) (f : Fmt) (an : Nat × Nat) (code : Nat) : State :=
  (codeBytes f an (memByte s) code).foldl (fun s p => memWrite s p.1 p.2) s

/-- The stochastic word of an element (R200). -/
def moveWord (m : Move) (l j0 : Nat) : Nat :=
  srWord m.seed m.a.tid (imod 48 ((m.a.ibase : Int) + m.ioff + ((m.row + l) * m.a.istr1 + j0 : Nat))) 0

/-- A transfer in progress: the state, flags raised, half bytes moved, and the failed access if any. -/
structure MoveAcc where
  s : State
  fl : AFlags
  nib : Nat
  err : Option (Nat × Nat)

/-- Every byte of an access is allowed (R204 row 8, R231) and no line of it is lost (18 R429): the error's condition and address
otherwise, condition 9 for a lost line. -/
def accessBad (s : State) (a n : Nat) (wr : Bool) : Option (Nat × Nat) :=
  match (List.range n).find? fun i => !streamMapped (a + i) with
  | some i => some (8, a + i)
  | none =>
    match (List.range n).find? fun i => !streamAllowed s (a + i) wr with
    | some i => some (0, a + i)
    | none => (lostIn s a n).map fun b => (9, b)

/-- The code an out-of-bounds element carries (R46): PAD's low bits; no padding gives F4W the code 0x8 (R40). DESIGN CHOICE (log
61): higher bits of PAD, which R46 wants zero, are ignored. -/
def padCode (f : Fmt) (pad : Nat) : Nat :=
  let c := pad % 2 ^ fmtBits f
  if f = .f4w ∧ c = 8 then 0 else c

/-- One ingot of one line of a read (R178, R200, R201, R46): element indices j0 from 32g. -/
def readIngot (m : Move) (l g : Nat) (acc : MoveAcc) : MoveAcc :=
  let f := fmtD m.a.fmt
  let lf := fmtD m.a.lfmt
  let n0 := m.x.count.getD 0 0
  let js := (List.range 32).map (32 * g + ·) |>.filter (· < n0)
  let base := lineAddr m l
  let hasFine := m.a.scp && fmtShort f
  let anyIn := js.any fun j => !moveOut m l j
  let fa := fineAddr m l g
  let bad := if hasFine && anyIn then accessBad acc.s fa 1 false else none
  match acc.err, bad with
  | some _, _ => acc
  | none, some e => { acc with err := some e }
  | none, none =>
    let fine := if hasFine && anyIn then (memByte acc.s fa).toNat else 127
    let acc1 := js.foldl (fun (acc : MoveAcc) j =>
      match acc.err with
      | some _ => acc
      | none =>
        let out := moveOut m l j
        let an := elemAddr f base j
        let nbytes := if f = .f4w then 1 else fmtBits f / 8
        match (if out then none else accessBad acc.s an.1 nbytes false) with
        | some e => { acc with err := some e }
        | none =>
          let code := if out then padCode f m.a.pad else codeFrom f an (memByte acc.s)
          let r : Nat × AFlags :=
            if m.a.lfmt = m.a.fmt then (code, 0)
            else
              let v := elemValue f m.a.scale m.a.zp fine code
              let q := roundNum lf (rmodeD m.a.rmode) (moveWord m l j) v.1
              (q.1, v.2 ||| q.2)
          { acc with s := putLocal acc.s m lf (elemAddr lf (localRow m l) j) r.1, fl := acc.fl ||| r.2,
                     nib := acc.nib + if out then 0 else fmtBits f / 4 }) acc
    if hasFine && m.a.lfmt = m.a.fmt && acc1.err.isNone then
      { acc1 with s := setLocalByte acc1.s m (localFine m l g) (BitVec.ofNat 8 fine) }
    else acc1

/-- One ingot of one line of a write (R179, R200, R48). -/
def writeIngot (m : Move) (l g : Nat) (acc : MoveAcc) : MoveAcc :=
  let f := fmtD m.a.fmt
  let lf := fmtD m.a.lfmt
  let n0 := m.x.count.getD 0 0
  let js := ((List.range 32).map (32 * g + ·)).filter fun j => decide (j < n0) && !moveOut m l j
  let base := lineAddr m l
  let hasFine := m.a.scp && fmtShort f
  let rm := rmodeD m.a.rmode
  let nbytes := if f = .f4w then 1 else fmtBits f / 8
  if js.isEmpty ∨ acc.err.isSome then acc
  else
    let codes := js.map fun j => codeFrom lf (elemAddr lf (localRow m l) j) (localByte acc.s m)
    let vals : List (Num × AFlags) := codes.map fun c =>
      if fmtIeee f then let v := decodeElem lf c; (v, flagIf (numSig v) flagNV)
      else scaledSource false m.a.scale (decodeElem lf c)
    let words := js.map (moveWord m l)
    let vfl := vals.foldl (fun a v => a ||| v.2) 0
    let enc : Nat × List Nat × AFlags :=
      if m.a.lfmt = m.a.fmt then
        (if hasFine then (localByte acc.s m (localFine m l g)).toNat else 127, codes, 0)
      else if hasFine then let r := storeIngot f rm ((vals.map (·.1)).zip words); (r.1, r.2.1, r.2.2 ||| vfl)
      else
        let rs := (vals.zip words).map fun v => storeElem f rm v.2 m.a.zp v.1.1
        (127, rs.map (·.1), rs.foldl (fun a r => a ||| r.2) vfl)
    let acc1 := (js.zip enc.2.1).foldl (fun (acc : MoveAcc) jc =>
      match acc.err with
      | some _ => acc
      | none =>
        let an := elemAddr f base jc.1
        match accessBad acc.s an.1 nbytes true with
        | some e => { acc with err := some e }
        | none => { acc with s := putWalked acc.s f an jc.2, nib := acc.nib + fmtBits f / 4 }) { acc with fl := acc.fl ||| enc.2.2 }
    if hasFine && acc1.err.isNone then
      match accessBad acc1.s (fineAddr m l g) 1 true with
      | some e => { acc1 with err := some e }
      | none => { acc1 with s := memWrite acc1.s (fineAddr m l g) (BitVec.ofNat 8 enc.1) }
    else acc1

/-- Every line and ingot of a descriptor in walk order. -/
def moveCells (m : Move) : List (Nat × Nat) :=
  (List.range (xferRows m.x)).flatMap fun l => (List.range (cdiv (m.x.count.getD 0 0) 32)).map fun g => (l, g)

/-- The window header (R72, R199). DESIGN CHOICE (log 61): where FMT and LFMT differ, it is FMT, the tensor's format, that makes an
I8 operand of byte 4. -/
def windowHeader (a : Attr) : List Byte :=
  leBytes 4 a.scale.toNat ++ [if a.fmt = 6 then BitVec.ofNat 8 (imod 8 a.zp) else 0] ++ List.replicate 59 0

def runMove (s : State) (m : Move) (hdr : Bool) : MoveAcc :=
  let s1 := if !m.a.dir && m.a.lkind = 1 && !hdr then
      ((windowHeader m.a).zip (List.range 64)).foldl (fun s p => setLocalByte s m (m.a.laddr + p.2) p.1) s
    else s
  (moveCells m).foldl (fun acc lg => if m.a.dir then writeIngot m lg.1 lg.2 acc else readIngot m lg.1 lg.2 acc)
    { s := s1, fl := 0, nib := 0, err := none }

/-- A list without the entries that repeat the one before them. -/
def onceInRow (l : List Nat) : List Nat := ((l.zip (none :: l.map some)).filter fun p => some p.1 ≠ p.2).map (·.1)

/-- The 512-byte lines that a read of external memory asks for, one request at each change of line along the walk (R209, log 56). -/
def walkedLines (m : Move) : List Nat :=
  let f := fmtD m.a.fmt
  onceInRow ((moveCells m).flatMap fun lg =>
    let js := ((List.range 32).map (32 * lg.2 + ·)).filter fun j => decide (j < m.x.count.getD 0 0) && !moveOut m lg.1 j
    if js.isEmpty then []
    else (if m.a.scp && fmtShort f then [fineAddr m lg.1 lg.2 / 512] else []) ++ js.map fun j => (elemAddr f (lineAddr m lg.1) j).1 / 512)

/-- Scratchpad slots of the walked end that hold an in-bounds byte (R187): owning tile and slot. -/
def walkedSlots (m : Move) : List (Nat × Nat) :=
  let f := fmtD m.a.fmt
  ((List.range (xferRows m.x)).flatMap fun l =>
    (List.range (m.x.count.getD 0 0)).flatMap fun j =>
      if moveOut m l j then []
      else
        let a := (elemAddr f (lineAddr m l) j).1
        let fine := if m.a.scp && fmtShort f then [fineAddr m l (j / 32)] else []
        (a :: (a + (max (fmtBits f / 8) 1) - 1) :: fine).filterMap padSlotOf).eraseDups

/-- Scratchpad slots of the local end (R187). -/
def localSlots (m : Move) : List (Nat × Nat) :=
  if m.a.lkind = 1 ∨ m.a.laddr ≥ 0x200000 then []
  else
    let n0 := m.x.count.getD 0 0
    let w := rowBytes (fmtD m.a.lfmt) n0
    ((List.range (xferRows m.x)).flatMap fun l =>
      let a := localRow m l
      let rows := (List.range (cdiv (a % 512 + w) 512)).map fun k => a / 512 + k
      let fine := if m.a.scp && m.a.lfmt = m.a.fmt && fmtShort (fmtD m.a.fmt) then
          let b := localFine m l 0
          (List.range (cdiv (b % 512 + cdiv n0 32) 512)).map fun k => b / 512 + k else []
      if m.a.dir && (List.range n0).all (moveOut m l) then [] else rows ++ fine).eraseDups.map fun k => (m.t, k)

/-- The tag rules of R186 let the descriptor go: full slots for what it reads, empty for what it writes. -/
def tagsLet (s : State) (m : Move) : Bool :=
  if m.a.tagm = 2 then true
  else
    let rd := if m.a.dir then localSlots m else walkedSlots m
    let wr := if m.a.dir then walkedSlots m else localSlots m
    rd.all (fun k => !slotEmptyAt s k.1 k.2) && wr.all fun k => !slotFullAt s k.1 k.2

/-- Tag changes at the completion (R186, R187). -/
def tagsAfter (s : State) (m : Move) : State :=
  if m.a.tagm ≠ 0 then s
  else
    let rd := if m.a.dir then localSlots m else walkedSlots m
    let wr := if m.a.dir then walkedSlots m else localSlots m
    wr.foldl (fun s k => setSlotTag s k.1 k.2 true) (rd.foldl (fun s k => setSlotTag s k.1 k.2 false) s)

/-- Attribute and link descriptors at the front of the burst take effect (R193). -/
def skipAttrs (c : Chain) : Nat → Chain
  | 0 => c
  | k + 1 =>
    match c.burst with
    | d :: rest =>
      if descKind d = 2 then
        skipAttrs { c with burst := rest, attr := some d, row := 0, count0 := 0, hdr := false, missed := d.missed } k
      else if descKind d = 3 then skipAttrs { c with burst := rest } k
      else c
    | [] => c

def moveOf (s : State) (t sl : Nat) (c : Chain) (a : Attr) (d : Desc) : Move :=
  let o := nestOffsets c.loops sl
  { t := t, sl := sl, a := a, x := xferOf d, loops := c.loops, aoff := o.1, soff := o.2.1, ioff := o.2.2.1, row := c.row,
    subst := c.missed && a.dlact, seed := jobSeed s }

/-- The banks that the next transfer descriptor reaches may be accessed (R82, R199). -/
def moveBankFree (t : Tile) (c : Chain) (a : Attr) : Bool :=
  match c.burst, a.lkind with
  | d :: _, 0 => (rowBanks a.laddr c.row (xferRows (xferOf d))).all fun b => bankFree t b c.seq
  | _, _ => true

/-- Completion of the transfer descriptor at the front of a chain (R203): SIG, tags, end of chain and release flag. -/
def finishDesc (s : State) (t sl : Nat) (c : Chain) (m : Move) (nib : Nat) : State :=
  let s1 := tagsAfter s m
  let s2 := if m.x.sig then
      pushCtl s1 (.tallyOp t 3 m.a.dtally m.a.dtn (tileAt s1 t).net.wepoch.toNat sl) else s1
  let c2 := { c with burst := c.burst.drop 1, row := c.row + xferRows m.x, count0 := m.x.count.getD 0 0, hdr := true }
  modTile s2 t fun tl =>
    let tl1 := setSlot tl sl fun x =>
      { x with chain := if m.x.last then none else some c2, bytes := x.bytes + BitVec.ofNat 64 (nib / 2), tagw := false }
    if m.x.last && c.rel then { tl1 with mx := releaseBank tl1.mx } else tl1

/-- The access of a stream that stops on memory the job does not own, or outside every map (R204, R231). -/
def moveFatal (s : State) (t sl : Nat) (c : Chain) (e : Nat × Nat) : State :=
  let addr := (c.burst.head?.map (·.addr)).getD 0
  if e.1 = 8 then slotFatal s t sl 8 addr
  else tileFatal s t 7 sl { status := stBadParam, detail := [0, 0, e.2 % 2 ^ 32, e.2 / 2 ^ 32] }

/-- The transfer descriptor at the front of the chain moves its elements and completes, unless a tag or a bank holds it. -/
def completeStep (s : State) (t sl : Nat) (tl : Tile) (c0 : Chain) : State :=
  let c := skipAttrs c0 8
  let keep := fun (w : Bool) (a : Nat) => setTile s t (setSlot tl sl fun x => { x with chain := some c, tagw := w, daddr := a % 2 ^ 15 })
  match c.burst, c.attr with
  | d :: _, some ad =>
    let a := attrOf ad
    let m := moveOf s t sl c a d
    if !moveBankFree tl c a then keep false d.addr
    else if !tagsLet s m then keep true d.addr
    else
      let s0 := progress (setTile s t (setSlot tl sl fun x => { x with chain := some c, tagw := false, daddr := d.addr % 2 ^ 15 })) t
      let s1 := if m.a.dir && m.a.lkind = 0 && decide (m.a.laddr < 0x200000) then flushPad s0 t m.a.laddr (localExtent a (c.row + xferRows m.x) (m.x.count.getD 0 0)) else s0
      let s2 := if m.a.dir then s1 else flushWalked s1 ((walkedSlots m).map fun k => (k.1, k.2))
      let r := runMove s2 m c.hdr
      let s3 := modTile r.s t fun x => raiseFlags x r.fl
      match r.err with
      | some (9, b) => memFatal s3 b false
      | some e => moveFatal s3 t sl c e
      | none => finishDesc (if m.a.dir then s3 else (walkedLines m).foldl binRead s3) t sl c m r.nib
  | _, _ => keep false (slotN tl.pad sl).daddr

/-- DESCRIPTOR_COMPLETE (R186, R187, R198 to R204). -/
def execDescriptorComplete (t sl : Nat) (s : State) : Outcome :=
  withSlot sl s <| withTile s t fun tl =>
    match (slotN tl.pad sl).chain with
    | none => .next s
    | some c =>
      if !tileLive tl ∨ tilePaused s t ∨ c.burst.isEmpty ∨ (slotN tl.pad sl).tagw then .next s
      else .next (completeStep s t sl tl c)

/-- The scratchpad slots a waiting stream slot waits on, by the tile that holds them: its next burst's slot, or those of its transfer
(R186). -/
def waitedSlots (s : State) (t sl : Nat) (c0 : Chain) : List (Nat × Nat) :=
  let c := skipAttrs c0 8
  match c.burst, c.attr with
  | d :: _, some ad =>
    let m := moveOf s t sl c (attrOf ad) d
    (walkedSlots m ++ localSlots m).map fun k => (substT s k.1, k.2)
  | _, _ => [(t, c.next / 8)]

/-- A waiting access of this slot may proceed now (R186). -/
def resumeReady (s : State) (t sl : Nat) (c0 : Chain) : Bool :=
  let c := skipAttrs c0 8
  match c.burst, c.attr with
  | d :: _, some ad => tagsLet s (moveOf s t sl c (attrOf ad) d)
  | _, _ => !slotEmptyAt s t (c.next / 8)

/-- The record at which a run in progress waits: its scratchpad slot (R112, R186). -/
def recordSlot (r : VxRun) : Option Nat :=
  if r.committed then ((runRecords r)[r.recDone]?).map fun a => a.1 / 512 else none

/-- The scratchpad slot of an STRW's descriptor (R155). -/
def strwSlot (e : QEntry) : Nat := 64 * fld e.word 55 41 / 512

/-- An access that waits on a tag and could proceed now (R188): its tile, its place among the tile's own (stream slots 0 to 5, a run's
records 6, an STRW 7), and the slots it waits on. -/
structure TagWaiter where
  tile : Nat
  place : Nat
  slots : List (Nat × Nat)
deriving DecidableEq, Repr

/-- The accesses of a tile that wait on tags and could proceed now. -/
def readyWaiters (s : State) (t : Nat) (tl : Tile) : List TagWaiter :=
  ((List.range 6).filterMap fun o =>
    match (slotN tl.pad o).chain with
    | some c =>
      if (slotN tl.pad o).tagw && resumeReady s t o c then some { tile := t, place := o, slots := waitedSlots s t o c } else none
    | none => none) ++
  (match tl.vx.run.bind recordSlot with
    | some k => if slotFullAt s t k then [] else [{ tile := t, place := 6, slots := [(t, k)] }]
    | none => []) ++
  (match headIs tl 2 0x21 with
    | some e => if e.sent && !slotEmptyAt s t (strwSlot e) then [{ tile := t, place := 7, slots := [(t, strwSlot e)] }] else []
    | none => [])

/-- Waiter a comes before waiter b on slot k (R188): local before remote, local ones by place, remote ones by tile number and then,
which the spec leaves open, by place. -/
def tagBefore (k : Nat × Nat) (a b : TagWaiter) : Bool :=
  let key := fun (w : TagWaiter) => (if w.tile = k.1 then 0 else 2304 + w.tile) * 8 + w.place
  decide (key a < key b)

/-- R188: an access of an earlier place that waits on one of the same slots can proceed now, and goes first. -/
def goesFirst (s : State) (me : TagWaiter) : Bool :=
  s.tiles.any fun tt => (readyWaiters s tt.1 tt.2).any fun w =>
    !(w.tile = me.tile && w.place = me.place) && w.slots.any fun k => me.slots.contains k && tagBefore k w me

/-- TAG_WAIT_RESUME (R187, R188). -/
def execTagWaitResume (t sl : Nat) (s : State) : Outcome :=
  withSlot sl s <| withTile s t fun tl =>
    match (slotN tl.pad sl).chain with
    | none => .next s
    | some c =>
      if !tileLive tl ∨ tilePaused s t ∨ headWaits s t c ∨ !(slotN tl.pad sl).tagw ∨ !resumeReady s t sl c ∨
          goesFirst s { tile := t, place := sl, slots := waitedSlots s t sl c } then
        .next s
      else if c.burst.isEmpty then .next (fetchStep s t sl tl c)
      else .next (completeStep s t sl tl c)

/-- RUN_COMPLETE (R97, R112): records that have waited on a tag take their turn (R188). -/
def execRunComplete (t : Nat) (s : State) : Outcome :=
  withTile s t fun tl =>
    match tl.vx.run with
    | none => .next s
    | some r =>
      let behind : Bool := match recordSlot r with
        | some k => !slotFullAt s t k && goesFirst s { tile := t, place := 6, slots := [(t, k)] }
        | none => false
      if !tileLive tl ∨ behind then .next s else .next (finishRun s t tl r)

/-! ### Deadlines (R212, R213) -/

/-- Some element of a transfer descriptor is in bounds: it, or its fine code, has not been written yet (R213). -/
def xferInBounds (ps : List ActiveLoop) (sl : Nat) (a : Attr) (x : Xfer) : Bool :=
  (List.range (xferRows x)).any fun l => (List.range (x.count.getD 0 0)).any fun j =>
    !elemOut ps sl (x.stride.take x.nd) (a.fmt = 5) (j :: lineIndices ((x.count.take x.nd).drop 1) l)

/-- A governed descriptor that has not completed has an in-bounds element: those of the burst, then those in scratchpad from `next` on,
up to the next attribute descriptor or the chain's end (R193, R213). -/
def governedLeft (s : State) (t sl : Nat) (ps : List ActiveLoop) (a : Attr) : Nat → List Desc → Nat → Bool
  | 0, _, _ => false
  | k + 1, burst, next =>
    let d := burst.headD { addr := next, bytes := padBytes s t (64 * next) 64, dl := none, missed := false }
    let nxt := if burst.isEmpty then (next + 1) % 2 ^ 15 else next
    match descKind d with
    | 3 => governedLeft s t sl ps a k [] (dwf d 0 14 0)
    | 1 =>
      let x := xferOf d
      xferInBounds ps sl a x || (!x.last && governedLeft s t sl ps a k (burst.drop 1) nxt)
    | _ => false

/-- The attribute descriptor ad, with `rest` of the burst after it, misses its deadline now (R213). -/
def missNow (s : State) (t sl : Nat) (c : Chain) (ad : Desc) (missed : Bool) (rest : List Desc) : Bool :=
  match ad.dl with
  | some d => !missed && decide (d ≤ shaftCount s) && governedLeft s t sl c.loops (attrOf ad) 32768 rest c.next
  | none => false

/-- The attribute descriptors after position n of a burst, the first that misses its deadline marked: it, and the burst. -/
def missIn (s : State) (t sl : Nat) (c : Chain) : List Desc → Option (Desc × List Desc)
  | [] => none
  | d :: rest =>
    if descKind d = 2 && missNow s t sl c d d.missed rest then some (d, { d with missed := true } :: rest)
    else (missIn s t sl c rest).map fun r => (r.1, d :: r.2)

/-- The first attribute descriptor of a chain that misses its deadline, and the chain with the miss noted: the one in force, else one
fetched behind it. -/
def chainMiss (s : State) (t sl : Nat) (c : Chain) : Option (Desc × Chain) :=
  match c.attr with
  | some ad => if missNow s t sl c ad c.missed c.burst then some (ad, { c with missed := true })
    else (missIn s t sl c c.burst).map fun r => (r.1, { c with burst := r.2 })
  | none => (missIn s t sl c c.burst).map fun r => (r.1, { c with burst := r.2 })

/-- DEADLINE_MISS (R213): an in-bounds element of the descriptors an attribute descriptor governs is unwritten at its deadline. -/
def execDeadlineMiss (t sl : Nat) (s : State) : Outcome :=
  withSlot sl s <| withTile s t fun tl =>
    match (slotN tl.pad sl).chain with
    | none => .next s
    | some c0 =>
      if tilePaused s t then .next s
      else match chainMiss s t sl (skipAttrs c0 8) with
        | none => .next s
        | some (ad, c) =>
          let d := ad.dl.getD 0
          let s1 := setTile s t (setSlot tl sl fun x =>
            { x with chain := some c, dlmiss := x.dlmiss + 1, tagw := x.tagw && !(c.missed && (attrOf ad).dlact) })
          .next (jobRecord s1 1 stDeadlineMissed 1 t (7 + 2 ^ 8 * sl) [ad.addr, d % 2 ^ 32, d / 2 ^ 32])

/-- The descriptor with one 32-bit word replaced has a reserved format or mode code in that word (R33, R155). -/
def strwReserved (old : List Byte) (woff v : Nat) : Bool :=
  let d : Desc := { addr := 0, bytes := splice old (4 * woff) (leBytes 4 v), dl := none, missed := false }
  descKind d = 2 && ((woff = 1 && (decide (dwf d 1 26 23 > 7) || decide (dwf d 1 29 27 > 4))) || (woff = 6 && decide (dwf d 6 21 18 > 7)))

/-- STRW (R155, R186, R188, R190). -/
def execStrw (t : Nat) (s : State) : Outcome :=
  withHead s t 2 0x21 fun tl e =>
    let a := 64 * fld e.word 55 41
    let woff := fld e.word 40 37
    let v := if bitAt e.word 36 then e.a.toNat % 2 ^ 32 else fld e.word 31 0
    if slotEmptyAt s t (strwSlot e) then .next (setTile s t (setHead tl 2 { e with sent := true }))
    else if e.sent && goesFirst s { tile := t, place := 7, slots := [(t, strwSlot e)] } then .next s
    else if strwReserved (padBytes s t a 64) woff v then .next (tileFatal s t 8 e.idx (badCond 1 []))
    else
      let s1 := wgbWrite s t (a + 4 * woff) (leBytes 4 v) false
      .next (modTile (flushPad s1 t (a + 4 * woff) 4) t fun x => popHead x 2)

/-- WGB_IDLE_FLUSH (R190): the entry of a 128-byte line idle for 64 M-cycles. -/
def execWgbIdleFlush (t line : Nat) (s : State) : Outcome :=
  withTile s t fun tl =>
    if tl.pad.wgb.any fun w => w.line = line && decide (64 ≤ w.idle) then .next (flushPad s t (128 * line) 128) else .next s

end Sys2Proof.Machine
end

