-- ==== Sys2Proof/Machine/Messages.lean ====
section
/-! DEFINITION. Sending, receiving, the receive queues, combining, spilling and the no-progress timer (10_mesh_messages). -/

namespace Sys2Proof.Machine

/-! ### Queue geometry (R253 to R256) -/

def qBase (q : RecvQueue) : Nat := 512 * fld q.w0 11 0
/-- Positions that a combining queue keeps for its accumulators and, in ordered mode, for held contributions (R266). -/
def qReserve (q : RecvQueue) : Nat :=
  let maxlen := fld q.w0 29 24
  let nt := fld q.w0 53 51 + 1
  if fld q.w0 37 36 = 0 then 0
  else nt * ((maxlen + 1) * (if bitAt q.w0 38 then 2 else 1)) +
    (if fld q.w0 37 36 = 1 then nt * (fld q.w0 50 39 + 1) * (maxlen + 2) else 0)

/-- Positions of the ring of messages: the area without what combining keeps (R255, R266; log 24). -/
def qPositions (q : RecvQueue) : Nat := 16 * fld q.w0 23 12 - qReserve q

/-- Positions that messages occupy, skipped ones included (R255). -/
def qHeld (q : RecvQueue) : Nat := (q.items.map fun i => i.flits + i.skip).sum
def qMaxFlits (q : RecvQueue) : Nat := fld q.w0 29 24 + 1
def qMode (q : RecvQueue) : Nat := fld q.w0 37 36
def qDeclared (q : RecvQueue) : Bool := fld q.w0 23 12 ≠ 0
def qContribs (q : RecvQueue) : Nat := fld q.w0 50 39 + 1
def qTags (q : RecvQueue) : Nat := fld q.w0 53 51 + 1
def qBf16 (q : RecvQueue) : Bool := bitAt q.w0 38
def qSpillPos (q : RecvQueue) : Nat := 16 * fld q.w2 23 12

/-- Where a message of n flits (head included) would be stored: position and positions skipped (R255). -/
def placeFor (q : RecvQueue) (n : Nat) : Nat × Nat :=
  if q.wr + n ≤ qPositions q then (q.wr, 0) else (0, qPositions q - q.wr)

/-- Room for a message of n flits, head included (R255, R265). -/
def roomFor (q : RecvQueue) (n : Nat) : Bool := decide (qHeld q + (placeFor q n).2 + n ≤ qPositions q)

/-- HIGH after an occupancy change (R260). -/
def markHigh (q : RecvQueue) : RecvQueue :=
  let hwm := fld q.w1 16 0
  let occ := queueOcc q
  if hwm = 0 then { q with high := false }
  else if decide (hwm ≤ occ) then { q with high := true }
  else if decide (occ ≤ fld q.w1 33 17) then { q with high := false }
  else q

/-- The 256-bit head flit (R246). -/
def headFlit (m : Msg) : List Byte :=
  leBytes 32 (m.ddev + m.dtile * 2 ^ 6 + m.dq * 2 ^ 18 + m.tag * 2 ^ 22 + (msgFlits m - 1) * 2 ^ 38 + m.kind * 2 ^ 44 + m.rank * 2 ^ 46 +
    m.sdev * 2 ^ 58 + m.stile * 2 ^ 64 + m.epoch * 2 ^ 76 + m.dgen * 2 ^ 84)

/-- Store a message at the write position of the main area (R255). -/
def storeMain (s : State) (t qn : Nat) (m : Msg) : State :=
  let q := queueN (tileAt s t).net qn
  let n := msgFlits m + 1
  let p := placeFor q n
  let s1 := padWrite s t (qBase q + 32 * p.1) (headFlit m ++ m.payload)
  let it : QItem := { pos := p.1, flits := n, skip := p.2, tag := m.tag, stile := m.stile, sdev := m.sdev, acq := false }
  modTile s1 t fun tl =>
    { tl with net := modQueue tl.net qn fun q => markHigh { q with items := q.items ++ [it], wr := p.1 + n } }

/-- Positions the spilled messages occupy (R270). -/
def spillOcc (q : RecvQueue) : Nat := (q.spill.map fun m => m.1 + msgFlits m.2 + 1).sum

/-- Where the spill area would store n flits: position and positions skipped, as R255 states (R270). -/
def spillPlace (q : RecvQueue) (n : Nat) : Nat × Nat := if q.spWr + n ≤ qSpillPos q then (q.spWr, 0) else (0, qSpillPos q - q.spWr)

/-- Move spilled messages into the freed main area in arrival order (R270). -/
def unspill (t qn : Nat) : Nat → State → State
  | 0, s => s
  | k + 1, s =>
    let q := queueN (tileAt s t).net qn
    match q.spill with
    | [] => modTile s t fun tl => { tl with net := modQueue tl.net qn fun q => { q with spilling := false } }
    | (_, m) :: rest =>
      if roomFor q (msgFlits m + 1) then
        unspill t qn k (modTile (storeMain s t qn m) t fun tl => { tl with net := modQueue tl.net qn fun q => { q with spill := rest } })
      else s

/-! ### SEND and COMB (R156, R246) -/

/-- The first position of a must-be-zero or range failure of a SEND or COMB (R156). DESIGN CHOICE (log 61): with RA = 1 a payload that
would reach beyond 0x1F_FFFF is refused at the place R156 gives for RA = 0. -/
def sendRefused (comb : Bool) (e : QEntry) : Option Nat :=
  let w := e.a
  let ra := bitAt e.word 29
  if fld w 63 50 ≠ 0 ∨ (!comb ∧ fld w 49 38 ≠ 0) then some 1
  else if fld w 31 20 > 2303 then some 2
  else if !ra ∧ 32 * (fld e.word 51 36 + fld e.word 35 30 + 1) > 0x200000 then some 3
  else if ra ∧ 32 * (fld e.b 37 22 + fld e.b 21 16 + 1) > 0x200000 then some 3
  else none

/-- Payload address in 32-byte units and its flits (R156, R157). -/
def sendSource (e : QEntry) : Nat × Nat :=
  if bitAt e.word 29 then (fld e.b 37 22, fld e.b 21 16 + 1) else (fld e.word 51 36, fld e.word 35 30 + 1)

def sendMessage (comb : Bool) (op t : Nat) (s : State) : Outcome :=
  withHead s t 3 op fun tl e =>
    match sendRefused comb e with
    | some c => .next (tileFatal s t 8 e.idx (badCond c []))
    | none =>
      if injectionFull s t then .next s
      else if e.sent then .next (modTile (progress s t) t fun x => popHead x 3)
      else
        let src := sendSource e
        let s1 := flushPad s t (32 * src.1) (32 * src.2)
        let ddev := fld e.a 37 32
        let local_ := decide (ddev = deviceId s)
        let dtile := if local_ then substT s (fld e.a 31 20) else fld e.a 31 20
        let m : Msg := {
          ddev := ddev, dtile := dtile, dq := fld e.a 19 16, tag := fld e.a 15 0, kind := b2n comb,
          rank := if comb then fld e.a 49 38 else 0, sdev := deviceId s, stile := t, epoch := tl.net.epoch.toNat,
          dgen := if local_ then (arrGet s.genTab dtile 0).toNat else farGeneration s ddev dtile, payload := padBytes s1 t (32 * src.1) (32 * src.2) }
        let s2 := injectMsg s1 m
        .next (if injectionFull s2 t then modTile s2 t fun x => setHead x 3 { e with sent := true }
          else modTile (progress s2 t) t fun x => popHead x 3)

/-- SEND (R156). -/
def execSend (t : Nat) (s : State) : Outcome := sendMessage false 0x28 t s

/-- COMB (R156). -/
def execComb (t : Nat) (s : State) : Outcome := sendMessage true 0x2A t s

/-! ### RECV (R157, R158, R259) -/

/-- The head message RECV would acquire (R157, R256). -/
def visibleHead (q : RecvQueue) : Option QItem := q.items.find? fun i => !i.acq

/-- The receive header (R157). -/
def recvHeader (q : RecvQueue) (i : QItem) : W64 :=
  BitVec.ofNat 64 (i.tag + (i.flits - 2) * 2 ^ 16 + (qBase q / 32 + i.pos + 1) * 2 ^ 22 + i.stile * 2 ^ 38 + i.sdev * 2 ^ 50)

def acquireFirst : List QItem → List QItem
  | [] => []
  | i :: t => if i.acq then i :: acquireFirst t else { i with acq := true } :: t

def acquireIn (tl : Tile) (qn : Nat) : Tile :=
  { tl with net := modQueue tl.net qn fun q => { q with items := acquireFirst q.items } }

/-- RECV of one queue (R157). -/
def execRecv (t : Nat) (s : State) : Outcome :=
  withHead s t 3 0x29 fun tl e =>
    if bitAt e.word 47 ∨ bitAt e.word 42 then .next s
    else
      let qn := fld e.word 51 48
      let q := queueN tl.net qn
      match visibleHead q with
      | none => .next s
      | some i =>
        if queueAcq q ≥ 127 then .next (tileFatal s t 8 e.idx (badCond 1 [qn]))
        else .next (setTile s t (writeReg (popHead (acquireIn tl qn) 3) (fld e.word 55 52) (recvHeader q i)))

/-- RECV_PAIR (R158, R162). -/
def execRecvPair (t : Nat) (s : State) : Outcome :=
  withHead s t 3 0x29 fun tl e =>
    if !bitAt e.word 47 ∨ bitAt e.word 42 then .next s
    else
      let qn := fld e.word 51 48
      let qd := fld e.word 46 43
      let a := queueN tl.net qn
      let b := queueN tl.net qd
      match visibleHead a, visibleHead b with
      | some i, some j =>
        if queueAcq a ≥ 127 ∨ queueAcq b ≥ 127 then .next (tileFatal s t 8 e.idx (badCond 1 [qn]))
        else
          let t1 := popHead (acquireIn (acquireIn tl qn) qd) 3
          let sd := fld e.word 55 52
          .next (setTile s t (writeReg (writeReg t1 sd (recvHeader a i)) ((sd + 1) % 16) (recvHeader b j)))
      | _, _ => .next s

/-- Remove the oldest acquired message (R255, R157). -/
def freeFirst : List QItem → List QItem
  | [] => []
  | i :: t => if i.acq then t else i :: freeFirst t

/-- RECV_FREE (R157, R255, R259, R270). -/
def execRecvFree (t : Nat) (s : State) : Outcome :=
  withHead s t 3 0x29 fun tl e =>
    if !bitAt e.word 42 then .next s
    else
      let qn := fld e.word 51 48
      let q := queueN tl.net qn
      if q.lost > 0 then
        .next (setTile s t (popHead { tl with net := modQueue tl.net qn fun q => { q with lost := q.lost - 1 } } 3))
      else if queueAcq q = 0 then .next (tileFatal s t 8 e.idx (badCond 1 [qn]))
      else
        let s1 := setTile s t (popHead { tl with net := modQueue tl.net qn fun q => markHigh { q with items := freeFirst q.items } } 3)
        .next (unspill t qn (q.spill.length + 1) s1)

/-! ### Arrival (R522, R263, R314) -/

def bumpSpoil (s : State) (t i n : Nat) : State :=
  modTile s t fun tl => { tl with net := { tl.net with spoil := arrSet tl.net.spoil i (arrGet tl.net.spoil i 0 + BitVec.ofNat 64 n) 0 } }

/-- R314: the epoch is the tile's or one of its non-zero peers. -/
def epochOk (n : NetIf) (e : Nat) : Bool :=
  decide (e ≠ 0 ∧ e ≠ 255) && (e = n.epoch.toNat || (List.range 7).any fun k => fld n.peer (8 * k + 7) (8 * k) = e)

/-- The send notice of a refused message (R262). -/
def noticeOf (m : Msg) (cause : Nat) : Ctl := .notice m.sdev m.stile cause m.ddev m.dtile m.dq m.tag

/-- What an arriving message meets first (R522): a discard counted under a spoil counter with an optional notice cause, a
job-fatal refusal, or acceptance. -/
inductive Arrival where
  | discard (counter : Nat) (cause : Option Nat)
  | fatal
  | accept
deriving DecidableEq, Repr

/-- The conditions of R269 for a contribution or a message kind. -/
def kindBad (q : RecvQueue) (m : Msg) : Bool :=
  if m.kind = 1 then
    if qMode q = 0 then true
    else
      let g := q.tags.find? fun g => g.tag = m.tag
      (qMode q = 1 && (decide (m.rank ≥ qContribs q) || (match g with | some g => g.ranks.contains m.rank | none => false))) ||
        (match g with | some g => g.flits ≠ msgFlits m | none => false)
  else m.kind = 0 && qMode q ≠ 0

def arrivalTest (tl : Tile) (m : Msg) : Arrival :=
  let q := queueN tl.net m.dq
  if !epochOk tl.net m.epoch then .discard 3 none
  else if m.dgen ≠ tl.net.gen.toNat then .discard 4 none
  else if !q.opened ∨ !qDeclared q then .discard 0 (some 0)
  else if msgFlits m > qMaxFlits q then .discard 2 (some 2)
  else if kindBad q m then .fatal
  else .accept

/-- The job-fatal error of R269: tile, queue, tag and rank. -/
def kindFatal (s : State) (t : Nat) (m : Msg) : State :=
  tileFatal s t 6 m.dq { status := stBadParam, detail := [0, m.tag, m.rank] }

/-- Accept a plain message: main area, spill area, or wait (R255, R265, R270). -/
def acceptPlain (s : State) (i : Nat) (n : NetMsg) : State :=
  let m := n.msg
  let t := m.dtile
  let q := queueN (tileAt s t).net m.dq
  let took := fun (s : State) => progress { s with net := dropAt s.net i } t
  let count := fun (q : RecvQueue) => { q with msgs := q.msgs + 1 }
  if q.spilling then
    let p := spillPlace q (msgFlits m + 1)
    if spillOcc q + p.2 + msgFlits m + 1 ≤ qSpillPos q then
      let s1 := padWrite s t (512 * fld q.w2 11 0 + 32 * p.1) (headFlit m ++ m.payload)
      took (modTile s1 t fun tl => { tl with net := modQueue tl.net m.dq fun q =>
        { count q with spill := q.spill ++ [(p.2, m)], spWr := p.1 + msgFlits m + 1, spilled := q.spilled + 1 } })
    else { s with net := modAt s.net i fun x => { x with waiting := true } }
  else if roomFor q (msgFlits m + 1) then
    took (modTile (storeMain s t m.dq m) t fun tl => { tl with net := modQueue tl.net m.dq count })
  else { s with net := modAt s.net i fun x => { x with waiting := true } }

/-- A message at its destination router, tested and handed on (R522); `f` takes the accepted ones. -/
def arrive (s : State) (i : Nat) (contrib : Bool) (f : State → NetMsg → State) : State :=
  match s.net[i]? with
  | none => s
  | some n =>
    let m := n.msg
    if n.hub ∨ m.ddev ≠ deviceId s ∨ (m.kind = 1) ≠ contrib ∨ tileRetired s m.dtile ∨ !mayLeave s i n ∨ tilePaused s m.dtile then s
    else if drainingOut s m then bumpSpoil { s with net := dropAt s.net i } m.dtile 3 1
    else match arrivalTest (tileAt s m.dtile) m with
      | .discard c cause =>
        let s1 := bumpSpoil { s with net := dropAt s.net i } m.dtile c 1
        (match cause with | some k => pushCtl s1 (noticeOf m k) | none => s1)
      | .fatal => kindFatal { s with net := dropAt s.net i } m.dtile m
      | .accept => f s n

/-- DATA_MESSAGE (R522, R255, R256, R265). -/
def execDataMessage (i : Nat) (s : State) : Outcome := .next (arrive s i false fun s n => acceptPlain s i n)

/-! ### Combining (R266 to R269) -/

/-- Element codes of a payload (R266). -/
def payloadCodes (bf16 : Bool) (bs : List Byte) : List Nat :=
  let w := if bf16 then 2 else 4
  (List.range (bs.length / w)).map fun k => leAt bs (w * k) w

/-- FP32 code of a contribution's element: a BF16 code is the upper half of the same value's, NaNs included (R267). -/
def widen (bf16 : Bool) (c : Nat) : Nat := if bf16 then c * 2 ^ 16 else c

/-- The first vector copied exactly, without a flag; then s + v element-wise in FP32 RNE (R267, R268). -/
def foldVec (bf16 : Bool) (acc v : List Nat) : List Nat × AFlags :=
  match acc with
  | [] => (v.map (widen bf16), 0)
  | _ =>
    let r := (acc.zip v).map fun p => addRne p.1 (widen bf16 p.2)
    (r.map (·.1), r.foldl (fun a x => a ||| x.2) 0)

/-- Fold the ranks that are present, ascending (R267). -/
def foldRanks (bf16 : Bool) : Nat → CombTag × AFlags → CombTag × AFlags
  | 0, g => g
  | k + 1, (g, fl) =>
    match arrGet (g.held.map fun h => (h.1, some h.2)) g.next none with
    | none => (g, fl)
    | some v =>
      let r := foldVec bf16 g.acc v
      foldRanks bf16 k ({ g with held := g.held.filter (·.1 ≠ g.next), next := g.next + 1, acc := r.1 }, fl ||| r.2)

/-- Take one contribution into a tag (R267, R268). -/
def takeContribution (q : RecvQueue) (g : CombTag) (m : Msg) : CombTag × AFlags :=
  let v := payloadCodes (qBf16 q) m.payload
  let g1 := { g with count := g.count + 1, ranks := m.rank :: g.ranks }
  if qMode q = 1 then foldRanks (qBf16 q) (qContribs q) ({ g1 with held := arrPut g.held m.rank v false }, 0)
  else
    let r := foldVec (qBf16 q) g.acc v
    ({ g1 with acc := r.1 }, r.2)

/-- The delivered sum's payload (R266, R267). -/
def deliverPayload (bf16 : Bool) (acc : List Nat) : List Byte × AFlags :=
  if bf16 then
    let r := acc.map fun c => roundNum .bf16 .rne 0 (decodeElem .fp32 c)
    (r.flatMap fun x => leBytes 2 x.1, r.foldl (fun a x => a ||| x.2) 0)
  else (acc.flatMap (leBytes 4), 0)

/-- A contribution that passed its tests (R266 to R268). Its accumulator and its held place are kept for it; the sum of a completed tag
takes the contribution's occupancy over in one step, so that HIGH follows the occupancy with both (R260). -/
def acceptContribution (s : State) (i : Nat) (n : NetMsg) : State :=
  let m := n.msg
  let t := m.dtile
  let q := queueN (tileAt s t).net m.dq
  let inProg := q.tags.find? fun g => g.tag = m.tag
  let wait := { s with net := modAt s.net i fun x => { x with waiting := true } }
  if inProg.isNone ∧ q.tags.length ≥ qTags q then wait
  else
    let g0 : CombTag := inProg.getD { tag := m.tag, flits := msgFlits m, count := 0, next := 0, ranks := [], held := [], acc := [] }
    let r := takeContribution q g0 m
    let done := decide (r.1.count = qContribs q)
    let others := q.tags.filter (·.tag ≠ m.tag)
    let sum := deliverPayload (qBf16 q) r.1.acc
    if done && !roomFor q (msgFlits m + 1) then wait
    else
      let s1 := modTile (progress { s with net := dropAt s.net i } t) t fun tl =>
        let tl1 := raiseFlags tl (r.2 ||| (if done then sum.2 else 0))
        let upd := fun (q : RecvQueue) => { q with msgs := q.msgs + 1, tags := if done then others else others ++ [r.1] }
        { tl1 with net := modQueue tl1.net m.dq fun q => if done then upd q else markHigh (upd q) }
      if done then
        storeMain s1 t m.dq {
          ddev := deviceId s, dtile := t, dq := m.dq, tag := m.tag, kind := 2, rank := 0, sdev := deviceId s, stile := t,
          epoch := (tileAt s t).net.epoch.toNat, dgen := (tileAt s t).net.gen.toNat, payload := sum.1 }
      else s1

/-- CONTRIBUTION (R266 to R269). -/
def execContribution (i : Nat) (s : State) : Outcome := .next (arrive s i true fun s n => acceptContribution s i n)

/-! ### Notices, pointer resets, spilling, timers -/

/-- A control message as the flit R247 lays out: the send notice; the fields of the others are in Machine/Tallies.lean. -/
def noticeFlit (sdev stile cause ddev dtile dq tag : Nat) : List Byte :=
  leBytes 32 (sdev + stile * 2 ^ 6 + 0x01 * 2 ^ 18 + cause * 2 ^ 24 + ddev * 2 ^ 28 + dtile * 2 ^ 34 + dq * 2 ^ 46 + tag * 2 ^ 50)

/-- SEND_NOTICE (R247, R262): at the sender's router; a notice for a sender in another device leaves as a control frame (17 R402). -/
def execSendNotice (i : Nat) (s : State) : Outcome :=
  match s.ctl[i]? with
  | some (.notice sdev stile cause ddev dtile dq tag) =>
    let s0 := { s with ctl := dropAt s.ctl i }
    if sdev ≠ deviceId s then
      .next (sendTo s0 sdev 0 { ftype := 1, lvc := 0, seq := 0, sdev := deviceId s, body := noticeFlit sdev stile cause ddev dtile dq tag })
    else .next (jobRecord (bumpSpoil s0 stile 7 1) 1 stSendToClosed 1 stile (5) [cause, ddev, dtile, dq, tag])
  | _ => .next s

/-- SPILL (R270): a message has waited SPTHR M-cycles at a plain queue that is HIGH, or has HWM 0. -/
def execSpill (t qn : Nat) (s : State) : Outcome :=
  withQ16 qn s <| withTile s t fun tl =>
    let q := queueN tl.net qn
    let waited := s.net.any fun n => n.waiting && n.msg.ddev = deviceId s && n.msg.dtile = t && n.msg.dq = qn && decide (fld q.w2 55 24 ≤ n.age)
    if qMode q = 0 ∧ fld q.w2 23 12 ≠ 0 ∧ !q.spilling ∧ (q.high ∨ fld q.w1 16 0 = 0) ∧ waited then
      .next (setTile s t { tl with net := modQueue tl.net qn fun q => { q with spilling := true } })
    else .next s

/-- The earlier instructions of a head's own queue have all completed (R142, R144): only chains outlive their STRM. -/
def earlierDone (tl : Tile) (q : Nat) (e : QEntry) : Bool :=
  q ≠ 2 || tl.pad.slots.all fun sl => match sl.chain with | some c => decide (e.seq ≤ c.seq) | none => true

/-- The tile's last arrival at a barrier has not seen its phase complete (R160). -/
def arrivalOpen (tl : Tile) (e : QEntry) : Bool := !(arrGet tl.net.arrived (fld e.word 6 0) (0, true)).2

/-- The cause a unit queue's head waits for, the lowest that holds (R163); none when it makes progress. -/
def headCause (s : State) (t : Nat) (tl : Tile) (k : Nat) : Option Nat :=
  match headOf tl k with
  | none => none
  | some e =>
    if leaveWait s t then some 4
    else match opc e.word with
    | 0x31 => some (match fld e.word 52 51 with | 1 => 1 | 2 => 7 | _ => 0)
    | 0x20 =>
      let sl := slotN tl.pad (fld e.word 55 53)
      if e.sent then (if sl.tagw then some 2 else none) else if sl.chain.isSome then some 1 else none
    | 0x21 => if slotEmptyAt s t (strwSlot e) then some 2 else none
    | 0x28 | 0x2A => if injectionHeld s t then some 3 else none
    | 0x10 | 0x11 =>
      if !e.sent && (flightHolds tl.mx (fillBank tl.mx) || mmaHeld s t tl (fillBank tl.mx) e.seq) then some 5 else none
    | 0x12 => if bankSt tl.mx (1 - fillBank tl.mx) ≠ .idle then some 5 else none
    | 0x18 | 0x19 =>
      if e.sent then
        (match tl.vx.run.bind recordSlot with | some w => if slotFullAt s t w then some 2 else none | none => none)
      else if runHeld { tl with vx := { tl.vx with run := none } } e then some 5
      else if tl.vx.run.isSome then some 6
      else none
    | 0x29 =>
      if bitAt e.word 42 then none
      else if (visibleHead (queueN tl.net (fld e.word 51 48))).isNone ∨
        (bitAt e.word 47 ∧ (visibleHead (queueN tl.net (fld e.word 46 43))).isNone) then some 7 else none
    | 0x34 => if !earlierDone tl k e then some 6 else if arrivalOpen tl e then some 8 else none
    | 0x35 => if arrivalOpen tl e then some 8 else none
    | 0x03 => if shaftCount s < markTarget e then some 9 else none
    | 0x38 => if e.sent then some 10 else none
    | 0x0C => if csetHeld tl e then some (if 4 * fld e.word 46 33 = 0x218 ∨ 4 * fld e.word 46 33 = 0x21C then 5 else 6) else none
    | 0x30 | 0x32 => if !earlierDone tl k e then some 6 else none
    | _ => none

/-- The scratchpad slot whose tag holds a waiting stream slot (R189). -/
def blockedSlot (s : State) (t sl : Nat) (c0 : Chain) : Nat :=
  let c := skipAttrs c0 8
  match c.burst, c.attr with
  | d :: _, some ad =>
    let m := moveOf s t sl c (attrOf ad) d
    let rd := if m.a.dir then localSlots m else walkedSlots m
    let wr := if m.a.dir then walkedSlots m else localSlots m
    match rd.find? fun k => slotEmptyAt s k.1 k.2 with
    | some k => k.2
    | none =>
      match wr.find? fun k => slotFullAt s k.1 k.2 with
      | some k => k.2
      | none => 0
  | _, _ => c.next / 8

/-- The destination of the message that a SEND or COMB head holds, as R272 packs it: the message's own where it stands partly
injected. -/
def heldDest (s : State) (t : Nat) (e : QEntry) : Nat :=
  match (if e.sent then (underWay s t).getLast? else none) with
  | some n => n.msg.ddev + n.msg.dtile * 2 ^ 6 + n.msg.dq * 2 ^ 18
  | none =>
    let ddev := fld e.a 37 32
    ddev + (if ddev = deviceId s then substT s (fld e.a 31 20) else fld e.a 31 20) * 2 ^ 6 + fld e.a 19 16 * 2 ^ 18

/-- The queue a RECV waits for (R272): of a pair, the first that has no message. -/
def awaitedQueue (tl : Tile) (e : QEntry) : Nat :=
  if bitAt e.word 47 && (visibleHead (queueN tl.net (fld e.word 51 48))).isSome then fld e.word 46 43 else fld e.word 51 48

/-- The word of R272 that names what head e of the tile waits for under cause c. -/
def deadlockWord (s : State) (t : Nat) (tl : Tile) (c : Nat) (e : QEntry) : Nat :=
  match c with
  | 3 => heldDest s t e
  | 7 => awaitedQueue tl e
  | _ => match opc e.word with
    | 0x20 =>
      let i := fld e.word 55 53
      i + 2 ^ 12 * (match (slotN tl.pad i).chain with | some ch => blockedSlot s t i ch % 4096 | none => 0)
    | 0x21 => 2 ^ 12 * strwSlot e
    | _ => 2 ^ 12 * ((tl.vx.run.bind recordSlot).getD 0)

/-- The slot on whose tag the sequencer's read of a pointer list waits (R151, R189). -/
def pointerWait (s : State) (t : Nat) (tl : Tile) : Option Nat :=
  if tl.sq.st ≠ .running ∨ tl.sq.fault ∨ (dispatchStall tl (instrAt tl.sq tl.sq.pc)).isSome then none
  else match tl.sq.loops with
    | lp :: _ => ((List.range (ldLevels lp.desc)).filter fun l => ldPtr lp.desc l && (lp.entries.getD l none).isNone).findSome? fun l =>
        if slotEmptyAt s t (ptrAddr lp l / 512) then some (ptrAddr lp l / 512) else none
    | [] => none

/-- Own queues with a message waiting at the ejection port, ascending, with the sender of the first (R272). -/
def portWaits (s : State) (t : Nat) : List (Nat × Nat × Nat) :=
  (List.range 16).filterMap fun q =>
    (s.net.find? fun n => n.waiting && n.msg.ddev = deviceId s && n.msg.dtile = t && n.msg.dq = q).map fun n => (q, n.msg.stile, n.msg.sdev)

/-- The wait a DEADLOCK record names (R272): queue, cause, instruction index and word 1 of DETAIL: a head's; else a stream's; else that of
the sequencer's read of a pointer list, under SXQ with the index of the instruction it dispatches (log 24). -/
def deadlockWait (s : State) (t : Nat) (tl : Tile) : Option (Nat × Nat × Nat × Nat) :=
  match ((List.range 5).filterMap fun k =>
      match headCause s t tl k, headOf tl k with
      | some c, some e => if c = 3 ∨ c = 7 ∨ c = 2 then some (k, c, e.idx, deadlockWord s t tl c e) else none
      | _, _ => none).head? with
  | some w => some w
  | none =>
    match (List.range 6).find? fun i => (slotN tl.pad i).tagw with
    | some i => some (2, 2, 0xFFFF, i + 2 ^ 12 * (match (slotN tl.pad i).chain with | some ch => blockedSlot s t i ch % 4096 | none => 0))
    | none => (pointerWait s t tl).map fun k => (2, 2, tl.sq.pc, 2 ^ 12 * k)

/-- The wait of a tile whose no-progress timer has reached LIMIT (R272). -/
def timedOut (s : State) (t : Nat) : Option (Nat × Nat × Nat × Nat) :=
  let tl := tileAt s t
  if !tileLive tl ∨ tilePaused s t ∨ tl.net.npLimit = 0 ∨ tl.net.npCount < tl.net.npLimit.toNat then none else deadlockWait s t tl

/-- The records of tile t's DEADLOCK, as tile and queues stand in s0 (R272). -/
def deadlockRecords (s0 s : State) (t : Nat) : State :=
  match timedOut s0 t with
  | none => s
  | some (k, c, idx, w) =>
    let ports := portWaits s0 t
    let s1 := tileRecord s t 8 idx
      { status := stDeadlock, detail := [k + c * 2 ^ 8 + ports.length * 2 ^ 16, w] }
    ports.foldl (fun a p => jobRecord a 1 stDeadlock 2 t (6 + 2 ^ 8 * p.1) [p.2.1 + p.2.2 * 2 ^ 12, 0, 0, 0, nextSeq s % 2 ^ 32]) s1

/-- Other tiles whose timers have reached LIMIT too: each raises DEADLOCK of its own (R272). -/
def alsoTimedOut (s : State) (t : Nat) : List Nat := (s.tiles.map (·.1)).filter fun u => u ≠ t && (timedOut s u).isSome

/-- NO_PROGRESS_TIMEOUT (R272): the tile's timer has reached LIMIT. -/
def execNoProgressTimeout (t : Nat) (s : State) : Outcome :=
  withTile s t fun _ =>
    if (timedOut s t).isNone then .next s
    else .next (failComputing ((t :: alsoTimedOut s t).foldl (deadlockRecords s) s) stDeadlock)

/-- ROUTE_HOLD_RELEASE (R252): nothing between the two routers is left on the old path, so the messages held at their routers go on. -/
def execRouteHoldRelease (src dst : Nat) (s : State) : Outcome :=
  if src ≥ 2304 ∨ dst ≥ 2304 then .fault .noTile
  else
    let on := fun (n : NetMsg) => startRouter s n.msg = src && endRouter s n.msg = dst
    if s.net.any fun n => on n && n.old then .next s
    else .next { s with net := s.net.map fun n => if on n then { n with held := false } else n }

/-- MESSAGE_TO_RETIRED_TILE (R252, R264): the last live router on the path discards it and notifies the sender. -/
def execMessageToRetiredTile (i : Nat) (s : State) : Outcome :=
  match s.net[i]? with
  | none => .next s
  | some n =>
    let m := n.msg
    if n.hub ∨ m.ddev ≠ deviceId s ∨ !tileRetired s m.dtile ∨ n.held then .next s
    else .next (pushCtl (bumpSpoil { s with net := dropAt s.net i } (lastLiveRouter s m) 1 1) (noticeOf m 1))

end Sys2Proof.Machine
end

