-- ==== Sys2Proof/Machine/Tallies.lean ====
section
/-! DEFINITION. Tallies, barriers and work counters (11_tallies_barriers), and the instructions that reach them (06 R159 to
R161). -/

namespace Sys2Proof.Machine

def levelN (s : State) (n : Nat) : LevelUnits := s.levels.getD n { tally := [], bar := [], ctr := [], home := [], stale := 0 }
def modLevel (s : State) (n : Nat) (f : LevelUnits → LevelUnits) : State := { s with levels := modAt s.levels n f }
def tally0 : Tally := { value := 0, fault := false, waiters := [] }
def tallyAt (s : State) (l p : Nat) : Tally := arrGet (levelN s l).tally p tally0
def setTally (s : State) (l p : Nat) (v : Tally) : State := modLevel s l fun u => { u with tally := arrSet u.tally p v tally0 }

/-- The map entry of a virtual ID (R279): home Level, physical tally, limit; none when EN is 0. -/
def mapEntry (s : State) (v : Nat) : Option (Nat × Nat × Nat) :=
  let w := arrGet s.tmap v 0
  if bitAt w 14 then some (fld w 13 12, fld w 11 0, fld w 39 16) else none

/-- TADD or TDEC: the operation is sent and the instruction leaves (R142, R159, R276). -/
def sendTally (op code t q : Nat) (s : State) : Outcome :=
  withQueue q s <| withHead s t q op fun tl e =>
    if !earlierDone tl q e then .next s
    else .next (pushCtl (setTile s t (popHead tl q)) (.tallyOp t code (fld e.word 43 32) (fld e.word 23 0) tl.net.wepoch.toNat q))

/-- TADD (R159). -/
def execTadd (t q : Nat) (s : State) : Outcome := sendTally 0x30 0 t q s

/-- TDEC (R159). -/
def execTdec (t q : Nat) (s : State) : Outcome := sendTally 0x32 1 t q s

/-- TWAIT (R159, R283): its request is sent once; it stays at the head until the satisfied reply. -/
def execTwait (t q : Nat) (s : State) : Outcome :=
  withQueue q s <| withHead s t q 0x31 fun tl e =>
    if e.sent then .next s
    else .next (pushCtl (setTile s t (setHead tl q { e with sent := true }))
      (.tallyOp t 2 (fld e.word 43 32) (fld e.word 23 0) tl.net.wepoch.toNat q))

/-! ### Barriers -/

def barrier0 : Barrier := { en := false, phase := 0, tmo := 0, bmask := 0, tmask := [], arr := [], first := none, out := true }

/-- Barrier unit 16n + j, or cascade barrier 64 + k (R160, R289, R292). -/
def barrierAt (s : State) (bid : Nat) : Barrier :=
  if bid < 64 then arrGet (levelN s (bid / 16)).bar (bid % 16) barrier0 else arrGet s.cbar (bid - 64) barrier0

/-- Membership of a tile (R289). -/
def barMember (b : Barrier) (t : Nat) : Bool :=
  let x := t % 48
  let y := t / 48
  let k := 12 * (y / 4) + x / 4
  bitAt b.bmask k && bitAt (arrGet b.tmask k 0) (4 * (y % 4) + x % 4)

/-- The masks without a tile, its arrival with it (R291). -/
def clearMember (b : Barrier) (t : Nat) : Barrier :=
  let k := 12 * (t / 48 / 4) + t % 48 / 4
  let m := BitVec.ofNat 16 (2 ^ (4 * (t / 48 % 4) + t % 48 % 4))
  { b with tmask := arrSet b.tmask k (arrGet b.tmask k 0 &&& ~~~m) 0, arr := b.arr.filter (· ≠ t) }

/-- The masks with a tile; a block that was out of the block mask takes the tile alone. -/
def addMember (b : Barrier) (t : Nat) : Barrier :=
  let k := 12 * (t / 48 / 4) + t % 48 / 4
  let m := BitVec.ofNat 16 (2 ^ (4 * (t / 48 % 4) + t % 48 % 4))
  { b with
    tmask := arrSet b.tmask k (if bitAt b.bmask k then arrGet b.tmask k 0 ||| m else m) 0
    bmask := b.bmask ||| BitVec.ofNat 144 (2 ^ k) }

/-- A spare in the place of the retired tile it stands for: its bit, and the arrival made (R291, 18 R426). -/
def replaceMember (b : Barrier) (p : Nat × Nat) : Barrier :=
  if barMember b p.1 then
    let c := addMember (clearMember b p.1) p.2
    if b.arr.contains p.1 then { c with arr := p.2 :: c.arr } else c
  else b

/-- Members in ascending tile number (R290). -/
def barMembers (b : Barrier) : List Nat := (List.range 2304).filter (barMember b)

/-- Every member has arrived in the current phase (R289). -/
def barFull (b : Barrier) : Bool := (barMembers b).all fun m => b.arr.contains m

/-- Whether the device has released its SHBAR_N[k] output (R292): it does not participate, or all its local members have arrived. -/
def shbarOut (s : State) (k : Nat) (b : Barrier) : Bool := !barParticipates s k || barFull b

/-- Store a barrier; its masks name spares in place of retired tiles (18 R426), and a cascade barrier drives its output (R292). -/
def setBarrier (s : State) (bid : Nat) (b0 : Barrier) : State :=
  let b := s.subst.foldl replaceMember b0
  if bid < 64 then modLevel s (bid / 16) fun u => { u with bar := arrSet u.bar (bid % 16) b barrier0 }
  else { s with cbar := arrSet s.cbar (bid - 64) { b with out := shbarOut s (bid - 64) b } barrier0 }

/-- The SHBAR_N outputs after a change of participation or of the definitions (R292). -/
def driveOutputs (s : State) : State := (List.range 4).foldl (fun a k => setBarrier a (64 + k) (barrierAt a (64 + k))) s

/-- R291, R292: the barrier is defined, this device takes part, and the tile is a member. -/
def barOk (s : State) (bid t : Nat) : Bool :=
  let b := barrierAt s bid
  b.en && barMember b t && (decide (bid < 64) || barParticipates s (bid - 64))

/-- The requester as a record's DETAIL names it (R285; log 34): tile and queue, or 8 + stream slot. -/
def requester (t q : Nat) (slot : Bool) : Nat := t + 2 ^ 12 * (q + 8 * b2n slot)

/-- The job-fatal error of a refused barrier operation (R291): unit, tile and queue. -/
def barFatal (s : State) (t q bid : Nat) : State := levelFatal s stBadParam (if bid < 64 then bid / 16 else 4) (1 + 4 * bid) [requester t q false]

/-- BARR (R142, R160, R289). -/
def execBarr (t q : Nat) (s : State) : Outcome :=
  withQueue q s <| withHead s t q 0x34 fun tl e =>
    let bid := fld e.word 6 0
    let last := arrGet tl.net.arrived bid (0, true)
    if !earlierDone tl q e ∨ !last.2 then .next s
    else
      let t1 := popHead { tl with net := { tl.net with arrived := arrSet tl.net.arrived bid (last.1, false) (0, true) } } q
      .next (pushCtl (setTile s t t1) (.arrival t bid q))

/-- BWAIT (R160, R291). -/
def execBwait (t q : Nat) (s : State) : Outcome :=
  withQueue q s <| withHead s t q 0x35 fun tl e =>
    let bid := fld e.word 6 0
    if !barOk s bid t then .next (barFatal (setTile s t (popHead tl q)) t q bid)
    else if (arrGet tl.net.arrived bid (0, true)).2 then .next (setTile s t (popHead tl q))
    else .next s

/-- The phase of a device barrier completes (R289): PHASE advances and every member is sent a release. -/
def completePhase (s : State) (bid : Nat) : State :=
  let b := barrierAt s bid
  let s1 := setBarrier s bid { b with phase := b.phase + 1, arr := [], first := none }
  (barMembers b).foldl (fun s t => pushCtl s (.release t bid b.phase.toNat)) s1

/-- BARRIER_ARRIVAL (R289, R291, R292): the arrival at position i of the control messages. -/
def execBarrierArrival (i : Nat) (s : State) : Outcome :=
  match s.ctl[i]? with
  | some (.arrival t bid q) =>
    let s0 := { s with ctl := dropAt s.ctl i }
    if !barOk s bid t then .next (barFatal s0 t q bid)
    else
      let b := barrierAt s0 bid
      let b1 := { b with arr := if b.arr.contains t then b.arr else t :: b.arr, first := some (b.first.getD (shaftCount s)) }
      let s1 := setBarrier s0 bid b1
      .next (if bid < 64 && barFull b1 then completePhase s1 bid else s1)
  | _ => .next s

/-- BARRIER_RELEASE (R289): the release reaches the tile. -/
def execBarrierRelease (i : Nat) (s : State) : Outcome :=
  match s.ctl[i]? with
  | some (.release t bid phase) =>
    .next (modTile { s with ctl := dropAt s.ctl i } t fun tl =>
      { tl with net := { tl.net with arrived := arrSet tl.net.arrived bid (phase, true) (0, true) } })
  | _ => .next s

/-- Members of R291's record that have not arrived. -/
def missing (b : Barrier) : List Nat := (barMembers b).filter fun m => !b.arr.contains m

/-- Two 16-bit tile numbers a word, 0xFFFF where fewer remain (R291). -/
def missingWords (l : List Nat) : List Nat := (List.range 4).map fun k => l.getD (2 * k) 0xFFFF + l.getD (2 * k + 1) 0xFFFF * 2 ^ 16

/-- BARRIER_TIMEOUT (R291). -/
def execBarrierTimeout (bid : Nat) (s : State) : Outcome :=
  if bid ≥ 68 then .fault .noUnit
  else
    let b := barrierAt s bid
    match b.first with
    | none => .next s
    | some f =>
      if !b.en ∨ b.tmo = 0 ∨ shaftCount s < f + b.tmo.toNat then .next s
      else
        let ms := missing b
        let lvl := if bid < 64 then bid / 16 else 4
        let seq0 := nextSeq s
        let s1 := levelRecord s stDeadlock lvl (1 + 4 * bid) ((b.phase.toNat + ms.length * 2 ^ 16) :: missingWords (ms.take 8))
        let s2 := setBarrier s1 bid { b with first := none }
        .next (failComputing (if ms.length ≤ 8 then s2
          else jobRecord s2 5 stDeadlock 2 lvl (1 + 4 * bid) (seq0 % 2 ^ 32 :: missingWords ((ms.drop 8).take 8))) stDeadlock)

/-! ### Tally operations (R282 to R285) -/

/-- Serve waiters from the oldest (R283): the value, those left, those satisfied. -/
def serveWaiters (v : Nat) : List Waiter → Nat × List Waiter × List Waiter
  | [] => (v, [], [])
  | w :: rest =>
    let n := match w with
      | .tile _ _ _ n => n
      | .host _ n => n
    if v < n then (v, w :: rest, [])
    else let r := serveWaiters (v - n) rest; (r.1, r.2.1, w :: r.2.2)

/-- The satisfied reply to a waiter (R276, R284). -/
def replyWaiter (s : State) (w : Waiter) : State :=
  match w with
  | .tile t q vid _ => pushCtl s (.twaitReply t q vid)
  | .host k _ => satisfyTicket s k

/-- The requester of a host operation: host tag in word 0, and 1 + port for word 1 (R285; log 34). -/
def hostRequester (x : Option Packet) : Nat := match x with | some k => pfld k 4 4 + 2 ^ 32 * (1 + k.port % 2) | none => 0

/-- Words 0 and 1 of the record (R285; log 34): the requester, and the virtual ID with a host requester's 1 + port in [17:16]. -/
def whoWords (who vid : Nat) : List Nat := [who % 2 ^ 32, vid + 2 ^ 16 * (who / 2 ^ 32)]

/-- The Level that refuses an operation on an unmapped virtual ID (R285). -/
def waiterLevel (w : Waiter) : Nat := match w with | .tile t _ _ _ => levelOf t | .host _ _ => 0

/-- The status that refuses an operation (R285), if any. -/
def tallyStatus (s : State) (op vid n : Nat) : Option Nat :=
  match mapEntry s vid with
  | none => some stBadParam
  | some (l, p, lim) =>
    let v := (tallyAt s l p).value.toNat
    if op = 0 ∨ op = 3 then (if v + n > 0xFFFFFF ∨ (lim ≠ 0 ∧ v + n > lim) then some stTallyOverflow else none)
    else if op = 1 then (if v < n then some stTallyUnderflow else none)
    else if lim ≠ 0 ∧ n > lim then some stBadParam
    else none

/-- A refused tally operation (R285): FAULT bit, record, job-fatal. `who` names the requester. -/
def tallyFatal (s : State) (st l p vid n : Nat) (who : Nat) : State :=
  let y := tallyAt s l p
  levelFatal (setTally s l p { y with fault := true }) st l (4 * p) (whoWords who vid ++ [p, y.value.toNat, n])

/-- Apply an operation to a tally (R282, R283, R285): op 0 and 3 add, 1 subtracts, 2 registers `w`. -/
def applyTally (s : State) (op vid n who : Nat) (w : Waiter) : State :=
  match mapEntry s vid, tallyStatus s op vid n with
  | none, _ => levelFatal s stBadParam (waiterLevel w) 0 (whoWords who vid ++ [0xFFFFFFFF, 0, n])
  | some (l, p, _), some st => tallyFatal s st l p vid n who
  | some (l, p, _), none =>
    let y := tallyAt s l p
    let v := y.value.toNat
    if op = 1 then setTally s l p { y with value := BitVec.ofNat 24 (v - n) }
    else
      let r := if op = 2 then serveWaiters v (y.waiters ++ [w]) else serveWaiters (v + n) y.waiters
      r.2.2.foldl replyWaiter (setTally s l p { y with value := BitVec.ofNat 24 r.1, waiters := r.2.1 })

/-- An earlier operation of the same tile, or of the same host queue, to the same tally is still on its way (R284). -/
def tallyBehind (ctl : List Ctl) (i : Nat) (c : Ctl) : Bool :=
  (ctl.take i).any fun d =>
    match c, d with
    | .tallyOp t _ v _ _ _, .tallyOp t2 _ v2 _ _ _ => t = t2 && v = v2
    | .tallyHost _ _ v _, .tallyHost _ _ v2 _ => v = v2
    | _, _ => false

/-- The Level whose units an operation of a tile reaches (R276, R285): the tally's home, or for an unmapped ID the tile's own. -/
def homeLevel (s : State) (vid t : Nat) : Nat := match mapEntry s vid with | some e => e.1 | none => levelOf t

/-- TALLY_OPERATION (R276, R282 to R285, R294). -/
def execTallyOperation (i : Nat) (s : State) : Outcome :=
  match s.ctl[i]? with
  | some c =>
    if tallyBehind s.ctl i c then .next s
    else
      let s0 := { s with ctl := dropAt s.ctl i }
      match c with
      | .tallyOp t op vid n we q =>
        if we ≠ workEpoch s then .next (modLevel s0 (homeLevel s vid t) fun u => { u with stale := u.stale + 1 })
        else .next (applyTally s0 op vid n (requester t q (op = 3)) (.tile t q vid n))
      | .tallyHost k op vid n =>
        let who := hostRequester (packetN s k)
        match tallyStatus s0 op vid n with
        | some st =>
          let detail := if st ≠ stBadParam then 0 else if (mapEntry s vid).isNone then 0x10 else 0x14
          .next (applyTally (refuse s0 k st detail) op vid n who (.host k n))
        | none =>
          let s1 := applyTally s0 op vid n who (.host k n)
          .next (if op = 0 then replyOk s1 k 0 0 else s1)
      | _ => .next s
  | none => .next s

/-- TWAIT_SATISFIED (R283): the reply reaches the tile and the TWAIT leaves its head. -/
def execTwaitSatisfied (i : Nat) (s : State) : Outcome :=
  match s.ctl[i]? with
  | some (.twaitReply t q vid) =>
    let s0 := { s with ctl := dropAt s.ctl i }
    let tl := tileAt s t
    if leaveWait s t then .next s
    else match headIs tl q 0x31 with
    | some e => if e.sent ∧ fld e.word 43 32 = vid then .next (setTile s0 t (popHead tl q)) else .next s0
    | none => .next s0
  | _ => .next s

/-! ### Work counters (R294 to R298) -/

def ctr0 : WorkCtr := { value := 0, task := false, hbase := 0, hcnt := 0, radius := 0, taken := [] }
def ctrAt (s : State) (l c : Nat) : WorkCtr := arrGet (levelN s l).ctr c ctr0
def setCtr (s : State) (l c : Nat) (v : WorkCtr) : State := modLevel s l fun u => { u with ctr := arrSet u.ctr c v ctr0 }

/-- WFETCH (R161): the fetch is sent once. -/
def execWfetch (t : Nat) (s : State) : Outcome :=
  withHead s t 4 0x38 fun tl e =>
    if e.sent then .next s
    else .next (pushCtl (setTile s t (setHead tl 4 { e with sent := true })) (.fetch t (fld e.word 47 40) (fld e.word 15 0) (fld e.word 55 52)))

def tileDist (a b : Nat) : Nat := ((a % 48 : Int) - (b % 48 : Int)).natAbs + ((a / 48 : Int) - (b / 48 : Int)).natAbs

/-- The task a WFETCH takes (R298): the lowest untaken within the radius, nearest first, then the lowest untaken. -/
def pickTask (sub : Nat → Nat) (home : Arr (BitVec 16)) (c : WorkCtr) (t : Nat) : Option Nat :=
  let free := (List.range c.hcnt).filter fun k => !c.taken.contains k
  let near := (List.range (c.radius + 1)).findSome? fun d => free.find? fun k => tileDist (sub (fld (arrGet home (c.hbase + k) 0) 11 0)) t = d
  match near with
  | some k => some k
  | none => free.head?

/-- The home list lies within its 16,384 entries (R298). -/
def homeOk (c : WorkCtr) : Bool := decide (c.hbase + c.hcnt ≤ 16384)

/-- WORK_FETCH (R297, R298). -/
def execWorkFetch (i : Nat) (s : State) : Outcome :=
  match s.ctl[i]? with
  | some (.fetch t ci inc sd) =>
    let s0 := { s with ctl := dropAt s.ctl i }
    let l := levelOf t
    let c := ctrAt s l ci
    let reply := fun (s : State) (v : Nat) => pushCtl s (.fetchReply t v (workEpoch s) sd)
    if c.task then
      if inc ≠ 1 ∨ !homeOk c then .next (levelFatal s0 stBadParam l (2 + 4 * ci) [requester t 4 false, ci, c.value.toNat, inc])
      else match pickTask (substT s) (levelN s l).home c t with
        | some k => .next (reply (setCtr s0 l ci { c with taken := k :: c.taken }) k)
        | none => .next (reply s0 0xFFFFFFFF)
    else if c.value.toNat + inc > 0xFFFFFFFF then
      .next (levelFatal s0 stTallyOverflow l (2 + 4 * ci) [requester t 4 false, ci, c.value.toNat, inc])
    else .next (reply (setCtr s0 l ci { c with value := c.value + BitVec.ofNat 32 inc }) c.value.toNat)
  | _ => .next s

/-- WORK_FETCH_REPLY (R161). -/
def execWorkFetchReply (i : Nat) (s : State) : Outcome :=
  match s.ctl[i]? with
  | some (.fetchReply t idx ep sd) =>
    let s0 := { s with ctl := dropAt s.ctl i }
    let tl := tileAt s t
    if leaveWait s t then .next s
    else match headIs tl 4 0x38 with
    | some e =>
      if e.sent then .next (setTile s0 t (writeReg (popHead tl 4) sd (BitVec.ofNat 64 (idx % 2 ^ 32 + ep % 2 ^ 16 * 2 ^ 32)))) else .next s0
    | none => .next s0
  | _ => .next s

/-! ### Settling what is in flight (11 R287, 10 R275) -/

/-- A control message for the Level units, or a reply of theirs. -/
def unitCtl (c : Ctl) : Bool :=
  match c with
  | .notice .. => false
  | _ => true

/-- The state an outcome gives; a stop leaves the state. -/
def afterOr (s : State) (o : Outcome) : State :=
  match o with
  | .next t => t
  | _ => s

/-- Control message i takes effect. -/
def settleOne (i : Nat) (s : State) : State :=
  match s.ctl[i]? with
  | some (.tallyOp ..) | some (.tallyHost ..) => afterOr s (execTallyOperation i s)
  | some (.twaitReply ..) => afterOr s (execTwaitSatisfied i s)
  | some (.arrival ..) => afterOr s (execBarrierArrival i s)
  | some (.release ..) => afterOr s (execBarrierRelease i s)
  | some (.fetch ..) => afterOr s (execWorkFetch i s)
  | some (.fetchReply ..) => afterOr s (execWorkFetchReply i s)
  | _ => s

/-- Every operation in flight is applied and every reply delivered (R287). -/
def settleCtl : Nat → State → State
  | 0, s => s
  | k + 1, s =>
    match indexWhere unitCtl s.ctl with
    | none => s
    | some i => settleCtl k (settleOne i s)

def settleUnits (s : State) : State := settleCtl 1048576 s

/-- Tiles at their instruction boundaries, and what they have sent to the Level units applied (12 R309, 14 R343). -/
def settleAt (s : State) (ts : List Nat) : State := settleUnits (ts.foldl toBoundary s)

/-- Every message in the mesh that can be delivered is (R275). -/
def deliverNet : Nat → Nat → State → State
  | 0, _, s => s
  | f + 1, i, s =>
    match s.net[i]? with
    | none => s
    | some n =>
      let t := if n.msg.kind = 1 then arrive s i true fun s n => acceptContribution s i n
        else arrive s i false fun s n => acceptPlain s i n
      if t.net.length < s.net.length then deliverNet f i t else deliverNet f (i + 1) t

def deliverAll (s : State) : State := deliverNet (2 * s.net.length + 1) 0 s

/-! ### Control messages as flits (10 R247, R276) -/

/-- The flit of a control message of this device: destination device and tile, CTYPE, and its body. A request goes to the gate router of
the tile's quadrant, a reply to the tile; a host's operation is no flit. -/
def ctlFlit (s : State) (c : Ctl) : Option (List Byte) :=
  let flit := fun (tile ctype body : Nat) => some (leBytes 32 (deviceId s + tile * 2 ^ 6 + ctype * 2 ^ 18 + body))
  match c with
  | .tallyOp t op vid n we q => flit (gateOf s t) 0x02 (op * 2 ^ 24 + vid * 2 ^ 26 + n * 2 ^ 38 + we * 2 ^ 62 + q * 2 ^ 78)
  | .tallyHost .. => none
  | .twaitReply t q vid => flit t 0x03 (vid * 2 ^ 24 + q * 2 ^ 36)
  | .arrival t bid _ => flit (gateOf s t) 0x04 (bid * 2 ^ 24)
  | .release t bid phase => flit t 0x05 (bid * 2 ^ 24 + phase * 2 ^ 31)
  | .fetch t ctr inc sd => flit (gateOf s t) 0x06 (ctr * 2 ^ 24 + inc * 2 ^ 32 + sd * 2 ^ 48)
  | .fetchReply t index epoch sd => flit t 0x07 (index * 2 ^ 24 + epoch * 2 ^ 56 + sd * 2 ^ 72)
  | .notice sdev stile cause ddev dtile dq tag => some (noticeFlit sdev stile cause ddev dtile dq tag)

end Sys2Proof.Machine
end

