-- ==== Sys2Proof/Machine/LevelUnits.lean ====
section
/-! DEFINITION. The register space of the Level units and of the cascade-barrier definitions (11 R278 to R298), and the tally
map (R279, R280). -/

namespace Sys2Proof.Machine

/-- LIMIT of the map entry that names physical tally p of Level l (R281). -/
def limitOf (s : State) (l p : Nat) : Nat :=
  ((s.tmap.find? fun e => bitAt e.2 14 && fld e.2 13 12 = l && fld e.2 11 0 = p).map fun e => fld e.2 39 16).getD 0

/-- A physical tally's register (R281). -/
def tallyReg (s : State) (l p : Nat) : Nat :=
  let y := tallyAt s l p
  y.value.toNat + limitOf s l p * 2 ^ 24 + y.waiters.length % 2 ^ 14 * 2 ^ 48 + b2n y.fault * 2 ^ 62

/-- 64 bits of a barrier unit or definition at an offset of its 512 bytes (R290). -/
def barrierReg (b : Barrier) (o : Nat) : Nat :=
  if o = 0 then b2n b.en + 2 * b.phase.toNat + 2 ^ 17 * (barMembers b).length + 2 ^ 29 * b.arr.length
  else if o = 8 then b.tmo.toNat
  else if o = 0x10 then fld b.bmask 63 0
  else if o = 0x18 then fld b.bmask 127 64
  else if o = 0x20 then fld b.bmask 143 128
  else if 0x40 ≤ o ∧ o < 0x160 then
    let k := (o - 0x40) / 2
    (List.range 4).foldl (fun a i => a + (arrGet b.tmask (k + i) 0).toNat * 2 ^ (16 * i)) 0
  else 0

/-- 64 bits of LU(n) at an offset, a multiple of 8 (R278). -/
def luRead64 (s : State) (n o : Nat) : W64 :=
  let u := levelN s n
  BitVec.ofNat 64 (
    if o < 0x8000 then tallyReg s n (o / 8)
    else if o < 0x10000 then (arrGet s.tmap ((o - 0x8000) / 8) 0).toNat
    else if o < 0x12000 then barrierReg (barrierAt s (16 * n + (o - 0x10000) / 0x200)) (o % 0x200)
    else if o < 0x13000 then
      let c := arrGet u.ctr ((o - 0x12000) / 16) ctr0
      if o % 16 = 0 then c.value.toNat + workEpoch s * 2 ^ 32 + b2n c.task * 2 ^ 48
      else c.hbase + c.hcnt * 2 ^ 14 + c.radius * 2 ^ 27 + c.taken.length * 2 ^ 32
    else if o = 0x13000 then u.stale.toNat
    else if 0x20000 ≤ o ∧ o < 0x28000 then
      let i := (o - 0x20000) / 2
      (List.range 4).foldl (fun a k => a + (arrGet u.home (i + k) 0).toNat * 2 ^ (16 * k)) 0
    else 0)

/-- A section of the computing job runs. -/
def anyRunning (s : State) : Bool := match s.comp with | some j => jobRunning s j | none => false

/-- A map entry written through all four copies; ignored while a section of the job runs (R278). -/
def writeMap (s : State) (v : Nat) (w : W64) : State :=
  if anyRunning s then s else { s with tmap := arrSet s.tmap v (BitVec.ofNat 64 (fld w 39 0 - fld w 15 15 * 2 ^ 15)) 0 }

/-- Bits m of a barrier's 64 bits at an offset (R290). -/
def barrierWrite (b : Barrier) (o : Nat) (v : W64) : Barrier :=
  if o = 0 then { b with en := bitAt v 0 }
  else if o = 8 then { b with tmo := v.setWidth 32 }
  else if o = 0x10 then { b with bmask := setFld b.bmask 63 0 v.toNat }
  else if o = 0x18 then { b with bmask := setFld b.bmask 127 64 v.toNat }
  else if o = 0x20 then { b with bmask := setFld b.bmask 143 128 v.toNat }
  else if 0x40 ≤ o ∧ o < 0x160 then
    let k := (o - 0x40) / 2
    { b with tmask := (List.range 4).foldl (fun a i => arrSet a (k + i) (BitVec.ofNat 16 (fld v (16 * i + 15) (16 * i))) 0) b.tmask }
  else b

/-- A write to a work counter's registers marks every task untaken when it writes VALUE or the task fields (R296, R298). -/
def counterWrite (s : State) (n c : Nat) (hi : Bool) (v m : W64) : State :=
  let x := ctrAt s n c
  if hi then
    if fld m 29 0 = 0 then s
    else setCtr s n c { x with hbase := fld v 13 0, hcnt := fld v 26 14, radius := fld v 29 27, taken := [] }
  else
    let wv := fld m 31 0 ≠ 0 && !anyRunning s
    let wt := bitAt m 48
    if !wv && !wt then s
    else setCtr s n c { x with
      value := if wv then v.setWidth 32 else x.value, task := if wt then bitAt v 48 else x.task, taken := [] }

/-- Two enabled entries name one physical tally (R280). -/
def mapClash (m : Arr W64) : Bool :=
  let on := m.filter fun e => bitAt e.2 14
  (on.map fun e => fld e.2 13 0).eraseDups.length ≠ on.length

/-- A host's write of a map entry: one that would map a physical tally twice is discarded (R280, log 45). -/
def hostMap (s : State) (v : Nat) (w : W64) : State := let s1 := writeMap s v w; if mapClash s1.tmap then s else s1

/-- A write to a barrier's 64 bits: a host's write to the masks or TMO while members have arrived is refused (R290, log 45). A
record's is kept out by check 7 of 12 R307. -/
def barrierPut (s : State) (record : Bool) (bid o : Nat) (v : W64) : State :=
  let b := barrierAt s bid
  if !record && decide (8 ≤ o) && !b.arr.isEmpty then s else setBarrier s bid (barrierWrite b o v)

/-- A write of the bits m of v to LU(n) at an offset, a multiple of 8 (R278 to R298), by a record or by a host through BAR0 (14
R350). Tallies are not written. -/
def luWrite64 (s : State) (record : Bool) (n o : Nat) (v m : W64) : State :=
  let nv := (luRead64 s n o &&& ~~~m) ||| (v &&& m)
  if m = 0 then s
  else if o < 0x8000 then s
  else if o < 0x10000 then (if record then writeMap s ((o - 0x8000) / 8) nv else hostMap s ((o - 0x8000) / 8) nv)
  else if o < 0x12000 then barrierPut s record (16 * n + (o - 0x10000) / 0x200) (o % 0x200) nv
  else if o < 0x13000 then counterWrite s n ((o - 0x12000) / 16) (o % 16 = 8) nv m
  else if o = 0x13000 then modLevel s n fun u => { u with stale := nv }
  else if 0x20000 ≤ o ∧ o < 0x28000 then
    let i := (o - 0x20000) / 2
    let put := fun (h : Arr (BitVec 16)) =>
      (List.range 4).foldl (fun a k => arrSet a (i + k) (BitVec.ofNat 16 (fld nv (16 * k + 11) (16 * k))) 0) h
    modLevel s n fun u => { u with home := put u.home }
  else s

/-- A cascade-barrier definition's 64 bits (R292). -/
def cbarRead64 (s : State) (o : Nat) : W64 := BitVec.ofNat 64 (barrierReg (barrierAt s (64 + o / 0x200)) (o % 0x200))
def cbarWrite64 (s : State) (record : Bool) (o : Nat) (v m : W64) : State :=
  if m = 0 then s
  else barrierPut s record (64 + o / 0x200) (o % 0x200) ((cbarRead64 s o &&& ~~~m) ||| (v &&& m))

end Sys2Proof.Machine
end

