-- ==== Sys2Proof/Machine/Images.lean ====
section
/-! DEFINITION. Configuration images: the header, the walk and the checks of a load, its modes, and the writing of its records
(12_configuration_images). -/

namespace Sys2Proof.Machine

/-! ### Parsing (R300 to R304) -/

/-- A record of the body (R302, R304): its index, offset and length in the body, and its bytes. -/
structure Rec where
  index : Nat
  bytes : List Byte
deriving DecidableEq, Repr

def recFrame (r : Rec) : Bool := leAt r.bytes 0 1 = 1
def recType (r : Rec) : Nat := leAt r.bytes 1 1
def recCol (r : Rec) : Nat := leAt r.bytes 2 1
def recRow0 (r : Rec) : Nat := leAt r.bytes 3 1
def recNrow (r : Rec) : Nat := leAt r.bytes 4 1
def recOffset (r : Rec) : Nat := leAt r.bytes 8 4
def recLen (r : Rec) : Nat := leAt r.bytes 12 4
def recPayload (r : Rec) : List Byte := slice r.bytes 16 (recLen r)
def recOp (r : Rec) : Nat := leAt r.bytes 1 1
def recW64 (r : Rec) : Bool := nbit (leAt r.bytes 2 1) 0
def recArg (r : Rec) : Nat := leAt r.bytes 4 4
def recAddr (r : Rec) : Nat := leAt r.bytes 8 8
def recValue (r : Rec) : Nat := leAt r.bytes 16 8
def recMask (r : Rec) : Nat := leAt r.bytes 24 8
def recRect (r : Rec) : Rect := { x0 := leAt r.bytes 4 1, x1 := leAt r.bytes 5 1, y0 := leAt r.bytes 6 1, y1 := leAt r.bytes 7 1 }

/-- Length of the record at the start of the bytes; none for a reserved KIND or OP (R302, R304). -/
def recLength (b : List Byte) : Option Nat :=
  if leAt b 0 1 = 1 then some (16 + leAt b 12 4)
  else if leAt b 0 1 = 2 then
    (match leAt b 1 1 with | 1 => some 24 | 2 => some 24 | 3 => some 32 | _ => none)
  else none

/-- The walk of the body (R307 check 1), with the records that NREC leaves and the next record's index: the records, or the index of the
record that is unknown or runs past the end; none for the index where a record count differs from NREC or bytes are left. -/
def walkBody : Nat → Nat → List Byte → Except (Option Nat) (List Rec)
  | 0, _, [] => .ok []
  | _ + 1, _, [] => .error none
  | 0, _, _ => .error none
  | k + 1, i, b =>
    match recLength b with
    | none => .error (some i)
    | some n =>
      if n > b.length then .error (some i)
      else match walkBody k (i + 1) (b.drop n) with
        | .ok rs => .ok ({ index := i, bytes := b.take n } :: rs)
        | .error e => .error e

/-- The header fields an image keeps (R300). -/
def imageOf (job region addr : Nat) (h : List Byte) : Image :=
  { job := job, region := region, addr := addr, size := 256 + leAt h 0x28 8, ity := leAt h 6 1,
    rect := { x0 := leAt h 8 1, x1 := leAt h 9 1, y0 := leAt h 10 1, y1 := leAt h 11 1 },
    epoch := leAt h 7 1, peer := BitVec.ofNat 56 (leAt h 0x30 7), rpl := nbit (leAt h 0x0C 4) 0, drain := leAt h 0x10 4,
    tmax := leAt h 0x14 4, draw := (List.range 4).map fun n => leAt h (0x18 + 2 * n) 2, nrec := leAt h 0x24 4 }

/-- R301. -/
def regionRule (ity : Nat) (r : Rect) : Bool :=
  match ity with
  | 0 => r.x0 = 0 && r.y0 = 0 && r.x1 = 47 && r.y1 = 47
  | 1 => (r.x0 = 0 || r.x0 = 24) && (r.y0 = 0 || r.y0 = 24) && r.x1 = r.x0 + 23 && r.y1 = r.y0 + 23
  | 2 => rectOk r
  | _ => false

/-- The header part of check 1 (R307). -/
def headerOk (h : List Byte) (i : Image) (room : Nat) : Bool :=
  let sig := nbit (leAt h 0x0C 4) 1
  h.take 4 = [0x50, 0x4C, 0x44, 0x37] && leAt h 4 2 = 1 && regionRule (leAt h 6 1) i.rect &&
  (List.range 4).all (fun n =>
    let d := i.draw.getD n 0
    d % 5 = 0 && decide (d ≤ 800) && (d = 0 || rectMeetsLevel i.rect n)) &&
  (!i.rpl || i.tmax ≠ 0) && leAt h 0x0C 4 / 4 = 0 && leAt h 0x22 2 = 0 && allZero (slice h 0x37 9) && allZero (slice h 0xD8 40) &&
  (sig || leAt h 0xD0 8 = 0) && i.epoch ≠ 0 && i.epoch ≠ 255 && decide (i.size ≤ room)

/-! ### What records write (R303, R305, R310) -/

/-- Start of a frame type's target in the control space, with its size; none for those outside it (R303). -/
def frameSpace (ty : Nat) : Option (Nat × Nat) :=
  match ty with
  | 1 => some (0x8000, 0x8000) | 2 => some (0x2000, 0x2000) | 3 => some (0x6000, 0x2000) | 5 => some (0x0C00, 512)
  | 6 => some (0x1080, 64) | _ => none

def frameSize (ty : Nat) : Nat :=
  match ty with
  | 1 => 0x8000 | 2 => 0x2000 | 3 => 0x2000 | 4 => 0x200000 | 5 => 512 | 6 => 64 | 7 => 0x8000 | 8 => 0x40000 | _ => 0

/-- The layout rules of a record (R302 to R304). -/
def recLayoutOk (r : Rec) : Bool :=
  if recFrame r then
    decide (1 ≤ recType r ∧ recType r ≤ 8) && leAt r.bytes 5 3 = 0 &&
    (if recType r = 7 then recCol r = 0xFF && recRow0 r = 0 && recNrow r = 0
      else decide (recCol r ≤ 47 ∧ 1 ≤ recNrow r ∧ recRow0 r + recNrow r ≤ 48)) &&
    recOffset r % 8 = 0 && recLen r % 8 = 0 && decide (8 ≤ recLen r ∧ recLen r ≤ 32768) &&
    decide (recOffset r + recLen r ≤ frameSize (recType r))
  else
    leAt r.bytes 2 1 / 2 = 0 && leAt r.bytes 3 1 = 0 &&
    (if recOp r = 2 then rectOk (recRect r) && decide (recAddr r < 0x10000)
      else decide (recAddr r < 2 ^ 48) && (recOp r = 3 || recArg r = 0)) &&
    (if recW64 r then recAddr r % 8 = 0 else recAddr r % 4 = 0 && decide (recValue r < 2 ^ 32))

def isCtl (a : Nat) : Bool := decide (0x090000000000 ≤ a ∧ a < 0x090000000000 + 2304 * 0x10000)
def isLu (a : Nat) : Bool := decide (0x0A0000800000 ≤ a ∧ a < 0x0A0000C00000)
def isCbar (a : Nat) : Bool := decide (0x0A0000C00000 ≤ a ∧ a < 0x0A0000C00800)

/-- R305. -/
def recLies (img : Image) (r : Rec) : Bool :=
  if recFrame r then
    recType r = 7 || (decide (img.rect.x0 ≤ recCol r ∧ recCol r ≤ img.rect.x1) && decide (img.rect.y0 ≤ recRow0 r) &&
      decide (recRow0 r + recNrow r ≤ img.rect.y1 + 1))
  else if recOp r = 2 then
    let q := recRect r
    decide (img.rect.x0 ≤ q.x0 ∧ q.x1 ≤ img.rect.x1 ∧ img.rect.y0 ≤ q.y0 ∧ q.y1 ≤ img.rect.y1)
  else
    let a := recAddr r
    if isCtl a then inRect img.rect ((a - 0x090000000000) / 0x10000)
    else if isLu a then rectMeetsLevel img.rect ((a - 0x0A0000800000) / 0x100000)
    else if isCbar a then img.ity = 0
    else false

/-- The configuration state of a tile at reset (R310), everything else kept. -/
def configReset (tl : Tile) : Tile :=
  { tl with
    arithCtrl := 0
    sq := { tl.sq with imem := [], entry := 0, s := [], launch := [], ldesc := [], plist := [] }
    vx := { tl.vx with prog := [], bind := [], vxd := [] }
    mx := { tl.mx with mxd := [] }
    pad := { tl.pad with treg := [] }
    net := { tl.net with queues := tl.net.queues.map fun e => (e.1, { closeQueue e.2 with w0 := 0, w1 := 0, w2 := 0 }) } }

/-- A frame's effect on a tile's registers and operand cache (R303). -/
def frameTile (split : Nat) (r : Rec) (tl : Tile) : Tile :=
  let p := recPayload r
  if recType r = 8 then
    { tl with mx := withOpc tl.mx (((List.range p.length).zip p).foldl (fun a b => arrSet a (recOffset r + b.1) b.2 0) tl.mx.opc) }
  else match frameSpace (recType r) with
    | some (st, _) => (List.range (recLen r / 8)).foldl (fun x i =>
        match ctlWrite64 .frame x split (st + recOffset r + 8 * i) (BitVec.ofNat 64 (leAt p (8 * i) 8)) (BitVec.ofNat 64 (2 ^ 64 - 1)) with
        | .ok y => y
        | .error _ => x) tl
    | none => tl

/-- A WRITE or BCAST record's effect on a tile's registers. -/
def recordTile (split off : Nat) (r : Rec) (tl : Tile) : Tile :=
  match ctlWrite .record tl split off (recW64 r) (BitVec.ofNat 64 (recValue r)) with
  | .ok x => x
  | .error _ => tl

/-- Whether a record reaches tile t, and at which control-space offset and length; a CONST or STREAM_TABLE frame reaches no
register. -/
def recSpan (r : Rec) (t : Nat) : Option (Nat × Nat) :=
  if recFrame r then
    if recCol r = t % 48 ∧ recRow0 r ≤ t / 48 ∧ t / 48 < recRow0 r + recNrow r then
      (frameSpace (recType r)).map fun f => (f.1 + recOffset r, recLen r)
    else none
  else if recOp r = 1 then
    if isCtl (recAddr r) ∧ (recAddr r - 0x090000000000) / 0x10000 = t then
      some ((recAddr r - 0x090000000000) % 0x10000, if recW64 r then 8 else 4) else none
  else if recOp r = 2 then
    if inRect (recRect r) t then some (recAddr r % 0x10000, if recW64 r then 8 else 4) else none
  else none

/-- Tile t as the records leave it; what they leave is tested, not what each one alone would leave (R307). -/
def tileOf (split : Nat) (rs : List Rec) (t : Nat) (tl : Tile) : Tile :=
  rs.foldl (fun x r =>
    match recSpan r t with
    | some (o, _) =>
      if recFrame r then frameTile split r x
      else match ctlWrite .frame x split o (recW64 r) (BitVec.ofNat 64 (recValue r)) with
        | .ok y => y
        | .error _ => x
    | none => x) tl

/-! ### The content rules (R307 checks 6 and 7) -/

/-- Bits an instruction may set beside its opcode (06 R146); none for a reserved opcode. -/
def instrMask (op : Nat) : Option Nat :=
  let m := fun (l : List (Nat × Nat)) => l.foldl (fun a p => a + maskOf p.1 p.2) 0
  match op with
  | 0x00 => some 0
  | 0x01 => some (m [(11, 0)])
  | 0x02 => some (m [(55, 50), (11, 0)])
  | 0x03 => some (m [(55, 48), (31, 0)])
  | 0x08 => some (m [(55, 52), (11, 0)])
  | 0x09 => some (m [(55, 52)])
  | 0x0A => some (m [(55, 49), (47, 30), (11, 0)])
  | 0x0C => some (m [(55, 33), (31, 0)])
  | 0x0D => some (m [(55, 48), (46, 33)])
  | 0x10 | 0x11 => some (m [(2, 0)])
  | 0x12 => some 0
  | 0x18 | 0x19 => some (m [(3, 0)])
  | 0x20 => some (m [(55, 52), (14, 0)])
  | 0x21 => some (m [(55, 36), (35, 0)])
  | 0x28 | 0x2A => some (m [(55, 25)])
  | 0x29 => some (m [(55, 42)])
  | 0x30 | 0x32 => some (m [(55, 53), (43, 32), (23, 0)])
  | 0x31 => some (m [(55, 51), (43, 32), (23, 0)])
  | 0x34 | 0x35 => some (m [(55, 53), (6, 0)])
  | 0x38 => some (m [(55, 52), (47, 40), (15, 0)])
  | _ => none

/-- The rules of R145 to R147 for the instruction at index i. -/
def instrOk (q : Sequencer) (i : Nat) : Bool :=
  let w := instrAt q i
  match instrMask (opc w) with
  | none => false
  | some m =>
    (w &&& ~~~(BitVec.ofNat 64 (m + maskOf 63 56))) = 0 &&
    (match opc w with
      | 0x03 => decide (fld w 55 53 ≤ 4)
      | 0x08 =>
        let e := instrAt q (fld w 11 0)
        decide (i < fld w 11 0) && opc e = 0x09 && fld e 55 52 = fld w 55 52
      | 0x0A => decide (fld w 51 49 ≤ 5)
      | 0x0C => decide (fld w 55 53 ≤ 4) && !(bitAt w 52 && fld w 46 33 % 2 = 1) &&
          (let o := 4 * fld w 46 33; decide (o < 0x8000) && !decide (0x2000 ≤ o ∧ o < 0x4000))
      | 0x0D => decide (fld w 55 53 ≤ 4) && !(bitAt w 52 && fld w 46 33 % 2 = 1)
      | 0x20 => decide (fld w 55 53 ≤ 5)
      | 0x28 | 0x2A => !bitAt w 29 || (fld w 51 36 = 0 && fld w 35 30 = 0)
      | 0x29 => !bitAt w 47 || (fld w 55 52 ≠ 15 && fld w 46 43 ≠ fld w 51 48 && !bitAt w 42)
      | 0x31 => decide (fld w 55 53 ≤ 4) && fld w 52 51 ≠ 3
      | 0x30 | 0x32 => decide (fld w 55 53 ≤ 4)
      | 0x34 | 0x35 => decide (fld w 55 53 ≤ 4) && decide (fld w 6 0 ≤ 67)
      | _ => true)

/-- Instruction memory as the image leaves it: unlisted words are HALT. -/
def imemOk (q : Sequencer) : Bool := q.imem.all fun e => instrOk q e.1

/-- A matrix descriptor meets every condition of 03 R70, all of which the descriptor alone decides. -/
def mxdOk (m : MxUnit) (d : Nat) : Bool := (mmaCheck (mdesc m d)).isNone

/-- A run descriptor holds no reserved format code (02 R33); FMT is ignored for KIND 3 (04 R95). -/
def vxdOk (v : VxUnit) (d : Nat) : Bool :=
  (List.range 5).all fun i =>
    let w := vxdWord v d (3 + i)
    fld w 1 0 = 3 || decide (fld w 7 4 ≤ 7)

/-- A loop descriptor is unused or well-formed (07 R169). -/
def ldescOk (q : Sequencer) (d : Nat) : Bool := ldLevels (ldCopy q d) = 0 || (ldCheck (ldCopy q d)).isNone

/-- A detour entry's PORT is not reserved (10 R251). -/
def detourOk (w : W64) : Bool := decide (fld w 26 24 ≤ 4)

/-- A queue of an image with RPL set is not in MODE 2 (10 R254). -/
def modeOk (rpl : Bool) (q : RecvQueue) : Bool := !rpl || fld q.w0 23 12 = 0 || fld q.w0 37 36 ≠ 2

/-- TREGs and declarations whose slots meet the ranges rs, but for the structure at `self` (08 R184, 10 R254). -/
def slotClashes (tl : Tile) (rs : List (Nat × Nat)) (self : Nat) : List (Nat × Nat) :=
  let hit := fun (l : List (Nat × Nat)) => l.any fun x => rs.any (rangesMeet x)
  (((List.range 8).filter fun i => hit (tregRange (arrGet tl.pad.treg i 0)).toList).map fun i => (0x300 + 8 * i, 8)).filter (·.1 ≠ self) ++
  (((List.range 16).filter fun i => hit (declRanges (queueN tl.net i))).map fun i => (0xC00 + 32 * i, 32)).filter (·.1 ≠ self)

/-- A structure that check 7 tests: its bytes in the control space, whether it stands, and the structures it clashes with. -/
structure Tested where
  lo : Nat
  len : Nat
  ok : Bool
  clash : List (Nat × Nat)

/-- The structures of one tile that check 7 tests (R307). -/
def tileStructures (rpl : Bool) (tl : Tile) : List Tested :=
  let plain := fun (lo n : Nat) (ok : Bool) => ({ lo := lo, len := n, ok := ok, clash := [] } : Tested)
  [plain 0x8000 0x8000 (imemOk tl.sq)] ++
  ((List.range 16).map fun i => plain (0x2000 + 512 * i) 512 (progOk (progBound tl.vx i))) ++
  ((List.range 16).map fun i => plain (0x6000 + 512 * i) 512 (ldescOk tl.sq i)) ++
  ((List.range 8).map fun i => plain (0x400 + 32 * i) 32 (mxdOk tl.mx i)) ++
  ((List.range 8).map fun i => plain (0x600 + 64 * i) 64 (vxdOk tl.vx i)) ++
  ((List.range 8).map fun i =>
    let w := arrGet tl.pad.treg i 0
    let c := slotClashes tl (tregRange w).toList (0x300 + 8 * i)
    { lo := 0x300 + 8 * i, len := 8, ok := tregInside w && c.isEmpty, clash := c }) ++
  ((List.range 16).map fun i =>
    let c := slotClashes tl (declRanges (queueN tl.net i)) (0xC00 + 32 * i)
    { lo := 0xC00 + 32 * i, len := 32, ok := declOk tl i && modeOk rpl (queueN tl.net i), clash := c }) ++
  ((List.range 8).map fun i => plain (0x1080 + 8 * i) 8 (detourOk (arrGet tl.net.detour i 0)))

/-- The bytes a record carries to a control-space offset. -/
def recData (r : Rec) : List Byte := if recFrame r then recPayload r else leBytes (if recW64 r then 8 else 4) (recValue r)

/-- The byte that the records leave at a control-space offset of tile t, reserved bits included; zero when none writes it. -/
def rawByte (rs : List Rec) (t a : Nat) : Nat :=
  match (rs.filter fun r => match recSpan r t with | some (o, n) => decide (o ≤ a ∧ a < o + n) | none => false).getLast? with
  | some r => match recSpan r t with
    | some (o, _) => leAt (recData r) (a - o) 1
    | none => 0
  | none => 0

/-- Reserved bits of the descriptors, declarations and detour entries that the records write are zero (00 R7, 07 R169, 10 R254;
log 39). Instructions and element programs have their reserved bits checked with them. -/
def reservedOk (rs : List Rec) (t lo n : Nat) : Bool :=
  decide (0x2000 ≤ lo ∧ lo < 0x4000) || decide (0x8000 ≤ lo) || decide (lo < 0x400) ||
  (List.range (n / 8)).all fun i =>
    let o := lo + 8 * i
    BitVec.ofNat 64 ((List.range 8).foldl (fun a b => a + rawByte rs t (o + b) * 2 ^ (8 * b)) 0) &&& ~~~(BitVec.ofNat 64 (ctlMask o)) = 0

/-- The last record that writes a byte of a structure. -/
def lastWriter (rs : List Rec) (t lo n : Nat) : Option Nat :=
  (rs.filter fun r => match recSpan r t with | some (o, l) => overlaps o l lo n | none => false).getLast?.map (·.index)

/-- Check 7 on one tile: the index of the record to blame, the last that writes the structure or one it clashes with. -/
def tileFault (split : Nat) (rpl : Bool) (rs : List Rec) (t : Nat) (tl : Tile) : Option Nat :=
  let x := tileOf split rs t (configReset tl)
  (tileStructures rpl x).findSome? fun c =>
    match lastWriter rs t c.lo c.len with
    | none => none
    | some w =>
      if c.ok && reservedOk rs t c.lo c.len then none
      else some ((c.clash.filterMap fun y => lastWriter rs t y.1 y.2).foldl max w)

/-- R125 on one tile: a binding that the image writes. A program that breaks R101 too is left to check 7. DESIGN CHOICE (log 61): a
binding that a command record writes, the only record that reaches FUSE_BIND, is checked at the load, and again where R126 checks it
first, at the run's start. -/
def tileFusion (split : Nat) (rs : List Rec) (fuse t : Nat) (tl : Tile) : Option Nat :=
  let x := tileOf split rs t (configReset tl)
  (List.range 16).findSome? fun i =>
    match lastWriter rs t (0x5000 + 4 * i) 4 with
    | none => none
    | some w =>
      let b := arrGet x.vx.bind i 0
      let p := progOf x.vx i
      if (!bindFieldsOk b || (bitAt b 4 && (!nbit fuse (fld b 3 0) || !canonicalOk (fld b 3 0) (fld b 6 5) (fld b 11 8) p))) && progOk (progBound x.vx i) then
        some ((lastWriter rs t (0x2000 + 512 * i) 512).elim w (max w))
      else none

/-- What a record writes into the tally map: entry, value and the bits written (11 R280). -/
def mapWrites (r : Rec) : List (Nat × W64 × W64) :=
  let ones := BitVec.ofNat 64 (2 ^ 64 - 1)
  if recFrame r then
    if recType r = 7 then (List.range (recLen r / 8)).map fun i => (recOffset r / 8 + i, BitVec.ofNat 64 (leAt (recPayload r) (8 * i) 8), ones)
    else []
  else if recOp r = 1 ∧ isLu (recAddr r) ∧ 0x8000 ≤ (recAddr r - 0x0A0000800000) % 0x100000 ∧
      (recAddr r - 0x0A0000800000) % 0x100000 < 0x10000 then
    let sh := recAddr r % 8 * 8
    [(((recAddr r - 0x0A0000800000) % 0x100000 - 0x8000) / 8, BitVec.ofNat 64 (recValue r * 2 ^ sh),
      if recW64 r then ones else BitVec.ofNat 64 ((2 ^ 32 - 1) * 2 ^ sh))]
  else []

/-- A TALLY_MAP frame, or a record that writes the tally map (R307 check 5). -/
def touchesMap (r : Rec) : Bool := (recFrame r && recType r = 7) || !(mapWrites r).isEmpty

/-- The record to blame for a tally map that clashes or has a reserved bit set (R280, R307): the last that writes an offending
entry. -/
def mapFault (tmap : Arr W64) (rs : List Rec) : Option Nat :=
  let ws := rs.flatMap fun r => (mapWrites r).map fun w => (r.index, w.1, w.2.1, w.2.2)
  let m := ws.foldl (fun a w => arrSet a w.2.1 ((arrGet a w.2.1 0 &&& ~~~w.2.2.2) ||| (w.2.2.1 &&& w.2.2.2)) 0) tmap
  let on := m.filter fun e => bitAt e.2 14
  let bad := fun (v : Nat) =>
    let w := arrGet m v 0
    fld w 15 15 ≠ 0 || fld w 63 40 ≠ 0 || (bitAt w 14 && on.any fun e => e.1 ≠ v && fld e.2 13 0 = fld w 13 0)
  (ws.filter fun w => bad w.2.1).getLast?.map (·.1)

/-- A record that writes the masks or TMO of a barrier in which members have arrived (11 R290). -/
def barrierFault (s : State) (r : Rec) : Bool :=
  !recFrame r && recOp r = 1 &&
    (let a := recAddr r
     if isLu a then
       let o := (a - 0x0A0000800000) % 0x100000
       decide (0x10000 ≤ o ∧ o < 0x12000) && decide (8 ≤ o % 0x200) &&
         !(barrierAt s (16 * ((a - 0x0A0000800000) / 0x100000) + (o - 0x10000) / 0x200)).arr.isEmpty
     else isCbar a && decide (8 ≤ (a - 0x0A0000C00000) % 0x200) && !(barrierAt s (64 + (a - 0x0A0000C00000) / 0x200)).arr.isEmpty)

/-- The verify phase (R307): the first check that fails, with its DETAIL; or the records. -/
def verifyImage (s : State) (img : Image) (room : Nat) (sigOk : Bool) : Except (Nat × Nat) (List Rec) :=
  let h := memRead s img.addr 256
  if !headerOk h img room then .error (stBadParam, noField)
  else
    let body := memRead s (img.addr + 256) (img.size - 256)
    match walkBody img.nrec 0 body with
    | .error i => .error (stBadParam, i.getD noField)
    | .ok rs =>
      let sig := nbit (leAt h 0x0C 4) 1
      let known := match s.sec.floor with | some f => f.keys.any fun k => k.1 = leAt h 0xD0 8 | none => false
      let tiles := goodTiles s img.rect
      if sha384 (h.take 0x40 ++ body) ≠ slice h 0x40 48 then .error (stImageDigest, noField)
      else if (sig && !(sigOk && known)) || (!sig && feature s 1 = 1) then .error (stSignature, noField)
      else if tiles.any fun t => let n := (tileAt s t).net; n.epoch.toNat = img.epoch || n.prev.toNat = img.epoch then
        .error (stEpochReuse, noField)
      else match (if jobRunning s img.job then rs.find? touchesMap else none) with
        | some r => .error (stJobBusy, r.index)
        | none =>
          match tiles.findSome? fun t => tileFusion (jobSplit s) rs (leAt h 0x20 2) t (tileAt s t) with
          | some i => .error (stFusionUnsupported, i)
          | none =>
            match rs.find? fun r => !recLayoutOk r with
            | some r => .error (stBadParam, r.index)
            | none =>
              match tiles.findSome? fun t => tileFault (jobSplit s) img.rpl rs t (tileAt s t) with
              | some i => .error (stBadParam, i)
              | none =>
                match mapFault s.tmap rs with
                | some i => .error (stBadParam, i)
                | none =>
                  match rs.find? (barrierFault s) with
                  | some r => .error (stBadParam, r.index)
                  | none => .ok rs

/-! ### The phases of a load -/

/-- The first tile that breaks QUIESCED (R309). -/
def unquiesced (s : State) (r : Rect) : Option Nat :=
  (goodTiles s r).find? fun t => tileRunning (tileAt s t) || tokensOf s t ≠ 0

/-- Bring a tile back from S1 (19 R449, R450). -/
def wakeTile (tl : Tile) : Tile := if tl.s1 then tileGenReset tl else { tl with a1 := false }

/-- The start of the write phase on every good tile (R310). -/
def beginWrite (s : State) (l : Load) : State :=
  let s1 := (goodTiles s l.img.rect).foldl (fun s t => modTile s t fun tl0 =>
    let tl := configReset (wakeTile tl0)
    { tl with net := { addSpoil tl.net 0 (netHeld tl0.net) with prev := tl.net.epoch, epoch := 0, peer := 0 } }) s
  { s1 with load := some { l with phase := .write, index := 0, off := 256 }, paused := s1.paused.filter fun t => !inRect l.img.rect t }

/-- The end of a successful load (R313): epochs, peers, AGEN, the generation tables; the lock stays with the image. -/
def finishLoad (s : State) (l : Load) : State :=
  let s1 := (goodTiles s l.img.rect).foldl (fun s t => modTile s t fun tl =>
    { tl with net := { tl.net with epoch := BitVec.ofNat 8 l.img.epoch, peer := l.img.peer, agen := tl.net.gen } }) s
  replyOk (pruneImages { tellGenerations s1 (goodTiles s l.img.rect) with load := none, images := s1.images ++ [l.img] }) l.ticket l.tokens l.img.nrec

/-- A load that ends inside the write phase (R312): EPOCH 255 on every good tile. -/
def abortLoad (s : State) (l : Load) (st : Nat) : State :=
  let s1 := (goodTiles s l.img.rect).foldl (fun s t => modTile s t fun tl => { tl with net := { tl.net with epoch := 255 } }) s
  refuse (pruneImages { s1 with load := none }) l.ticket st l.index

/-- The record the write phase takes next. -/
def nextRecord (s : State) (l : Load) : Option Rec :=
  if l.phase = .write ∧ l.off < l.img.size then
    match recLength (memRead s (l.img.addr + l.off) 32) with
    | some n => some { index := l.index, bytes := memRead s (l.img.addr + l.off) n }
    | none => none
  else none

/-- The first line of the record that the write phase takes next which is lost with its pseudo-channel (09 R224, 18 R429). -/
def recordLost (s : State) (l : Load) : Option Nat :=
  if l.phase = .write ∧ l.off < l.img.size then
    match lostIn s (l.img.addr + l.off) 32 with
    | some a => some a
    | none => match recLength (memRead s (l.img.addr + l.off) 32) with
      | some n => lostIn s (l.img.addr + l.off) n
      | none => none
  else none

/-- The records of a loaded image, walked again in its locked region. -/
def imageRecords (s : State) (i : Image) : List Rec :=
  match walkBody i.nrec 0 (memRead s (i.addr + 256) (i.size - 256)) with
  | .ok rs => rs
  | .error _ => []

/-- The first line of a loaded image that is lost. -/
def imageLost (s : State) (i : Image) : Option Nat := lostIn s i.addr i.size

/-- The record has taken effect; after the last one the load ends (R311, R313). -/
def stepRecord (s : State) (l : Load) (r : Rec) : State :=
  let l1 := { l with index := l.index + 1, off := l.off + r.bytes.length }
  let s1 := binReads s (l.img.addr + l.off) r.bytes.length
  if l1.off ≥ l1.img.size then finishLoad { s1 with load := some l1 } l1 else { s1 with load := some l1 }

/-- The next record, when it is of the kind a row names, tested under R305 first (R312). An image that can no longer be read is an
uncorrectable error, job-fatal for its owner (09 R224). -/
def withRecord (s : State) (p : Rec → Bool) (f : Load → Rec → State) : Outcome :=
  match s.load with
  | none => .next s
  | some l =>
    match recordLost s l, nextRecord s l with
    | some a, _ => .next (memFatal s a false)
    | none, none => .next s
    | none, some r =>
      if !p r then .next s
      else if !recLies l.img r then .next (abortLoad s l stRegionViolation)
      else .next (f l r)

/-- One frame into every good tile of its rows, or the tally map (R303, R311). -/
def applyFrame (s : State) (r : Rec) : State :=
  if recType r = 7 then (mapWrites r).foldl (fun s w => writeMap s w.1 w.2.1) s
  else
    let ts := ((List.range (recNrow r)).map fun k => 48 * (recRow0 r + k) + recCol r).filter fun t => !tileRetired s t
    ts.foldl (fun s t =>
      if recType r = 4 then padWrite s t (recOffset r) (recPayload r)
      else modTile s t (frameTile (jobSplit s) r)) s

/-- FRAME_RECORD (R303, R311, R312). -/
def execFrameRecord (s : State) : Outcome :=
  withRecord s recFrame fun l r => stepRecord (applyFrame s r) l r

/-- The 64 bits at an address that a record may name (R304, R305). -/
def recordRead (s : State) (a : Nat) : W64 :=
  if isCtl a then ctlRead64 (tileAt s (substT s ((a - 0x090000000000) / 0x10000))) (jobSplit s) (a % 0x10000 / 8 * 8)
  else if isLu a then luRead64 s ((a - 0x0A0000800000) / 0x100000) ((a - 0x0A0000800000) % 0x100000 / 8 * 8)
  else if isCbar a then cbarRead64 s ((a - 0x0A0000C00000) / 8 * 8)
  else 0

/-- A WRITE record's store (R304). -/
def recordWrite (s : State) (r : Rec) : State :=
  let a := recAddr r
  if isCtl a then
    let t := substT s ((a - 0x090000000000) / 0x10000)
    if tileRetired s t then s else modTile s t (recordTile (jobSplit s) (a % 0x10000) r)
  else
    let sh := a % 8 * 8
    let v := BitVec.ofNat 64 (recValue r * 2 ^ sh)
    let m := BitVec.ofNat 64 (if recW64 r then 2 ^ 64 - 1 else (2 ^ 32 - 1) * 2 ^ sh)
    if isLu a then luWrite64 s true ((a - 0x0A0000800000) / 0x100000) ((a - 0x0A0000800000) % 0x100000 / 8 * 8) v m
    else cbarWrite64 s true ((a - 0x0A0000C00000) / 8 * 8) v m

/-- The first of the tiles whose tagged regions or declarations a record would break (08 R184, 10 R254). -/
def recordBreaks (s : State) (ts : List Nat) (off : Nat) (r : Rec) : Option (Nat × TErr) :=
  ts.findSome? fun t =>
    match ctlWrite .record (tileAt s t) (jobSplit s) off (recW64 r) (BitVec.ofNat 64 (recValue r)) with
    | .ok _ => none
    | .error e => some (t, e)

/-- A command record on tiles: the job-fatal error of R184 and R254, else its effect. -/
def recordStep (s : State) (l : Load) (r : Rec) (ts : List Nat) (off : Nat) (f : State) : State :=
  match recordBreaks s ts off r with
  | some (t, e) => if s.comp.isSome then tileFatal s t 8 0xFFFF e else stepRecord (tileRecord s t 8 0xFFFF e) l r
  | none => stepRecord f l r

/-- COMMAND_RECORD_WRITE (R304, R311, R312). -/
def execCommandRecordWrite (s : State) : Outcome :=
  withRecord s (fun r => !recFrame r && recOp r = 1) fun l r =>
    let t := substT s ((recAddr r - 0x090000000000) / 0x10000)
    recordStep s l r (if isCtl (recAddr r) && !tileRetired s t then [t] else []) (recAddr r % 0x10000) (recordWrite s r)

/-- COMMAND_RECORD_BCAST (R304, R311). -/
def execCommandRecordBcast (s : State) : Outcome :=
  withRecord s (fun r => !recFrame r && recOp r = 2) fun l r =>
    let ts := goodTiles s (recRect r)
    recordStep s l r ts (recAddr r) (ts.foldl (fun s t => modTile s t (recordTile (jobSplit s) (recAddr r) r)) s)

/-- A WAIT record's masked read equals its value (R304). -/
def waitMet (s : State) (r : Rec) : Bool :=
  let a := recAddr r
  let v := (recordRead s a).toNat / 2 ^ (if recW64 r then 0 else a % 8 * 8) % (if recW64 r then 2 ^ 64 else 2 ^ 32)
  (BitVec.ofNat 64 v &&& BitVec.ofNat 64 (recMask r)) = (BitVec.ofNat 64 (recValue r) &&& BitVec.ofNat 64 (recMask r))

/-- COMMAND_RECORD_WAIT (R304): one poll. -/
def execCommandRecordWait (s : State) : Outcome :=
  withRecord s (fun r => !recFrame r && recOp r = 3) fun l r => if waitMet s r then stepRecord s l r else s

/-- LOAD_WAIT_TIMEOUT (R304, R312). -/
def execLoadWaitTimeout (s : State) : Outcome :=
  withRecord s (fun r => !recFrame r && recOp r = 3) fun l r => if waitMet s r then s else abortLoad s l stDrainTimeout

/-- The start of the write phase; an image without records ends at once. -/
def startWrite (s : State) (l : Load) : State :=
  let s1 := beginWrite s l
  match s1.load with
  | some x => if x.off ≥ x.img.size then finishLoad s1 x else s1
  | none => s1

/-- DISCARD of the region's tokens with its record (R309): the tiles stop at instruction boundaries, what they have sent to the Level
units is applied, then the tokens go. -/
def discardRegion (s : State) (r : Rect) : State × Nat :=
  let ts := goodTiles s r
  let s1 := settleAt s ts
  if s1.comp ≠ s.comp then (s1, 0)
  else
    let n := (ts.map (tokensOf s1)).foldl (· + ·) 0
    (jobRecord (stopTiles s1 ts) 9 stTokensPresent 1 (r.x0 + r.x1 * 2 ^ 8 + r.y0 * 2 ^ 16 + r.y1 * 2 ^ 24) 0 [n], n)

/-- The mode phase (R309). An operation that DISCARD applies may fail the job, and the load with it. -/
def modePhase (s : State) (l : Load) (mode : Nat) : State :=
  if mode = 2 then
    let d := discardRegion s l.img.rect
    if d.1.comp ≠ s.comp then d.1 else startWrite d.1 { l with tokens := d.2 }
  else match unquiesced s l.img.rect with
    | some t => if mode = 0 then refuse s l.ticket stTokensPresent t else { s with load := some l }
    | none => startWrite s l

/-- Some line of the image, as far as its header is sound, is lost (09 R224, 18 R429). -/
def loadLost (s : State) (img : Image) (room : Nat) : Option Nat :=
  match lostIn s img.addr 256 with
  | some a => some a
  | none => if headerOk (memRead s img.addr 256) img room then imageLost s img else none

/-- The verify phase has read the image, as far as its header is sound (R308, 08 R209). -/
def imageRead (s : State) (img : Image) (room : Nat) : State :=
  binReads s img.addr (if headerOk (memRead s img.addr 256) img room then img.size else 256)

/-- A switch of the job has begun (15 R359): no load of it begins before the switch ends. -/
def leaving (s : State) (j : Nat) : Bool := match s.sw with | some w => w.job = j && w.phase ≠ .wait | none => false

/-- SECTION_LOAD (R306 to R310): one load at a time; refused with JOB_BUSY for a job that does not compute. It waits for a reset in
progress, for a switch of the job that has begun, and for a Level in S2 that it meets to wake (15 R359, 19 R449, R450). -/
def execSectionLoad (k : Nat) (sigOk : Bool) (s : State) : Outcome :=
  withJob s k 0x0300 fun x j =>
    if s.load.isSome ∨ leaving s j.id then .next s
    else if s.comp ≠ some j.id then .next (refuse s k stJobBusy 0)
    else if pfld x 0x20 1 > 2 then .next (badField s k 0x20)
    else match regionBase s j.id (pfld x 0x10 8) with
      | none => .next (badField s k 0x10)
      | some r =>
        let off := pfld x 0x18 8
        if off + 256 > visibleBytes r then .next (refuse s k stBadParam noField)
        else
          let img := imageOf j.id r.base (r.base + off) (memRead s (r.base + off) 256)
          if !s.resets.isEmpty ∨ s.s2.any (rectMeetsLevel img.rect) then .next s
          else match loadLost s img (visibleBytes r - off) with
          | some a => .next (memFatal s a false)
          | none =>
          let s1 := imageRead s img (visibleBytes r - off)
          match verifyImage s img (visibleBytes r - off) sigOk with
          | .error e => .next (refuse s1 k e.1 e.2)
          | .ok _ =>
            .next (modePhase (early s1 x) { ticket := k, img := img, phase := .drain, index := 0, off := 256, tokens := 0 } (pfld x 0x20 1))

/-- LOAD_DRAIN_DONE (R309). -/
def execLoadDrainDone (s : State) : Outcome :=
  match s.load with
  | some l => if l.phase = .drain && (unquiesced s l.img.rect).isNone then .next (startWrite s l) else .next s
  | none => .next s

/-- LOAD_DRAIN_TIMEOUT (R309): nothing is written; the region's tiles stay stopped with what they hold. -/
def execLoadDrainTimeout (s : State) : Outcome :=
  match s.load with
  | some l =>
    match l.phase, unquiesced s l.img.rect with
    | .drain, some t =>
      .next (refuse { s with load := none, paused := s.paused ++ (goodTiles s l.img.rect).filter fun u => !s.paused.contains u } l.ticket stDrainTimeout t)
    | _, _ => .next s
  | none => .next s

end Sys2Proof.Machine
end

