-- ==== Sys2Proof/Machine/Sections.lean ====
section
/-! DEFINITION. Sections: the end of a tile, launch, start, stop, commit, save and restore (06 R134, R139, 11 R287, R288,
14 R343 to R345, 15 R356, 16 R376, 18 R432, R436). -/

namespace Sys2Proof.Config

/-- FREE VALUE. The live state that a section save holds when its blocks are not those the device wrote there (14 R345: their
contents have no layout): by the fresh-value counter. -/
opaque savedState : Nat → Sys2Proof.Machine.Saved

end Sys2Proof.Config

namespace Sys2Proof.Machine

/-! ### Rectangles and tiles -/

/-- The first field of a rectangle that offends (14 R330). -/
def rectField (r : Rect) : Option Nat :=
  if r.x0 > 47 then some 0x10
  else if r.x1 > 47 ∨ r.x1 < r.x0 then some 0x11
  else if r.y0 > 47 then some 0x12
  else if r.y1 > 47 ∨ r.y1 < r.y0 then some 0x13
  else none

/-- Tiles that act for a rectangle: its good tiles, and the spares that stand for its retired ones (18 R426). -/
def actingTiles (s : State) (r : Rect) : List Nat :=
  (rectTiles r).filterMap fun t => if !tileRetired s t then some t else (s.subst.find? (·.1 = t)).map (·.2)

/-- A switch or restore of the job is decided or under way. -/
def switching (s : State) (j : Nat) : Bool := match s.sw with | some w => w.job = j | none => false

/-- A load in progress meets the rectangle (14 R343). -/
def loadMeets (s : State) (r : Rect) : Bool := match s.load with | some l => rectsMeet l.img.rect r | none => false

/-! ### TILE_FINISHED -/

/-- TILE_FINISHED (06 R139, 10 R261): the queues close, each message held counted under CLOSED; SECTION_END follows. -/
def execTileFinished (t : Nat) (s : State) : Outcome :=
  withTile s t fun tl =>
    if tl.sq.st = .halted ∧ !tl.sq.fault ∧ tileDrained tl ∧ !tilePaused s t then
      let n := netHeld tl.net
      .next (endSections (setTile s t { tl with sq := { tl.sq with st := .finished }, net := addSpoil (closeQueues tl.net) 0 n }))
    else .next s

/-! ### Launch (14 R343, R344) -/

/-- The loaded image a launch is of: the last loaded of its epoch that meets the rectangle; job 0 marks the initial image, which
any job may launch (19 R454). -/
def launchImage (s : State) (j : Nat) (r : Rect) (e : Nat) : Option Image :=
  (s.images.filter fun i => (i.job = j || i.job = 0) && i.epoch = e && rectsMeet i.rect r).getLast?

/-- The lowest tile that forbids a launch (R343, 12 R312, R316). -/
def launchBad (s : State) (ts : List Nat) (e : Nat) : Option Nat :=
  ts.find? fun t =>
    let tl := tileAt s t
    tl.net.epoch.toNat ≠ e || e = 255 || tl.net.gen ≠ tl.net.agen || tileRunning tl

/-- The declared queues open, keeping what they hold (10 R261). -/
def openQueues (n : NetIf) : NetIf :=
  { n with queues := n.queues.map fun e => (e.1, if qDeclared e.2 then { e.2 with opened := true } else e.2) }

/-- A tile starts (06 R134, 11 R295). -/
def startTile (we : BitVec 16) (tl : Tile) : Tile :=
  { tl with
    a1 := false
    q := queuesReset
    sq := { tl.sq with
      count := 0, pc := tl.sq.entry.toNat, st := .running, fault := false, pend := 0, s := tl.sq.launch, loops := [] }
    net := { openQueues tl.net with wepoch := we, npCount := 0 } }

/-- Values of the mapped tallies. -/
def mappedValues (s : State) : List (Nat × BitVec 24) :=
  s.tmap.filterMap fun e => (mapEntry s e.1).map fun m => (e.1, (tallyAt s m.1 m.2.1).value)

/-- The snapshot of a replayable launch, which replaces the one before; ARITH_STATUS stays recorded of the tiles of the sections launched
earlier, each as at its own launch (11 R288, 02 R61). -/
def takeSnapshot (s : State) (ts : List Nat) : Snapshot :=
  { values := mappedValues s
    bars := ((List.range 4).map fun n => (levelN s n).bar) ++ [s.cbar]
    ctrs := (List.range 4).map fun n => (levelN s n).ctr
    arith := ts.foldl (fun a t => arrSet a t (tileAt s t).arithStatus 0) ((s.snap.map (·.arith)).getD []) }

def imageRpl (i : Option Image) : Bool := match i with | some x => x.rpl | none => false

def modLaunch (s : State) (k : Nat) (f : Launch → Launch) : State :=
  { s with launches := s.launches.map fun l => if l.ticket = k then f l else l }

/-- The tiles of a launch start (14 R343, 11 R288, 18 R435). -/
def beginSection (s : State) (l : Launch) : State :=
  let ts := launchTiles s l.rect
  let s1 := ts.foldl (fun a t => modTile a t (startTile (BitVec.ofNat 16 (workEpoch s)))) s
  let s2 := modLaunch s1 l.ticket fun x => { x with stage := .running, started := ts, begin_ := s.clock }
  let s3 := if imageRpl l.img then
      { s2 with
        snap := some (takeSnapshot s ts)
        replays := s2.replays ++ [{ ticket := l.ticket, log := [], sent := [], now := [], spent := false }] }
    else s2
  let s4 := match packetN s3 l.ticket with
    | some x => if pEarly x then accept s3 l.ticket ts.length else s3
    | none => s3
  endSections s4

/-- A launch gives up: it leaves the table, its leave ends, and it replies. -/
def refuseLaunch (s : State) (k st detail : Nat) : State :=
  refuse (releaseLeave { s with launches := s.launches.filter (·.ticket ≠ k) } (.launch k)) k st detail

/-- A replayable launch waits while the firmware of a Level controller that it meets is about to be swapped (20 R475). -/
def swapHolds (s : State) (l : Launch) : Bool :=
  match s.sec.update with
  | some u => imageRpl l.img && !u.swapped && decide (2 ≤ u.comp) && decide (u.comp ≤ 5) && rectMeetsLevel l.rect (u.comp - 2)
  | none => false

/-- A launch whose leave is granted starts once the shaft count has reached AT (R343, 17 R420); a replayable one takes its
snapshot after every operation sent before it (11 R288). A reset in progress holds it. -/
def tryStart (s : State) (k : Nat) : State :=
  match s.launches.find? (·.ticket = k) with
  | none => s
  | some l =>
    if l.stage ≠ .ready ∨ !s.resets.isEmpty ∨ swapHolds s l ∨ s.comp ≠ some l.job ∨ switching s l.job ∨ loadMeets s l.rect ∨ shaftCount s < l.at_ then s
    else match launchBad s (launchTiles s l.rect) l.epoch with
      | some t => refuseLaunch s k stBadParam t
      | none =>
        let s1 := if imageRpl l.img then settleUnits s else s
        if (s1.launches.find? (·.ticket = k)).isSome then beginSection s1 l else s1

/-- A launch that waits (R344), or asks for leave. -/
def newLaunch (x : Packet) (j : Nat) (r : Rect) (st : LaunchStage) (img : Option Image) : Launch :=
  { ticket := x.ticket, job := j, rect := r, epoch := pfld x 0x14 1, at_ := pfld x 0x18 8, tmo := pfld x 0x20 4, stage := st,
    img := img, started := [], stopped := 0, begin_ := 0, committed := false }

/-- The launch waits for the device, a load, or the end of a switch (R343, R344, 15 R358). -/
def holdLaunch (s : State) (x : Packet) (j : Nat) (r : Rect) : State :=
  if s.launches.any (·.ticket = x.ticket) then s else { s with launches := s.launches ++ [newLaunch x j r .waiting none] }

/-- The launch is checked and asks its leave (R343, 16 R376, R380). -/
def checkLaunch (s : State) (x : Packet) (j : Job) (r : Rect) : State :=
  let e := pfld x 0x14 1
  match launchBad s (launchTiles s r) e with
  | some t => refuseLaunch s x.ticket stBadParam t
  | none =>
    let img := launchImage s j.id r e
    let draw := match img with | some i => i.draw | none => []
    if neverAdmissible s.power draw then refuseLaunch s x.ticket stLeaveDenied (drawSum draw)
    else
      let s1 := { s with launches := s.launches.filter (·.ticket ≠ x.ticket) ++ [newLaunch x j.id r .leave img] }
      tryStart (askLeave s1 (.launch x.ticket) j.lc draw) x.ticket

/-- SECTION_LAUNCH (R343, R344, 15 R356). EPOCH 0 is a claim, of which nothing else is checked. -/
def execSectionLaunch (k : Nat) (s : State) : Outcome :=
  withJob s k 0x0301 fun x j =>
    let r := pRect x
    let claim := pfld x 0x14 1 = 0
    match (if claim then none else rectField r) with
    | some o => .next (badField s k o)
    | none =>
      if s.launches.any fun l => l.ticket = k && l.stage ≠ .waiting then .next s
      else
        let s1 := if j.state = .opened then enterQueue s j else s
        if s1.comp ≠ some j.id then .next (if claim then s1 else holdLaunch s1 x j.id r)
        else if claim then .next (replyOk (early s1 x) k 0 0)
        else if switching s1 j.id ∨ loadMeets s1 r then .next (holdLaunch s1 x j.id r)
        else .next (checkLaunch s1 x j r)

/-- SECTION_START (R343, 17 R420). -/
def execSectionStart (k : Nat) (s : State) : Outcome := .next (tryStart s k)

/-- LEAVE_TIMEOUT (16 R384). -/
def execLeaveTimeout (k : Nat) (s : State) : Outcome :=
  match s.launches.find? (·.ticket = k) with
  | some l => if l.tmo ≠ 0 ∧ (l.stage = .waiting ∨ l.stage = .leave) then .next (refuseLaunch s k stLeaveTimeout 0) else .next s
  | none => .next s

/-! ### Stop and commit -/

/-- The scan or the restore of the job's state is under way (15 R359, R362). -/
def scanning (s : State) (j : Nat) : Bool :=
  match s.sw with | some w => w.job = j && (w.phase = .scan || w.phase = .restore) | none => false

/-- SECTION_STOP (R343, 15 R356). -/
def execSectionStop (k : Nat) (s : State) : Outcome :=
  withJob s k 0x0302 fun x j =>
    let r := pRect x
    match rectField r with
    | some o => .next (badField s k o)
    | none =>
      let meets := s.launches.any fun l => l.job = j.id && l.stage = .running && rectsMeet l.rect r
      if s.comp ≠ some j.id ∨ scanning s j.id then
        if meets then .next s else .next (replyOk (early s x) k 0 0)
      else
        let ts := actingTiles s r
        let n := (ts.filter fun t => tileRunning (tileAt s t)).length
        let s1 := settleAt (early s x) ts
        .next (if s1.comp = s.comp then replyOk (stopTiles s1 ts) k n 0 else s1)

/-! ### Live state (15 R360, R362, 12 R320) -/

/-- Every gather entry of a tile is flushed (08 R190, R215). -/
def flushAllOf (s : State) (ts : List Nat) : State := ts.foldl (fun s t => flushWhere s t fun _ => true) s

/-- The scratchpad bytes of a tile that are not zero. -/
def padCells (s : State) (t : Nat) : List Host.Cell :=
  s.mem.filter fun c => decide (padBase t ≤ c.1) && decide (c.1 < padBase t + 0x200000)

/-- The live state of some tiles and of the Level units (15 R360), with the job's work epoch. -/
def liveState (s : State) (ts : List Nat) (we : BitVec 16) : Saved :=
  { tiles := ts.foldl (fun a t => arrPut a t (tileAt s t) false) []
    cells := ts.flatMap (padCells s)
    levels := s.levels
    cbar := s.cbar
    tmap := s.tmap
    snap := s.snap
    wepoch := we
    net := []
    held := []
    subst := s.subst
    spares := []
    paused := [] }

/-- Level units without their waiters (R287). -/
def noWaiters (u : LevelUnits) : LevelUnits :=
  { u with tally := u.tally.filterMap fun e =>
    let y := { e.2 with waiters := [] }
    if y = { value := 0, fault := false, waiters := [] } then none else some (e.1, y) }

/-- EPOCH, PREV and peers of the reserve tiles that have any (12 R320). -/
def spareEpochs (s : State) : Arr (Byte × Byte × BitVec 56) :=
  (s.reserve.filter fun t => !tileRetired s t).foldl
    (fun a t => let n := (tileAt s t).net; arrSet a t (n.epoch, n.prev, n.peer) (0, 0, 0)) []

/-- The live state that the scan of a job writes (15 R360): good tiles outside the reserve, the reserve's epochs, Level units without
waiters, undelivered messages and held inputs, and what a failed DRAIN has left stopped. -/
def scanState (s : State) (we : BitVec 16) : State × Saved :=
  let ts := (List.range 2304).filter fun t => !tileRetired s t && !s.reserve.contains t
  let s1 := flushAllOf s ts
  let v := liveState s1 ts we
  (s1, { v with
    levels := v.levels.map noWaiters, net := s1.net.filter fun n => !n.hub, held := s1.heldIn, spares := spareEpochs s1, paused := s1.paused })

/-- The tiles and units as the next job finds them (12 R320, 19 R451): as after a JOB reset, generations kept; images and input logs stay
with their job. -/
def clearDevice (s : State) : State :=
  let s1 := memDrop (resetTiles s tileJobReset) 0x080000000000 padTop
  { s1 with
    levels := List.replicate 4 levelReset
    cbar := []
    tmap := []
    snap := none
    net := s1.net.filter (·.hub)
    ctl := s1.ctl.filter fun c => !unitCtl c
    heldIn := []
    paused := []
    subst := []
    reserve := (List.range 4).flatMap (reserveOf s1.retired (feature s1 6)) }

/-- The saved message side returns, with the declarations, the generation and the routing of now. A tile that was armed is armed again
where its GEN is unchanged; one whose generation has advanced stays stale (12 R320). -/
def restoredNet (cur saved : NetIf) (decl : Bool) : NetIf :=
  { saved with
    queues := if decl then (List.range 16).foldl (fun a q =>
        let d := queueN cur q
        arrSet a q { queueN saved q with w0 := d.w0, w1 := d.w1, w2 := d.w2 } recvReset) []
      else saved.queues
    detour := cur.detour
    guided := cur.guided
    gen := cur.gen
    agen := if cur.gen = saved.gen ∧ saved.gen = saved.agen then cur.gen else cur.agen }

/-- The bindings that the image of epoch e leaves in tile t (05 R133). -/
def imageBind (s : State) (j t e : Nat) : Option (Arr W32) :=
  let u := ((s.subst.find? (·.2 = t)).map (·.1)).getD t
  ((s.images.filter fun i => (i.job = j || i.job = 0) && i.epoch = e && inRect i.rect u).getLast?).map fun i =>
    (tileOf (jobSplit s) (imageRecords s i) u (configReset tileReset)).vx.bind

/-- A tile as SECTION_RESTORE leaves it: the section configuration stays the loaded one, and the bindings are loaded again (04 R118, 05
R133, 06 R134, R166). -/
def sectionRestored (s : State) (j t : Nat) (cur saved : Tile) : Tile :=
  { saved with
    sq := { saved.sq with entry := cur.sq.entry, launch := cur.sq.launch, imem := cur.sq.imem }
    vx := { saved.vx with prog := cur.vx.prog, bind := (imageBind s j t saved.net.epoch.toNat).getD cur.vx.bind }
    net := restoredNet cur.net saved.net true
    a1 := cur.a1
    s1 := cur.s1 }

/-- A tile as the restore of a job leaves it (12 R320): generation and routing of now, the bindings loaded again (05 R133). -/
def restoredTile (s : State) (j t : Nat) (cur saved : Tile) : Tile :=
  let c := wakeTile cur
  { saved with
    vx := { saved.vx with bind := (imageBind s j t saved.net.epoch.toNat).getD saved.vx.bind }
    net := restoredNet c.net saved.net false, a1 := false, s1 := false }

/-- A waiting head asks again (06 R166, 11 R287). -/
def askAgain (e : QEntry) : QEntry := if opc e.word = 0x31 ∨ opc e.word = 0x38 ∨ opc e.word = 0x03 then { e with sent := false } else e

def queuesAgain (q : Queues) : Queues :=
  { mxq := q.mxq.map askAgain, vxq := q.vxq.map askAgain, sxq := q.sxq.map askAgain, nxq := q.nxq.map askAgain,
    yxq := q.yxq.map askAgain }

/-- Put saved tiles and their scratchpads back. -/
def putTiles (s : State) (v : Saved) (ts : List Nat) (f : Nat → Tile → Tile → Tile) : State :=
  let s1 := ts.foldl (fun s t =>
    match v.tiles.find? (·.1 = t) with
    | some e => modTile (memDrop s (padBase t) (padBase t + 0x200000)) t fun cur => let x := f t cur e.2; { x with q := queuesAgain x.q }
    | none => s) s
  v.cells.foldl (fun s c => if ts.any fun t => decide (padBase t ≤ c.1) && decide (c.1 < padBase t + 0x200000) then memWrite s c.1 c.2 else s) s1

/-- The saved state of job j back in the tiles and Level units (15 R362). -/
def loadSaved (s : State) (j : Nat) (v : Saved) : State :=
  let ts := (v.tiles.map (·.1)).filter fun t => !tileRetired s t
  let s1 := putTiles s v ts (restoredTile s j)
  let s2 := (v.spares.filter fun e => !tileRetired s1 e.1).foldl (fun a e =>
    modTile a e.1 fun tl => { tl with net := { tl.net with epoch := e.2.1, prev := e.2.2.1, peer := e.2.2.2 } }) s1
  tellGenerations { s2 with
    levels := v.levels
    cbar := v.cbar
    tmap := v.tmap
    snap := v.snap
    paused := v.paused
    net := s2.net ++ v.net.map fun n => { n with msg := { n.msg with dtile := ((v.subst.find? (·.1 = n.msg.dtile)).map (·.2)).getD n.msg.dtile } }
    heldIn := s2.heldIn ++ v.held
    subst := v.subst
    reserve := s2.reserve.filter fun t => !v.subst.any fun e => e.2 = t } (ts.filter fun t => let n := (tileAt s2 t).net; n.gen = n.agen)

/-- The tiles and Level units of a job: the device's while it computes, else those of its saved state, else as it would find them (15
R356, 12 R320). -/
def jobView (s : State) (j : Job) : State :=
  if s.comp = some j.id then s
  else match j.saved with
    | some v => loadSaved (clearDevice s) j.id v
    | none => clearDevice s

/-! ### Commit (R337, 18 R436) -/

/-- A section of a replayable image of the job ran last in the rectangle (R337). -/
def ranReplayable (s : State) (j : Nat) (r : Rect) : Bool :=
  s.images.any fun i => (i.job = j || i.job = 0) && i.rpl &&
    (rectTiles i.rect).any fun t => inRect r t && (tileAt s t).net.epoch.toNat = i.epoch && decide ((tileAt s t).sq.count > 0)

/-- The snapshot goes with the last replayable section of the job that it could restore (log 62). -/
def dropSnapshot (s : State) (j : Nat) : State :=
  if s.launches.any fun l => l.job = j && l.stage = .running && !l.committed && imageRpl l.img then s
  else if s.comp = some j then { s with snap := none }
  else modJob s j fun y => { y with saved := y.saved.map fun v => { v with snap := none } }

/-- SECTION_COMMIT (R337, 18 R436): input log and snapshot go; what tally commands were held may proceed. -/
def execSectionCommit (k : Nat) (s : State) : Outcome :=
  withJob s k 0x0303 fun x j =>
    let r := pRect x
    match rectField r with
    | some o => .next (badField s k o)
    | none =>
      let ls := s.launches.filter fun l => l.job = j.id && l.stage = .running && imageRpl l.img && rectsMeet l.rect r
      if ls.isEmpty then
        if ranReplayable (jobView s j) j.id r then .next (replyOk (early s x) k 0 0) else .next (refuse s k stBadParam noField)
      else
        let ks := ls.map (·.ticket)
        .next (replyOk (dropSnapshot { early s x with
          launches := s.launches.map fun l => if ks.contains l.ticket then { l with committed := true } else l
          replays := s.replays.filter fun p => !ks.contains p.ticket } j.id) k 0 0)

/-! ### Section saves (R345) -/

/-- Levels a rectangle meets. -/
def saveLevels (r : Rect) : List Nat := (List.range 4).filter (rectMeetsLevel r)

/-- S_save. -/
def saveSize (n v : Nat) : Nat := 4096 + n * 2555904 + v * 2097152

/-- The header of a save. -/
def saveHeader (s : State) (j : Nat) (r : Rect) (ts : List Nat) : List Byte :=
  let n := ts.length
  let v := (saveLevels r).length
  let h := [0x50, 0x4C, 0x53, 0x37] ++ leBytes 2 j ++ leBytes 1 r.x0 ++ leBytes 1 r.x1 ++ leBytes 1 r.y0 ++ leBytes 1 r.y1 ++
    leBytes 2 n ++ leBytes 1 v ++ [0, 0, 0] ++ leBytes 8 (saveSize n v) ++ leBytes 8 (shaftCount s) ++
    ts.map (fun t => (tileAt s t).net.epoch)
  h ++ List.replicate (4096 - h.length) 0

/-- SECTION_SAVE (R345): the header and what the blocks hold, from the device's tiles and units or, for a job that does not compute, from
its saved state (15 R356). A line of the range that is lost is an uncorrectable error (09 R224). -/
def saveSection (s view : State) (x : Packet) (j : Job) (r : Rect) (ts : List Nat) : State :=
  let dst := pfld x 0x18 8
  let size := saveSize ts.length (saveLevels r).length
  match lostIn s dst size with
  | some a => memFatal s a false
  | none =>
    let live := liveState (flushAllOf view ts) ts j.wepoch
    let h := saveHeader view j.id r ts
    let v : SecSave :=
      { serial := s.fresh, job := j.id, base := dst, len := size, header := h, saved := { live with levels := live.levels.map noWaiters } }
    let s1 := memDrop (binsWithout s fun y => decide (dst / 512 ≤ y.line) && decide (512 * y.line < dst + size)) dst (dst + size)
    replyOk (memPut { bumpFresh s1 with saves := v :: s1.saves } dst h) x.ticket (size % 2 ^ 32) (size / 2 ^ 32)

/-- SECTION_SAVE (R345). -/
def execSectionSave (k : Nat) (s0 : State) : Outcome :=
  withJob s0 k 0x0304 fun x j =>
    let r := pRect x
    let dst := pfld x 0x18 8
    match rectField r with
    | some o => .next (badField s0 k o)
    | none =>
      let view := jobView s0 j
      let ts := launchTiles view r
      let size := saveSize ts.length (saveLevels r).length
      if !hostRange s0 x.port dst size true ∨ (regionAt s0 dst).any (fun g => g.job ≠ j.id) then .next (badField s0 k 0x18)
      else if (rectTiles r).any fun t => tileRunning (tileAt view t) then .next (refuse s0 k stJobBusy 0)
      else if s0.comp = some j.id then
        let s := flushAllOf (deliverAll (settleUnits (early s0 x))) ts
        if s.comp ≠ some j.id then .next s else .next (saveSection s s x j r ts)
      else .next (saveSection (early s0 x) view x j r ts)

/-- The save whose blocks stand unchanged at an address. -/
def saveHeld (s : State) (src size : Nat) : Option SecSave :=
  match s.saves.find? fun v => decide (v.base < src + size) && decide (src < v.base + v.len) with
  | some v =>
    if v.base = src ∧ v.len = size ∧ s.mem.all (fun c => !(decide (src + 4096 ≤ c.1) && decide (c.1 < src + size))) then some v
    else none
  | none => none

/-- What SECTION_RESTORE puts back into the tiles and Level units given. -/
def restoreSection (view : State) (j : Nat) (v : Saved) (ts lv : List Nat) : State :=
  let s1 := putTiles view v ts (sectionRestored view j)
  { s1 with
    levels := (List.range 4).map fun n => if lv.contains n then v.levels.getD n levelReset else levelN s1 n
    tmap := v.tmap
    snap := v.snap }

/-- SECTION_RESTORE (R345): into the device's tiles and units or, for a job that does not compute, into its saved state (15 R356; a job
with none has no tiles to restore, log 62). -/
def execSectionRestore (k : Nat) (s0 : State) : Outcome :=
  withJob s0 k 0x0305 fun x j =>
    let r := pRect x
    let src := pfld x 0x18 8
    match rectField r with
    | some o => .next (badField s0 k o)
    | none =>
      let view := jobView s0 j
      let ts := launchTiles view r
      let lv := saveLevels r
      let size := saveSize ts.length lv.length
      if !hostRange s0 x.port src size false ∨ (regionAt s0 src).any (fun g => g.job ≠ j.id) then .next (badField s0 k 0x18)
      else match lostIn s0 src size with
      | some a => .next (memFatal s0 a false)
      | none =>
        let hdr := memRead s0 src 4096
        let want := saveHeader view j.id r ts
        let s1 := binReads s0 src 4096
        if slice hdr 0 0x18 ≠ slice want 0 0x18 ∨ slice hdr 0x20 ts.length ≠ slice want 0x20 ts.length then
          .next (refuse s1 k stBadParam noField)
        else if (rectTiles r).any fun t => tileRunning (tileAt view t) then .next (refuse s1 k stJobBusy 0)
        else
          let v := match saveHeld s0 src size with | some w => w.saved | none => Config.savedState s0.fresh
          let s2 := bumpFresh (binReads (early s1 x) (src + 4096) (size - 4096))
          let done := fun (s : State) => replyOk (modJob s j.id fun y => { y with wepoch := v.wepoch }) k 0 0
          if s0.comp = some j.id then
            let s3 := settleUnits s2
            if s3.comp ≠ some j.id then .next s3
            else
              let s4 := restoreSection s3 j.id v ts lv
              .next (done (tellGenerations s4 (ts.filter fun t => let n := (tileAt s4 t).net; n.gen = n.agen)))
          else .next (done (if j.saved.isNone then s2 else
            let w := (scanState (restoreSection view j.id v ts lv) v.wepoch).2
            modJob s2 j.id fun y => { y with saved := some w }))

end Sys2Proof.Machine
end

