-- ==== Sys2Proof/Machine/Faults.lean ====
section
/-! DEFINITION. Counting of faults, the actions on lasting faults, tile and link recovery, pointer resets, scrubbers and
watchers (10 R259, 18 R424 to R445). -/

namespace Sys2Proof.Machine

/-! ### Counting (R424, R425) -/

/-- Threshold, and window in A-cycles (0: none, every event counts). -/
def unitLimit (u : CountUnit) : Nat × Nat :=
  match u with
  | .tile _ => (32, 216000000000)
  | .router _ => (256, 216000000000)
  | .queue _ => (4, 216000000000)
  | .link _ _ => (256, 216000000000)
  | .channel _ _ => (1000, 216000000000)
  | .stack _ => (3, 0)
  | .package _ => (1000, 216000000000)
  | .lane _ _ => (64, 3600000000)
  | .pcie _ => (1, 0)
  | .hubQueue _ _ => (4, 216000000000)

/-- The unit exists (R425, R398); direct neighbour links join no two Levels (01 R23). -/
def unitExists (u : CountUnit) : Bool :=
  match u with
  | .tile t | .router t | .queue t => decide (t < 2304)
  | .link t k => decide (t < 2304) && decide (k < 4) &&
      (let x := if k % 2 = 0 then t % 48 else t / 48
       if k < 2 then decide (x < 47) else decide (x % 24 < 23))
  | .channel k c => decide (k < 16) && decide (c < 32)
  | .stack k => decide (k < 16)
  | .package n => decide (n < 24)
  | .lane p l => decide (p < 12) && decide (l < 4)
  | .pcie p => decide (p < 2)
  | .hubQueue k n => match k with
    | 0 => decide (n < 2)
    | 1 => true
    | _ => decide (n < 36)

/-- The event lies in the current sub-interval or one of the 15 before it (R424). -/
def inWindow (u : CountUnit) (now t : Nat) : Bool :=
  let w := (unitLimit u).2
  w = 0 || decide (now / (w / 16) < t / (w / 16) + 16)

/-- A unit's window; its lifetime count goes on from flash (R425). -/
def winOf (s : State) (u : CountUnit) : Window :=
  (s.errs.wins.find? (·.unit = u)).getD
    { unit := u, times := [], life := ((s.flashCounts.find? (·.1 = u)).map (·.2)).getD 0, since := 0 }

def setWin (s : State) (w : Window) : State :=
  { s with errs := { s.errs with wins := s.errs.wins.filter (·.unit ≠ w.unit) ++ [w] } }

/-- Events of the current window. -/
def windowCount (s : State) (u : CountUnit) : Nat := ((winOf s u).times.filter (inWindow u s.clock)).length

/-- One event is counted. -/
def countEvent (s : State) (u : CountUnit) : State :=
  let w := winOf s u
  setWin s { w with times := s.clock :: w.times.filter (inWindow u s.clock), life := w.life + 1, since := w.since + 1 }

/-- The flash copy of the lifetime counts (R425). -/
def writeFlash (s : State) : State :=
  { s with flashCounts := s.errs.wins.map (fun w => (w.unit, w.life)) ++
      s.flashCounts.filter fun e => !s.errs.wins.any fun w => w.unit = e.1 }

/-- Source and locations of a unit's records (R444): SRC, LOC0, LOC1, DETAIL words 2 and 3. -/
def unitPlace (u : CountUnit) (loc1 addr : Nat) : Nat × Nat × Nat × List Nat :=
  match u with
  | .tile t => (1, t, loc1, [])
  | .router t => (1, t, 5, [])
  | .queue t => (1, t, loc1, [])
  | .link t k => (2, t, k, [])
  | .channel k c => (3, k, c, [addr % 2 ^ 32, addr / 2 ^ 32])
  | .stack k => (3, k, 0x20, [])
  | .package n => (4, n, addr % 2 ^ 32, [addr / 2 ^ 32])
  | .lane p l => (6, p, l, [])
  | .pcie p => (7, p, 0, [])
  | .hubQueue k n => (8, k, n, [])

/-- The window has a record of its own for this event: one of its first 64 (R425). -/
def recordedEvent (s : State) (u : CountUnit) : Bool := decide (windowCount s u ≤ 64)

/-- A corrected event is counted and, while its window lasts, recorded (R424, R425). -/
def correctedEvent (s : State) (u : CountUnit) (loc1 addr : Nat) : State :=
  let s1 := countEvent s u
  if recordedEvent s1 u then
    let p := unitPlace u loc1 addr
    let w := winOf s1 u
    plainRecord (setWin s1 { w with since := 0 }) p.1 stCorrected 0 p.2.1 p.2.2.1 ([windowCount s1 u, w.life] ++ p.2.2.2)
  else s1

/-! ### Retirement (R426 to R428) -/

/-- Hops between two tiles of the mesh. -/
def meshHops (a b : Nat) : Nat := tileDist a b

/-- The spare for a tile (R426): the nearest reserve tile of its Level, the lower number on a tie. -/
def spareFor (s : State) (t : Nat) : Option Nat :=
  let c := s.reserve.filter fun r => levelOf r = levelOf t && !tileRetired s r && r ≠ t
  match least (c.map (meshHops t)) with
  | some d => least (c.filter fun r => meshHops t r = d)
  | none => none

/-- A detour entry that the Level controller chooses (10 R251): a free value with the reserved bits zero. -/
def freeDetour (s : State) (u n : Nat) : W64 :=
  let v := Config.reading s.fresh (8 * u + n)
  BitVec.ofNat 64 (v % 2 ^ 24 + v / 2 ^ 24 % 5 * 2 ^ 24 + v / 2 ^ 27 % 2 * 2 ^ 27)

/-- The routers around some tiles receive new detour entries (10 R251, R252). -/
def rewriteDetours (s : State) (near : List Nat) : State :=
  let s1 := near.foldl (fun a u => modTile a u fun tl =>
    { tl with net := { tl.net with guided := true, detour := (List.range 8).foldl (fun d n => arrSet d n (freeDetour s u n) 0) tl.net.detour } }) s
  bumpFresh s1

/-- The tiles around a tile that are not retired. -/
def ringAround (s : State) (t : Nat) : List Nat :=
  (List.range 2304).filter fun u => u ≠ t && !tileRetired s u &&
    decide (u % 48 ≤ t % 48 + 1) && decide (t % 48 ≤ u % 48 + 1) && decide (u / 48 ≤ t / 48 + 1) && decide (t / 48 ≤ u / 48 + 1)

/-- Every barrier stored anew, so that its masks follow the substitution; without a spare the tile's bit is cleared (11 R291). -/
def mendBarriers (s : State) (t : Nat) (gone : Bool) : State :=
  (List.range 68).foldl (fun a bid =>
    let b := barrierAt a bid
    if barMember b t then setBarrier a bid (if gone then clearMember b t else b) else a) s

/-- Retire a tile (R426), with a spare in its place when one is taken. -/
def retireTile (s : State) (t : Nat) (spare : Option Nat) : State :=
  if tileRetired s t then s
  else
    let s1 := modTile s t fun tl =>
      let n := netHeld tl.net
      { stoppedTile tl with
        net := { addSpoil (closeQueues tl.net) 0 n with gen := tl.net.gen + 1, prev := tl.net.epoch, epoch := 0 } }
    let s2 := holdRoutes s (rewriteDetours { s1 with retired := s1.retired ++ [t] } (ringAround s1 t))
    let s3 := { s2 with
      reserve := s2.reserve.filter fun r => r ≠ t && some r ≠ spare
      subst := match spare with
        | some r => (s2.subst.map fun e => if e.2 = t then (e.1, r) else e) ++ [(t, r)]
        | none => s2.subst }
    let s4 := match spare with
      | some r => { s3 with net := s3.net.map fun n =>
          if n.msg.ddev = deviceId s && n.msg.dtile = t then { n with msg := { n.msg with dtile := r } } else n }
      | none => s3
    writeFlash (mendBarriers s4 t spare.isNone)

/-- The far end of a link: east, or south. -/
def linkEnd (t k : Nat) : Nat := if k % 2 = 0 then t + 1 else t + 48

/-- Disable a link (R428). -/
def disableLink (s : State) (t k : Nat) : State :=
  if s.links.contains (t, k) then s
  else
    let ends := [t, linkEnd t k]
    let s1 := { s with links := s.links ++ [(t, k)] }
    writeFlash (holdRoutes s (if k < 2 then rewriteDetours s1 (ends.filter fun u => !tileRetired s u) else s1))

/-! ### Cover and recovery (R432, R437 to R439) -/

/-- t_w of an image is at most 100 µs (R432, 12 R319), in units of 1/1,152 ns. -/
def writeQuick (rs : List Rec) : Bool :=
  let col := fun (x : Nat) => ((rs.filter fun r => recFrame r && recType r ≠ 7 && recCol r = x).map fun r => recLen r + 256).foldl (· + ·) 0
  let c := (rs.filter fun r => !recFrame r || recType r = 7).length
  decide (10 * ((List.range 48).map col).foldl max 0 + 1152 * 300 * c ≤ 1152 * 98000)

/-- A running section is covered (R432, R436): replayable, not committed, its input log whole, its image quick to write. -/
def covered (s : State) (l : Launch) : Bool :=
  l.stage = .running && s.comp = some l.job && !l.committed && imageRpl l.img &&
    s.replays.any (fun r => r.ticket = l.ticket && !r.spent) &&
    (match l.img with | some i => writeQuick (imageRecords s i) | none => false)

/-- The running section that runs on a tile. -/
def launchOn (s : State) (t : Nat) : Option Launch :=
  s.launches.find? fun l => l.stage = .running && s.comp = some l.job && l.started.any fun u => substT s u = t

/-- Recovery is abandoned (R439): a job-fatal record that names the first detection record, and the job fails. -/
def abandonRecovery (s : State) (unit spare seq : Nat) : State :=
  let s1 := jobRecord s 0x0E stFaultFatal 2 unit spare [seq % 2 ^ 32]
  failComputing { s1 with errs := { s1.errs with recov := none } } stFaultFatal

/-- One record of the image is written again over the tile region, each retired tile's part into its spare (R437 step 3). -/
def rewriteRecord (s : State) (r : Rec) : State :=
  let live := fun (l : List Nat) => (l.map (substT s)).filter fun t => !tileRetired s t
  if recFrame r then
    if recType r = 7 then s
    else (live ((List.range (recNrow r)).map fun k => 48 * (recRow0 r + k) + recCol r)).foldl (fun s t =>
      if recType r = 4 then padWrite s t (recOffset r) (recPayload r)
      else modTile s t (frameTile (jobSplit s) r)) s
  else if recOp r = 1 then recordWrite s r
  else if recOp r = 2 then
    (live (rectTiles (recRect r))).foldl (fun s t => modTile s t (recordTile (jobSplit s) (recAddr r) r)) s
  else s

/-- The write phase of the locked image over the tiles that act for its region (R437 step 3): EPOCH and peers return, AGEN =
GEN. A spare in S1 comes back from it first (12 R316). -/
def rewriteImage (s : State) (i : Image) : State :=
  let ts := actingTiles s i.rect
  let s1 := ts.foldl (fun s t => modTile s t fun tl0 =>
    let tl := configReset (wakeTile tl0)
    { tl with net := { tl.net with prev := tl.net.epoch, epoch := 0, peer := 0 } }) s
  let s2 := (imageRecords s i).foldl rewriteRecord s1
  tellGenerations (ts.foldl (fun s t => modTile s t fun tl =>
    { tl with net := { tl.net with epoch := BitVec.ofNat 8 i.epoch, peer := i.peer, agen := tl.net.gen } }) s2) ts

/-- The registers of the region's tiles as the image leaves them, where the write phase is skipped (02 R62, 05 R133, 07 R180: a replay
reloads them from the image). -/
def reloadRegisters (s : State) (i : Image) : State :=
  let rs := imageRecords s i
  (rectTiles i.rect).foldl (fun a u =>
    if tileRetired s (substT s u) then a else modTile a (substT s u) fun tl => tileOf (jobSplit s) rs u (configReset tl)) s

/-- Mapped tallies, barriers and work counters return to the snapshot; waiters go (11 R288). -/
def restoreSnapshot (s : State) (n : Snapshot) : State :=
  let s1 := { s with levels := s.levels.map fun u => { noWaiters u with ctr := u.ctr } }
  let s2 := n.values.foldl (fun a v => match mapEntry a v.1 with
    | some m => setTally a m.1 m.2.1 { tallyAt a m.1 m.2.1 with value := v.2 }
    | none => a) s1
  let s3 := (List.range 4).foldl (fun a k => modLevel a k fun u => { u with ctr := n.ctrs.getD k [] }) s2
  (List.range 68).foldl (fun a bid =>
    let b := arrGet (n.bars.getD (if bid < 64 then bid / 16 else 4) []) (if bid < 64 then bid % 16 else bid - 64) barrier0
    if b = barrierAt a bid then a else setBarrier a bid b) s3

/-- The input log enters the region again, in its order (R435). -/
def reinject (s : State) (log : List Msg) : State :=
  { s with net := s.net ++ log.map fun m =>
      let d := substT s m.dtile
      { msg := { m with dtile := d, dgen := (arrGet s.genTab d 0).toNat }, waiting := false, age := 0, held := false, old := false, hub := false } }

/-- Steps 4 and 5 of R437: inputs restored, the new work epoch told to every tile (11 R295), the section launched again on the same
tiles. -/
def replaySection (s : State) (l : Launch) : State :=
  let s1 := match s.snap with | some n => restoreSnapshot s n | none => s
  let s2 := modJob s1 l.job fun j => { j with wepoch := j.wepoch + 1 }
  let arith := match s.snap with | some n => n.arith | none => []
  let s3 := l.started.foldl (fun a u => modTile a (substT a u) fun tl =>
    { tl with pad := { tl.pad with tags := [] }, arithStatus := arrGet arith u 0 }) s2
  let log := ((s3.replays.find? (·.ticket = l.ticket)).map (·.log)).getD []
  let s4 := { s3 with replays := s3.replays.map fun r => if r.ticket = l.ticket then { r with now := [] } else r }
  let we := BitVec.ofNat 16 (workEpoch s4)
  let told := ((List.range 2304).filter fun t => !tileRetired s4 t).foldl (fun a t => modTile a t fun tl =>
    { tl with net := { tl.net with wepoch := we } }) s4
  let s5 := l.started.foldl (fun a u => modTile a (substT a u) (startTile we)) told
  reinject (modLaunch s5 l.ticket fun x => { x with begin_ := s.clock, stopped := l.stopped }) log

/-- Step 1 of R437: the region stops, its tokens are discarded, hub inputs are held, operations in flight are applied. -/
def containRegion (s : State) (l : Launch) (r : Rect) : State :=
  let ts := actingTiles s r
  let s1 := modLaunch (ts.foldl discardTile s) l.ticket fun x => { x with stopped := l.stopped }
  settleUnits s1

/-- A fault that starts recovery: a tile to retire, a link to disable, or a queue whose pointers have been reset. -/
inductive Broken where
  | tile (t : Nat)
  | link (t k : Nat)
  | queue (t : Nat)
deriving DecidableEq, Repr

/-- LOC0 of a recovery's records (R444). -/
def brokenUnit (b : Broken) : Nat :=
  match b with
  | .tile t | .link t _ | .queue t => t

/-- Step 2 of R437: the spare taken, and the state with the unit retired; none when the reserve is empty. -/
def stepTwo (s : State) (b : Broken) : Option (State × Option Nat) :=
  match b with
  | .tile t => (spareFor s t).map fun r => (retireTile s t (some r), some r)
  | .link t k => some (disableLink s t k, none)
  | .queue _ => some (s, none)

/-- The spare's Touchstone check (R64): its outcome is a free value. -/
def spareFails (s : State) : Bool := Config.choice s.fresh % 2 = 1

/-- Recovery of a covered section (R437), whole up to the relaunch; `seq` is the detection record's. -/
def recover (s : State) (l : Launch) (b : Broken) (seq : Nat) : State :=
  match l.img with
  | none => failComputing s stFaultFatal
  | some i =>
    let s1 := containRegion s l i.rect
    if s1.comp ≠ some l.job then s1
    else match stepTwo s1 b with
      | none =>
        let s2 := match b with | .tile t => retireTile s1 t none | _ => s1
        abandonRecovery s2 (brokenUnit b) 0 seq
      | some (s2, spare) =>
        let s3 := bumpFresh s2
        if spare.isSome && spareFails s2 then abandonRecovery s3 (brokenUnit b) (spare.getD 0) seq
        else match imageLost s3 i with
        | some a => memFatal s3 a false
        | none =>
          let s4 := match b with | .link _ _ => reloadRegisters s3 i | _ => rewriteImage s3 i
          let s5 := replaySection s4 l
          endSections { s5 with
            errs := { s5.errs with recov := some { ticket := l.ticket, unit := brokenUnit b, spare := spare.getD 0, seq := seq, since := s.clock, edges := 0 } } }

/-- The lasting action without a recovery: the unit is retired or disabled. -/
def dropUnit (s : State) (b : Broken) : State :=
  match b with
  | .tile t => retireTile s t none
  | .link t k => disableLink s t k
  | .queue _ => s

/-- The switch in progress has stopped the computing job's tiles, so that no recovery can replay (15 R364). -/
def switchingNow (s : State) : Bool := match s.sw with | some w => w.phase ≠ .wait | none => false

/-- The detection record of a hardware fault of a tile, router, link or queue: job-fatal while a job computes (R423, R427). -/
def hardRecord (s : State) (src loc0 loc1 : Nat) (detail : List Nat) : State :=
  match s.comp with
  | none => addRecord s stContained 1 true false src 0 loc0 loc1 detail
  | some j => addRecord s stFaultFatal 2 true false src j loc0 loc1 detail

/-- What follows the detection record of number `seq` (R427, R438): recovery, or the failure of the job. A second one abandons the
recovery in progress (R439). -/
def hardAct (s : State) (l : Option Launch) (b : Broken) (seq : Nat) : State :=
  match s.comp, s.errs.recov with
  | none, _ => dropUnit s b
  | some _, some r => abandonRecovery (dropUnit s b) r.unit r.spare r.seq
  | some _, none =>
    match l with
    | some x => if covered s x && !switchingNow s then recover s x b seq else failComputing (dropUnit s b) stFaultFatal
    | none => failComputing (dropUnit s b) stFaultFatal

/-- A hardware fault that is acted on at once. -/
def hardFault (s : State) (l : Option Launch) (b : Broken) (src loc0 loc1 : Nat) (detail : List Nat) : State :=
  hardAct (hardRecord s src loc0 loc1 detail) l b (nextSeq s)

/-- A lasting fault of a tile (R426, R427). -/
def lastingTile (s : State) (t loc1 : Nat) (detail : List Nat) : State :=
  if tileRetired s t then s else hardFault s (launchOn s t) (.tile t) 1 t loc1 detail

/-! ### Memory, packages and lanes (R429, R430, R405) -/

/-- Retire a stack. -/
def retireStack (s : State) (k : Nat) : State :=
  if s.retiredStack.contains k then s
  else
    let s1 := { s with retiredStack := s.retiredStack ++ [k] }
    writeFlash (addRecord s1 stContained 1 true false 3 0 k 0x20 [])

/-- Retire a pseudo-channel; the third of a stack retires the stack (R425). `loss`: the record's severity is that of the event
that found it, written already. -/
def retireChannel (s : State) (k c : Nat) (told : Bool) (detail : List Nat) : State :=
  if channelDead s (k, c) then s
  else
    let s1 := countEvent { s with retiredPc := s.retiredPc ++ [(k, c)] } (.stack k)
    let s2 := if told then s1 else addRecord s1 stContained 1 true false 3 0 k c detail
    let s3 := writeFlash s2
    if (s3.retiredPc.filter fun x => x.1 = k).length ≥ 3 then retireStack s3 k else s3

/-- A second covered fault before step 6 ends abandons the recovery in progress (R439). -/
def secondFault (s : State) : State :=
  match s.errs.recov with
  | some r => abandonRecovery s r.unit r.spare r.seq
  | none => s

/-- The computing job has a region of that protection in the HBM3E of Level n. -/
def protAt (s : State) (n prot : Nat) : Bool :=
  s.regions.any fun r => s.comp = some r.job && r.prot = prot && isHbm r.base && memLevel r.base = n

/-- Another unit of a parity stripe group of stack k, pseudo-channel c (none: the whole stack), is lost: of the same half of the
stack (09 R233), or of the Level's other stacks (R234). -/
def groupLost (s : State) (k : Nat) (c : Option Nat) : Bool :=
  let n := k / 4
  (protAt s n 1 && s.retiredPc.any fun x => x.1 = k && (match c with | some d => x.2 ≠ d && x.2 / 16 = d / 16 | none => true)) ||
  (protAt s n 2 &&
    (s.retiredStack.any (fun m => m ≠ k && m / 4 = n) ||
      s.retiredPc.any fun x => x.1 ≠ k && x.1 / 4 = n && (match c with | some d => x.2 = d | none => true)))

/-- What the loss of a pseudo-channel or stack means for the computing job: the second in a parity stripe group is job-fatal
(R433); one that parity covers (R431) is a covered fault. -/
def lossFate (s : State) (k : Nat) (c : Option Nat) : State :=
  if groupLost s k c then
    failComputing (jobRecord s 3 stFaultFatal 2 k (match c with | some d => d | none => 0x20) []) stFaultFatal
  else if protAt s (k / 4) 2 || (c.isSome && protAt s (k / 4) 1) then secondFault s
  else s

/-- A pseudo-channel lost with no access that found it. -/
def loseChannel (s : State) (k c : Nat) (detail : List Nat) : State :=
  if channelDead s (k, c) then s else lossFate (retireChannel s k c false detail) k (some c)

/-- A stack lost. -/
def loseStack (s : State) (k : Nat) : State := if s.retiredStack.contains k then s else lossFate (retireStack s k) k none

/-- An uncorrectable error in a line of HBM3E, a parity line among them (09 R224, R232, R424): rebuilt from the stripe where that is whole,
else as memFatal; the pseudo-channel is retired. -/
def hbmFault (s : State) (a : Nat) : State :=
  let p := linePlace s a
  let s1 := retireChannel s p.1.1 p.1.2 true []
  if (regionOver s a).isSome && !p.2.isEmpty && !p.2.any (channelDead s) then
    let s2 := addRecord s1 stCorrected 0 true false 3 0 p.1.1 p.1.2 [0, 0, a % 2 ^ 32, a / 2 ^ 32]
    if channelDead s p.1 then s2 else lossFate s2 p.1.1 (some p.1.2)
  else memFatal s1 a true

/-- A lasting fault of a lane (R405): the port retrains on its other lanes, or goes down on the second. -/
def dropLane (s : State) (p l : Nat) (detail : List Nat) : State :=
  let j := jportN s p
  if !j.trained ∨ !j.up then s
  else
    let s1 := addRecord s stContained 1 true false 6 0 p l detail
    secondFault (writeFlash (if j.lanes ≥ 4 then modJPort s1 p fun x => { x with lanes := 3, retraining := true } else portDown s1 p))

/-- The action when a unit's count reaches its threshold (R425). -/
def thresholdAction (s : State) (u : CountUnit) (loc1 : Nat) : State :=
  let detail := [windowCount s u, (winOf s u).life]
  match u with
  | .tile t | .queue t => lastingTile s t loc1 detail
  | .router t => lastingTile s t 5 detail
  | .link t k =>
    if s.links.contains (t, k) then s
    else disableLink (addRecord s stCorrected 0 true false 2 0 t k detail) t k
  | .channel k c => loseChannel s k c detail
  | .package n =>
    if s.degraded.contains n then s
    else writeFlash (addRecord { s with degraded := s.degraded ++ [n] } stContained 1 true false 4 0 n 0 detail)
  | .lane p l => dropLane s p l detail
  | .hubQueue k n => if s.errs.fatal then s else deviceFatal s stFaultFatal 8 k n detail
  | .stack _ | .pcie _ => s

/-- The count of a unit has reached its threshold. -/
def overThreshold (s : State) (u : CountUnit) : Bool := decide ((unitLimit u).1 ≤ windowCount s u)

/-! ### ERROR_EVENT (R424 to R433) -/

/-- Actions on lasting faults wait for the end of a load's write phase, or of a switch (12 R311, 15 R364). -/
def actionsWait (s : State) : Bool :=
  (match s.load with | some l => l.phase = .write | none => false) || switchingNow s

/-- Put an action off. -/
def deferFault (s : State) (d : Due) : State := { s with errs := { s.errs with deferred := s.errs.deferred ++ [d] } }

/-- The unit of a fault exists. -/
def eventExists (e : FaultEvent) : Bool :=
  match e with
  | .counted u _ _ => unitExists u
  | .tileUnit t _ _ => decide (t < 2304)
  | .flit t _ | .ctlFlit t _ => decide (t < 2304)
  | .linkFlit t k _ => unitExists (.link t k)
  | .hbm a => isHbm a
  | .lpddr a => isLpddr a && lineBacked a
  | .wrongWord a b => (isPad a || isHbm a || (isLpddr a && lineBacked a)) && b ≠ 0
  | .channelLost k c => unitExists (.channel k c)
  | .stackLost k => decide (k < 16)
  | .laneFault p l => unitExists (.lane p l)
  | .dieLost d => decide (d < 9)

/-- A message with an uncorrectable flit is discarded by its destination router (10 R245). -/
def corruptMessage (s : State) (i : Nat) : State :=
  match s.net[i]? with
  | some n =>
    let s1 := { s with net := dropAt s.net i }
    if n.msg.ddev = deviceId s then bumpSpoil s1 (substT s n.msg.dtile) 6 1 else s1
  | none => s

/-- The tile whose router a control flit is for: a request's is the gate router of its sender's quadrant (10 R244, R247). -/
def ctlTarget (s : State) (c : Ctl) : Option Nat :=
  match c with
  | .tallyOp t .. | .arrival t .. | .fetch t .. => some (gateOf s t)
  | .twaitReply t .. | .release t .. | .fetchReply t .. => some t
  | .tallyHost .. => none
  | .notice sdev stile .. => if sdev = deviceId s then some stile else none

/-- A control message with an uncorrectable flit is discarded in the same way. -/
def corruptCtl (s : State) (i : Nat) : State :=
  match s.ctl[i]? with
  | some c =>
    let s1 := { s with ctl := dropAt s.ctl i }
    match ctlTarget s c with
    | some t => bumpSpoil s1 t 6 1
    | none => s1
  | none => s

/-- The running section that message i belongs to. -/
def launchOfMessage (s : State) (i : Nat) : Option Launch :=
  match s.net[i]? with
  | some n => (if n.msg.sdev = deviceId s then launchOn s n.msg.stile else none) <|> launchOn s n.msg.dtile
  | none => none

/-- What the event does whenever its lasting action comes: the message with a bad flit is discarded (10 R245). -/
def faultEffect (s : State) (e : FaultEvent) : State :=
  match e with
  | .flit _ i | .linkFlit _ _ i => corruptMessage s i
  | .ctlFlit _ i => corruptCtl s i
  | _ => s

/-- The detection record of an uncorrectable error in a tile, router or link, and the action that is due on it; none where the unit is out
of service already, or the event is of another kind. -/
def detect (s0 s : State) (e : FaultEvent) : Option (State × Due) :=
  match e with
  | .tileUnit t unit idx => if tileRetired s t then none else some (hardRecord s 1 t (unit + 2 ^ 8 * idx) [], .tile t (nextSeq s))
  | .flit t _ | .ctlFlit t _ => if tileRetired s t then none else some (hardRecord s 1 t 5 [], .tile t (nextSeq s))
  | .linkFlit t k i =>
    if s.links.contains (t, k) then none else some (hardRecord s 2 t k [], .link t k (nextSeq s) ((launchOfMessage s0 i).map (·.ticket)))
  | _ => none

/-- The lasting action of an event that is not detected by record first. -/
def faultAction (s : State) (e : FaultEvent) : State :=
  match e with
  | .counted u loc1 _ => if overThreshold s u then thresholdAction s u loc1 else s
  | .hbm a => hbmFault s a
  | .lpddr a => memFatal s a false
  | .wrongWord a b => wrongWord s a b
  | .channelLost k c => loseChannel s k c []
  | .stackLost k => loseStack s k
  | .laneFault p l => dropLane s p l []
  | .dieLost d => deviceFatal s stFaultFatal 0x0C d 0 []
  | .tileUnit .. | .flit .. | .ctlFlit .. | .linkFlit .. => s

/-- An action that is due is taken. -/
def takeDue (s : State) (d : Due) : State :=
  match d with
  | .event e => faultAction s e
  | .tile t seq => if tileRetired s t then s else hardAct s (launchOn s t) (.tile t) seq
  | .link t k seq ticket =>
    if s.links.contains (t, k) then s else hardAct s (ticket.bind fun x => s.launches.find? (·.ticket = x)) (.link t k) seq

/-- A lasting fault of the tile is covered (R427). -/
def tileCovered (s : State) (t : Nat) : Bool := (match launchOn s t with | some l => covered s l | none => false) && (spareFor s t).isSome

/-- A fault that would fail the outgoing job: it is met at once during a switch (15 R364). -/
def failsOutgoing (s : State) (e : FaultEvent) : Bool :=
  s.comp.isSome &&
    match e with
    | .tileUnit t .. | .flit t _ | .ctlFlit t _ => !tileCovered s t
    | .linkFlit _ _ i => !(launchOfMessage s i).any (covered s)
    | .counted (.tile t) .. | .counted (.router t) .. | .counted (.queue t) .. => !tileCovered s t
    | .hbm a => (regionOver s a).all fun r => r.prot = 0
    | _ => false

/-- What waits for nothing: a device-fatal fault, an error in LPDDR5X, which never becomes lasting (R425), a word changed unseen; and
during a switch, though not in a load's write phase (12 R311), a fault of the outgoing job. -/
def actsAtOnce (s : State) (e : FaultEvent) : Bool :=
  match e with
  | .dieLost _ | .lpddr _ | .wrongWord .. => true
  | _ => switchingNow s && failsOutgoing s e && !(match s.load with | some l => l.phase = .write | none => false)

/-- What a fault does at once, and what is put off (12 R311, 15 R364). -/
def meetFault (s : State) (e : FaultEvent) : State :=
  let wait := actionsWait s && !actsAtOnce s e
  let s1 := faultEffect s e
  let r := (detect s s1 e).getD (s1, .event e)
  if wait then deferFault r.1 r.2 else takeDue r.1 r.2

/-- ERROR_EVENT (R424 to R433): a corrected event is counted and recorded, then the action of a lasting fault. Pointer resets and
failovers, which other rows count, are none of its events. -/
def execErrorEvent (e : FaultEvent) (s : State) : Outcome :=
  if !eventExists e then .fault .noUnit
  else if s.module ≠ .on then .next s
  else match e with
    | .counted (.queue _) _ _ | .counted (.hubQueue _ _) _ _ | .counted (.stack _) _ _ | .counted (.pcie _) _ _ => .next s
    | .counted u loc1 addr => .next (meetFault (correctedEvent s u loc1 addr) e)
    | _ => .next (meetFault s e)

/-- Actions that were put off are taken once nothing holds them. -/
def runDeferred (s : State) : State :=
  if actionsWait s || s.errs.deferred.isEmpty then s
  else s.errs.deferred.foldl takeDue { s with errs := { s.errs with deferred := [] } }

/-! ### QUEUE_POINTER_RESET (10 R259, R438) -/

/-- The counted contained record of a pointer reset: window count, lifetime count, reset count. -/
def resetRecord (s : State) (u : CountUnit) (src job loc0 loc1 count : Nat) : State :=
  let s1 := countEvent s u
  let w := winOf s1 u
  addRecord (setWin s1 { w with since := 0 }) stContained 1 false false src job loc0 loc1 [windowCount s1 u, w.life, count]

/-- Frames of the inbound queue of one LVC that wait to be sent on. -/
def inboundFrames (s : State) (p lvc : Nat) : List Frame :=
  s.casc.jports.flatMap fun j => j.waiting.filter fun f => f.seq = p + 1 && f.lvc = lvc

/-- Hub queue k of the counting units: 0 and 1 host FIFOs, 2 the combiners, 16 onward the Jorzin inbound queues. -/
def hubReset (s : State) (k lost : Nat) : State :=
  let a := arrSet s.hubCtr (2 * k) (arrGet s.hubCtr (2 * k) 0 + 1) 0
  { s with hubCtr := arrSet a (2 * k + 1) (arrGet a (2 * k + 1) 0 + BitVec.ofNat 64 lost) 0 }

def hubResets (s : State) (k : Nat) : Nat := (arrGet s.hubCtr (2 * k) 0).toNat

/-- A hub queue's reset is counted; the fourth in 60 s is device-fatal. -/
def hubQueueReset (s : State) (k kind n lost : Nat) : State :=
  let s1 := resetRecord (hubReset s k lost) (.hubQueue kind n) 8 0 kind n (hubResets s k + 1)
  if overThreshold s1 (.hubQueue kind n) then thresholdAction s1 (.hubQueue kind n) 0 else s1

/-- QUEUE_POINTER_RESET (R259): the queue empties and goes on; what it held is counted. In a covered section it starts a recovery
(R438), after a commit or without cover it is job-fatal (R436); elsewhere it fails no job. -/
def execQueuePointerReset (u : QueueRef) (s : State) : Outcome :=
  match u with
  | .tileQ t qn =>
    withQ16 qn s <| withTile s t fun tl =>
      let q := queueN tl.net qn
      let n := heldIn q
      let s1 := setTile s t { tl with net := addSpoil (modQueue tl.net qn fun q => markHigh { q with
        items := [], wr := 0, lost := q.lost + queueAcq q, tags := [], spill := [], spWr := 0, spilling := false, qreset := q.qreset + 1 }) 5 n }
      let seq := nextSeq s
      let loc1 := 6 + 2 ^ 8 * qn
      let l := launchOn s t
      let s2 := resetRecord s1 (.queue t) 1 (if l.isSome then s.comp.getD 0 else 0) t loc1 (q.qreset.toNat + 1)
      if overThreshold s2 (.queue t) then
        let e := FaultEvent.counted (.queue t) loc1 0
        .next (if actionsWait s2 && !actsAtOnce s2 e then deferFault s2 (.event e) else thresholdAction s2 (.queue t) loc1)
      else match l with
        | some x =>
          if !imageRpl x.img ∨ switchingNow s then .next s2
          else match s2.errs.recov with
            | some r => .next (abandonRecovery s2 r.unit r.spare r.seq)
            | none =>
              if covered s2 x then .next (recover s2 x (.queue t) seq)
              else .next (failComputing (jobRecord s2 1 stFaultFatal 2 t loc1 []) stFaultFatal)
        | none => .next s2
  | .hostFifo p =>
    withPort p <|
      let f := (portN s p).fifo
      let n := cdiv f.bytes.length 32
      let s1 := modPort s p fun x => { x with fifo := { x.fifo with
        bytes := [], ovf := x.fifo.ovf + BitVec.ofNat 32 n, high := false, full := false } }
      .next (hubQueueReset (if f.high then signal s1 p 0 1017 else s1) p 0 p n)
  | .jorzinIn p lvc =>
    withJPort p <|
      if lvc > 2 then .fault .noQueue
      else
        let lost := (inboundFrames s p lvc).length
        let s1 := { s with casc := { s.casc with jports := s.casc.jports.map fun j =>
          { j with waiting := j.waiting.filter fun f => !(f.seq = p + 1 && f.lvc = lvc) } } }
        let s2 := freeIn (modJPort s1 p fun j => countJ j 7 lost) p lvc ((jportN s p).inq.getD lvc 0)
        .next (hubQueueReset s2 (16 + 3 * p + lvc) 2 (3 * p + lvc) lost)
  | .combiner n => .next (hubQueueReset s 2 1 n 0)

/-! ### Summary, flash, scrubbers, watchers -/

/-- SUMMARY_RECORD (R425): a saturated unit's record of the second, with the events since its last record. -/
def execSummaryRecord (u : CountUnit) (s : State) : Outcome :=
  if !unitExists u then .fault .noUnit
  else if windowCount s u < 64 then .next s
  else
    let w := winOf s u
    let p := unitPlace u (match u with | .queue _ => 6 | _ => 0) 0
    .next (addRecord (setWin s { w with since := 0 }) stCorrected 0 false true p.1 0 p.2.1 p.2.2.1 [windowCount s u, w.life, 0, 0, w.since])

/-- FLASH_COUNT_WRITE (R425). -/
def execFlashCountWrite (s : State) : Outcome := .next (writeFlash s)

/-- The image of the computing job that last wrote the word at a control-space offset of a tile, where nothing has written the
word since: the value stands as the image's records leave it (R440). -/
def scrubImage (s : State) (t off : Nat) : Option Image :=
  (s.images.filter fun i => s.comp = some i.job || i.job = 0).find? fun i =>
    let u := ((rectTiles i.rect).find? fun u => substT s u = t).getD t
    let rs := imageRecords s i
    inRect i.rect u && (rs.any fun r => match recSpan r u with | some (o, n) => decide (o ≤ off) && decide (off < o + n) | none => false) &&
      ctlRead64 (tileOf (jobSplit s) rs u (configReset (tileAt s t))) (jobSplit s) (off / 8 * 8) = ctlRead64 (tileAt s t) (jobSplit s) (off / 8 * 8)

/-- CONFIG_SCRUB (R440): unit 3 is the instruction memory, 4 the other configuration memories. An uncorrectable word that the
image holds is written again, as it stood. -/
def execConfigScrub (t off : Nat) (r : ScrubResult) (s : State) : Outcome :=
  withTile s t fun _ =>
    let loc1 := (if 0x8000 ≤ off ∧ off < 0x10000 then 3 else 4) + 2 ^ 8 * (off / 8 % 2 ^ 16)
    match r with
    | .clean => .next s
    | .corrected => execErrorEvent (.counted (.tile t) loc1 0) s
    | .uncorrectable =>
      match scrubImage s t off with
      | some i => match imageLost s i with
        | some a => .next (memFatal s a false)
        | none => .next (plainRecord s 1 stCorrected 0 t loc1 [])
      | none => execErrorEvent (.tileUnit t (loc1 % 256) (loc1 / 256)) s

/-- SCRUBBER_CRC_CHECK (R441). -/
def execScrubberCrcCheck (n : Nat) (ok : Bool) (s : State) : Outcome :=
  withLevel n <| if ok then .next s else .next (plainRecord s 0x0A stContained 1 n 0 [])

/-- A Level controller stops and is reloaded: a contained record; a recovery on that Level is abandoned (R442, R439). -/
def controllerFault (s : State) (n : Nat) : State :=
  let s1 := plainRecord s 0x0B stContained 1 n 0 []
  let s2 := { s1 with errs := { s1.errs with
    misses := modAt s1.errs.misses n fun _ => 0, reloading := modAt s1.errs.reloading n fun _ => true } }
  match s2.errs.recov with
  | some r =>
    match s2.launches.find? (·.ticket = r.ticket) with
    | some l => if (match l.img with | some i => rectMeetsLevel i.rect n | none => false) then abandonRecovery s2 r.unit r.spare r.seq else s2
    | none => s2
  | none => s2

/-- LOCKSTEP_MISMATCH (R442). -/
def execLockstepMismatch (n : Nat) (s : State) : Outcome := withLevel n <| .next (controllerFault s n)

/-- LC_HEARTBEAT (R442): the third miss acts as a mismatch; a heartbeat seen ends a reload. -/
def execLcHeartbeat (n : Nat) (seen : Bool) (s : State) : Outcome :=
  withLevel n <|
    if seen then .next { s with errs := { s.errs with
      misses := modAt s.errs.misses n fun _ => 0, reloading := modAt s.errs.reloading n fun _ => false } }
    else if s.errs.reloading.getD n false then .next s
    else if s.errs.misses.getD n 0 + 1 ≥ 3 then .next (controllerFault s n)
    else .next { s with errs := { s.errs with misses := modAt s.errs.misses n (· + 1) } }

/-- HUB_WATCHDOG_EXPIRY (R442). -/
def execHubWatchdogExpiry (s : State) : Outcome := .next (deviceFatal s stFaultFatal 0x0B 4 0 [])

/-- REPLAY_TIMEOUT (R439): the A-clock edges since the relaunch have reached TMAX. -/
def execReplayTimeout (s : State) : Outcome :=
  match s.errs.recov with
  | some r =>
    match s.launches.find? (·.ticket = r.ticket) with
    | some l =>
      let tmax := match l.img with | some i => i.tmax | none => 0
      if tmax ≠ 0 ∧ tmax * 36 ≤ r.edges * 10 then .next (abandonRecovery s r.unit r.spare r.seq) else .next s
    | none => .next s
  | none => .next s

/-- TILE_RETIRE (14 R337, R426): a spare is taken while a job computes. RESULT0 counts the good tiles left in the Level. -/
def execTileRetire (k : Nat) (s : State) : Outcome :=
  withCmd s k 0x0A03 fun x =>
    let t := pfld x 0x10 2
    if t > 2303 then .next (badField s k 0x10)
    else if (launchOn s t).isSome then .next (refuse s k stJobBusy 0)
    else if actionsWait s then .next s
    else
      let s1 := retireTile (early s x) t (if s.comp.isSome then spareFor s t else none)
      .next (replyOk s1 k (((List.range 2304).filter fun u => levelOf u = levelOf t && !tileRetired s1 u).length) 0)

end Sys2Proof.Machine
end

