-- ==== Sys2Proof/Machine/HostIf.lean ====
section
/-! DEFINITION. The host ports: doorbells, queue registers, the taking of packets and its checks, replies, BAR0, BAR2, the
host stream FIFO and configuration requests (14 R322 to R332, R346 to R352, 22 R500 to R507). -/

namespace Sys2Proof.Config

/-- FREE VALUE. A host has put a function into D3hot (22 R501): the place of the power-management register in configuration
space is not in the spec. Of the configuration dwords the host has written. -/
opaque d3hot : List (Nat × BitVec 32) → Bool

end Sys2Proof.Config

namespace Sys2Proof.Machine

/-- A row about queue q of port p: 0 to 15 are PF0's, 16 is PF1's (R322). -/
def withPq (p q : Nat) (k : Outcome) : Outcome := if p > 1 then .fault .noPort else if q > 16 then .fault .noQueue else k

def funcN (s : State) (p pf : Nat) : Func := if pf = 0 then (portN s p).pf0 else (portN s p).pf1

/-- A memory request of the host reaches a function: its link is up and it is not in D3hot (22 R501, R507). -/
def hostReaches (s : State) (p pf : Nat) : Bool :=
  s.module = .on && (portN s p).link && !(!(funcN s p pf).conf.isEmpty && Config.d3hot (funcN s p pf).conf)

/-- A queue error (R327): ERR, the queue stops, a contained record and vector 1,016. -/
def sqError (s : State) (p q : Nat) : State := queueRecord (modSq s p q fun x => { x with err := true }) p q false
def cqError (s : State) (p q : Nat) : State := queueRecord (modCq s p q fun x => { x with err := true }) p q true

def sqEn (q : SubQueue) : Bool := bitAt q.cfg 17
def cqEn (q : CompQueue) : Bool := bitAt q.cfg 23
def sqSize (q : SubQueue) : Nat := fld q.cfg 11 0 + 1

/-- SQ_TAIL_DOORBELL (R324, R327). -/
def execSqTailDoorbell (p q v : Nat) (s : State) : Outcome :=
  withPq p q <|
    let x := sqN (portN s p) q
    if !hostReaches s p (queuePf q) ∨ !sqEn x ∨ x.err then .next s
    else if v % 4096 ≥ sqSize x then .next (sqError s p q)
    else .next (modSq s p q fun y => { y with tail := v % 4096 })

/-- CQ_HEAD_DOORBELL (R326, R327): entries are freed, and held ones written. -/
def execCqHeadDoorbell (p q v : Nat) (s : State) : Outcome :=
  withPq p q <|
    let x := cqN (portN s p) q
    if !hostReaches s p (queuePf q) ∨ !cqEn x ∨ x.err then .next s
    else if v % 4096 ≥ cqSize x then .next (cqError s p q)
    else .next (drainHeld p q x.held.length (modCq s p q fun y => { y with head := v % 4096 }))

/-- Mask of the bytes that a write covers (R351). -/
def beMask (be : BitVec 8) : W64 :=
  BitVec.ofNat 64 ((List.range 8).foldl (fun a i => a + b2n (bitAt be i) * 0xFF * 2 ^ (8 * i)) 0)

/-- A register after a write of the bits m of v. -/
def merge64 (old v m : W64) : W64 := (old &&& ~~~m) ||| (v &&& m)

/-- Writable bits of SQ_CFG and CQ_CFG: all fields, or EN alone while EN is 1 (R348). -/
def sqCfgMask (on : Bool) : Nat := if on then 0x20000 else 0x7FFFF
def cqCfgMask (on : Bool) : Nat := if on then 0x800000 else 0xFFFFFFFFFFFF

/-- SQ_CFG_WRITE (R348): clearing EN drops the untaken packets; setting it starts the queue anew at index 0. -/
def execSqCfgWrite (p q : Nat) (v : BitVec 64) (be : BitVec 8) (s : State) : Outcome :=
  withPq p q <|
    if !hostReaches s p (queuePf q) then .next s
    else .next (modSq s p q fun x =>
      let c := merge64 x.cfg v (beMask be &&& BitVec.ofNat 64 (sqCfgMask (sqEn x)))
      if bitAt c 17 && !sqEn x then { x with cfg := c, head := 0, tail := 0, err := false }
      else if !bitAt c 17 then { x with cfg := c, tail := x.head }
      else { x with cfg := c })

/-- CQ_CFG_WRITE (R348): setting EN sets the phase to 1 and the tail to 0; what is held is then written. -/
def execCqCfgWrite (p q : Nat) (v : BitVec 64) (be : BitVec 8) (s : State) : Outcome :=
  withPq p q <|
    if !hostReaches s p (queuePf q) then .next s
    else
      let s1 := modCq s p q fun x =>
        let c := merge64 x.cfg v (beMask be &&& BitVec.ofNat 64 (cqCfgMask (cqEn x)))
        if bitAt c 23 && !cqEn x then { x with cfg := c, head := 0, tail := 0, phase := true, err := false, unsig := 0 }
        else { x with cfg := c }
      .next (drainHeld p q (cqN (portN s1 p) q).held.length s1)

/-- CQ_REPLY_WRITE (R326): one held reply or event is written. -/
def execCqReplyWrite (p q : Nat) (s : State) : Outcome := withPq p q <| .next (drainHeld p q 1 s)

/-- CQ_COALESCE_TIMEOUT (R352). -/
def execCqCoalesceTimeout (p q : Nat) (s : State) : Outcome :=
  withPq p q <|
    let x := cqN (portN s p) q
    if x.unsig = 0 then .next s else .next (signal (modCq s p q fun y => { y with unsig := 0 }) p (queuePf q) (cqVec q x))

/-! ### The opcode table (R337) -/

/-- What R337 says of an opcode: slots at least and at most, whether JOB is none (0), needed (1) or as JOB_QUERY's (2), allowed
on PF1 (R332), takes LVLMASK, and its body fields as (offset, bytes). -/
structure OpInfo where
  lo : Nat
  hi : Nat
  job : Nat
  pf1 : Bool
  lvl : Bool
  fields : List (Nat × Nat)
deriving DecidableEq, Repr

/-- Opcode groups whose JOB is 0: 0x00 and 0x05 to 0x0A. -/
def opLow (op : Nat) : Option OpInfo :=
  match op with
  | 0x0001 => some ⟨1, 1, 0, true, false, []⟩
  | 0x0002 => some ⟨1, 1, 0, true, false, [(0x10, 8)]⟩
  | 0x0003 => some ⟨1, 1, 0, true, false, []⟩
  | 0x0004 => some ⟨1, 1, 0, false, false, [(0x10, 2), (0x14, 4)]⟩
  | 0x0005 => some ⟨1, 1, 0, true, false, [(0x10, 2)]⟩
  | 0x0010 => some ⟨1, 1, 0, false, true, [(0x10, 1), (0x12, 2)]⟩
  | 0x0200 => some ⟨1, 1, 0, false, false, [(0x10, 7), (0x18, 8)]⟩
  | 0x0501 => some ⟨1, 1, 0, false, false, [(0x10, 12)]⟩
  | 0x0600 => some ⟨1, 1, 0, false, false, [(0x10, 20)]⟩
  | 0x0601 => some ⟨2, 64, 0, false, false, [(0x10, 8), (0x40, 4032)]⟩
  | 0x0700 => some ⟨1, 1, 0, false, false, [(0x10, 5)]⟩
  | 0x0701 => some ⟨1, 1, 0, true, false, []⟩
  | 0x0800 => some ⟨1, 1, 0, true, false, [(0x10, 8)]⟩
  | 0x0801 => some ⟨1, 1, 0, true, false, [(0x10, 18)]⟩
  | 0x0900 => some ⟨1, 1, 0, false, false, [(0x10, 13)]⟩
  | 0x0901 => some ⟨1, 1, 0, true, false, [(0x10, 12), (0x20, 32)]⟩
  | 0x0902 => some ⟨1, 1, 0, false, false, [(0x10, 12)]⟩
  | 0x0A00 => some ⟨1, 1, 0, true, true, [(0x10, 10)]⟩
  | 0x0A01 => some ⟨1, 1, 0, true, false, [(0x10, 18)]⟩
  | 0x0A02 => some ⟨1, 1, 0, false, true, [(0x10, 1)]⟩
  | 0x0A03 => some ⟨1, 1, 0, false, false, [(0x10, 2)]⟩
  | 0x0A04 => some ⟨1, 1, 0, false, false, [(0x10, 1), (0x12, 2)]⟩
  | _ => none

/-- Opcodes that name a job. -/
def opJob (op : Nat) : Option OpInfo :=
  match op with
  | 0x0100 => some ⟨1, 1, 1, false, false, [(0x10, 5), (0x18, 4), (0x20, 8)]⟩
  | 0x0101 => some ⟨1, 1, 1, false, false, [(0x10, 8)]⟩
  | 0x0102 => some ⟨1, 1, 1, false, false, [(0x10, 25)]⟩
  | 0x0103 => some ⟨1, 1, 1, false, false, [(0x10, 24)]⟩
  | 0x0104 => some ⟨1, 1, 1, false, false, [(0x10, 9)]⟩
  | 0x0201 => some ⟨1, 1, 1, false, false, []⟩
  | 0x0202 => some ⟨1, 1, 1, false, false, []⟩
  | 0x0203 => some ⟨1, 1, 2, false, false, [(0x10, 10)]⟩
  | 0x0300 => some ⟨1, 1, 1, false, false, [(0x10, 17)]⟩
  | 0x0301 => some ⟨1, 1, 1, false, false, [(0x10, 5), (0x18, 12)]⟩
  | 0x0302 => some ⟨1, 1, 1, false, false, [(0x10, 4)]⟩
  | 0x0303 => some ⟨1, 1, 1, false, false, [(0x10, 4)]⟩
  | 0x0304 => some ⟨1, 1, 1, false, false, [(0x10, 4), (0x18, 8)]⟩
  | 0x0305 => some ⟨1, 1, 1, false, false, [(0x10, 4), (0x18, 8)]⟩
  | 0x0400 => some ⟨2, 64, 1, false, false, [(0x10, 4)]⟩
  | 0x0401 => some ⟨1, 1, 1, false, false, [(0x10, 2), (0x14, 3)]⟩
  | 0x0402 => some ⟨1, 1, 1, false, false, [(0x10, 2), (0x14, 3)]⟩
  | 0x0403 => some ⟨6, 6, 1, false, false, [(0x10, 2), (0x14, 4), (0x20, 18), (0x40, 288)]⟩
  | 0x0500 => some ⟨1, 1, 1, false, false, [(0x10, 10), (0x20, 8)]⟩
  | 0x0602 => some ⟨1, 1, 1, false, false, [(0x10, 37)]⟩
  | _ => none

def opInfo (op : Nat) : Option OpInfo := (opLow op) <|> (opJob op)

/-- Reserved bits within the fields themselves, as (offset, bits). -/
def opBits (op : Nat) : List (Nat × Nat) :=
  match op with
  | 0x0102 => [(0x28, 0xFC)]
  | 0x0104 => [(0x18, 0xF8)]
  | 0x0600 => [(0x11, 0xF0)]
  | _ => []

/-- Bits of byte i of a packet that must be zero (R7, R328, R337). -/
def reservedBits (x : Packet) (o : OpInfo) (i : Nat) : Nat :=
  if i < 3 then 0
  else if i = 3 then 0xF8
  else if i < 8 then 0
  else if i = 8 then 0xC0
  else if i = 9 then (if o.lvl then 0xF0 else 0xFF)
  else if i < 0xC then 0
  else if i < 0x10 then 0xFF
  else if pOpcode x = 0x0400 && decide (0x20 ≤ i) && decide (i < 0x20 + 8 * pfld x 0x12 2) then 0
  else if o.fields.any fun f => decide (f.1 ≤ i) && decide (i < f.1 + f.2) then
    ((opBits (pOpcode x)).find? fun b => b.1 = i).elim 0 (·.2)
  else 0xFF

/-- The offset of the field that byte i belongs to (R330): the header's reserved field and TALLY's N have more bytes than one in question;
a reserved byte of the body stands for itself (log 23). -/
def fieldStart (op i : Nat) : Nat :=
  if 0xC ≤ i ∧ i < 0x10 then 0xC
  else if i = 0x17 ∧ (op = 0x0401 ∨ op = 0x0402) then 0x14
  else i

/-- Offsets that fail check 3 of R332, DEV aside. -/
def badOffsets (x : Packet) (o : OpInfo) : List Nat :=
  (((List.range (64 * pLen x)).filter fun i => (pfld x i 1) &&& reservedBits x o i ≠ 0).map (fieldStart (pOpcode x))) ++
    (if pfld x 4 4 = 0xFFFFFFFF then [4] else []) ++ (if o.job = 0 ∧ pJob x ≠ 0 then [0xA] else [])

/-- The device is part of a cascade (17 R396): a Member, or a Pithead with a trained Jorzin port. -/
def inCascade (s : State) : Bool := !s.casc.pith || s.casc.jports.any (·.trained)

/-- What DEV of a packet asks (R329): this device, a Member to forward to, or a refusal. -/
inductive DevTest where
  | own | forward | absent | bad
deriving DecidableEq, Repr

def devTest (s : State) (x : Packet) : DevTest :=
  let d := pfld x 8 1
  if d = deviceId s then .own
  else if !s.casc.pith ∨ !inCascade s ∨ 2 ≤ x.port then .bad
  else if !deviceReady s ∨ !inMembers s d ∨ !s.casc.present.contains d then .absent
  else .forward

/-- Checks 1 to 3 of R332: status and DETAIL of the first failure. -/
def checkForm (s : State) (x : Packet) : Option (Nat × Nat) :=
  match opInfo (pOpcode x) with
  | none => some (stBadOpcode, pOpcode x)
  | some o =>
    if x.sq = 16 ∧ !o.pf1 then some (stBadOpcode, pOpcode x)
    else if pLen x < o.lo ∨ o.hi < pLen x then some (stBadLength, 0)
    else
      let t := devTest s x
      match least (badOffsets x o ++ if t = .bad then [8] else []) with
      | some i => if t = .absent ∧ 8 < i then some (stCascadeNotReady, 0) else some (stBadParam, i)
      | none => if t = .absent then some (stCascadeNotReady, 0) else none

/-- The packet needs an open job (R337). -/
def needsJob (x : Packet) : Bool :=
  match opInfo (pOpcode x) with
  | some o => o.job = 1 || (o.job = 2 && (pJob x ≠ 0 || pfld x 0x18 1 ≠ 1))
  | none => false

/-- Opcodes accepted for a failed job (R335), and by a device-fatal device (18 R423). -/
def failedOk (op : Nat) : Bool := op = 0x0203 || op = 0x0201 || op = 0x0101
def fatalOk (x : Packet) : Bool :=
  let op := pOpcode x
  failedOk op || op = 0x0002 || op = 0x0003 || op = 0x0A00 || op = 0x0A01 || (op = 0x0010 && pfld x 0x10 1 = 0)

/-- A JOB_CLOSE of the job has started (R336). -/
def closing (s : State) (j : Nat) : Bool := s.out.any fun y => y.sent && pOpcode y = 0x0201 && pJob y = j

/-- Checks 4 and 5 of R332, and the refusals of a device-fatal device. -/
def checkJob (s : State) (x : Packet) : Option (Nat × Nat) :=
  match (if needsJob x then some (jobOf s (pJob x)) else none) with
  | some none => some (stNoJob, 0)
  | some (some j) =>
    if j.port ≠ x.port ∨ closing s j.id then some (stNoJob, 0)
    else if (j.state = .failed ∧ !failedOk (pOpcode x)) ∨ (s.errs.fatal ∧ !fatalOk x) then some (stFaultFatal, 0)
    else none
  | none => if s.errs.fatal ∧ !fatalOk x then some (stFaultFatal, 0) else none

/-- A packet enters the device: refused with a reply, forwarded to its Member, or outstanding (R329, R332). -/
def takePacket (s : State) (x : Packet) : State :=
  match checkForm s x with
  | some e => replyPacket s x e.1 e.2 0 0
  | none =>
    if devTest s x = .forward then
      sendForwards { s with out := s.out ++ [{ x with away := true }] }
    else match checkJob s x with
      | some e => replyPacket s x e.1 e.2 0 0
      | none => { s with out := s.out ++ [x] }

/-! ### Taking packets (R324, R325, R346) -/

/-- An SQ whose turn counts: enabled, submitted packets, and a CQ that is neither full nor holding (R326). -/
def sqReady (pt : Port) (q : Nat) : Bool :=
  let x := sqN pt q
  let c := cqN pt (if q = 16 then 16 else fld x.cfg 16 13)
  sqEn x && !x.err && x.tail ≠ x.head && !cqFull c && c.held.isEmpty

/-- The SQ whose turn it is (R325): the first ready one after the last served. -/
def nextSq (pt : Port) : Option Nat := ((List.range 17).map fun i => (pt.rr + 1 + i) % 17).find? (sqReady pt)

/-- The bytes of n slots from the head: read in LPDDR5X, or as host memory gives them. -/
def slotBytes (s : State) (x : SubQueue) (bytes : List Byte) (n : Nat) : List Byte :=
  if bitAt x.cfg 12 then (List.range n).flatMap fun i => memRead s (x.base.toNat + 64 * ((x.head + i) % sqSize x)) 64
  else slice bytes 0 (64 * n)

/-- The requests for n slots of a queue in LPDDR5X (08 R209). -/
def slotReads (s : State) (x : SubQueue) (n : Nat) : State :=
  (List.range n).foldl (fun s i => binReads s (x.base.toNat + 64 * ((x.head + i) % sqSize x)) 64) s

/-- The packet goes by the fast path (R346). -/
def isFast (s : State) (x : SubQueue) (b : List Byte) : Bool :=
  let op := leAt b 0 2
  bitAt x.cfg 18 && (op = 0x0301 || op = 0x0401) && leAt b 2 1 = 1 && !nbit (leAt b 3 1) 0 && leAt b 0xA 2 ≠ 0 &&
    s.comp = some (leAt b 0xA 2) &&
    !(op = 0x0301 && loadMeets s { x0 := leAt b 0x10 1, x1 := leAt b 0x11 1, y0 := leAt b 0x12 1, y1 := leAt b 0x13 1 })

/-- Packets of a port that the CP holds (R325). -/
def cpHeld (s : State) (p : Nat) : Nat := (s.out.filter fun y => y.port = p && !y.fast).length

/-- The bytes that a queue access has brought: fewer than were asked of host memory stand for a DMA that failed (R327; log 22). -/
def slotsRead (x : SubQueue) (bytes : List Byte) (n : Nat) : Bool := bitAt x.cfg 12 || decide (64 * n ≤ bytes.length)

/-- PACKET_TAKE (R324, R325, R332, R346): `bytes` is what host memory holds from the head slot on. A packet that reaches beyond
the tail passes the turn; a LEN of 0 takes one slot. The fast path takes a packet without the CP's turn. -/
def execPacketTake (p q : Nat) (bytes : List Byte) (s : State) : Outcome :=
  withPq p q <|
    let pt := portN s p
    let x := sqN pt q
    let mine := decide (nextSq pt = some q)
    let quick := sqReady pt q && isFast s x (slotBytes s x bytes 1)
    if s.module ≠ .on ∨ s.s3 ∨ !pt.link ∨ (!mine ∧ !quick) then .next s
    else
      let avail := (x.tail + sqSize x - x.head) % sqSize x
      let turn := if mine then modPort s p fun y => { y with rr := q } else s
      let reach := fun (i : Nat) => queueReach s (bitAt x.cfg 12) p q (x.base.toNat + 64 * ((x.head + i) % sqSize x)) 64
      if !reach 0 ∨ !slotsRead x bytes 1 then .next (sqError turn p q)
      else
        let n := max 1 (leAt (slotBytes s x bytes 1) 2 1)
        if n > avail then .next turn
        else if !(List.range n).all reach ∨ !slotsRead x bytes n then .next (sqError turn p q)
        else
          let b := slotBytes s x bytes n
          let fast := isFast s x b
          if !fast ∧ cpHeld s p ≥ 256 then .next s
          else
            let head := (x.head + n) % sqSize x
            let k : Packet :=
              { ticket := s.ticket, port := p, sq := q, sqhead := head, bytes := b, sent := false, count := 0, drop := false,
                sub := none, res := none, away := false, fast := fast }
            let s1 := { modSq turn p q (fun y => { y with head := head }) with ticket := s.ticket + 1 }
            .next (takePacket (if bitAt x.cfg 12 then slotReads s1 x n else s1) k)

/-! ### BAR0 of a function (R347, R348) -/

/-- Bytes of the FIFO in 32-byte units. -/
def fifoOcc (f : Fifo) : Nat := cdiv f.bytes.length 32

/-- DEVSTAT (R348). -/
def devStat (s : State) (p : Nat) : Nat :=
  b2n (deviceReady s) + 2 * b2n (cfgErr s) + 4 * b2n s.casc.pith + 8 * (deviceId s % 64) + 2 ^ 9 * b2n s.power.brown +
    2 ^ 10 * b2n (s.power.throt || s.power.heat) + 2 ^ 11 * b2n (portN s (1 - p)).link

/-- The 64 bits at an offset of BAR0, a multiple of 8 (R347, R348); a PF1 has SQ0, CQ0 and DEVSTAT alone (22 R500). -/
def bar0Read64 (s : State) (p pf o : Nat) : W64 :=
  let pt := portN s p
  let qn := fun (i : Nat) => if pf = 1 then 16 else i
  let has := fun (i : Nat) => decide (i < if pf = 1 then 1 else 16)
  BitVec.ofNat 64 (
    if 0x10000 ≤ o ∧ o < 0x10400 then
      let i := (o - 0x10000) / 0x40
      let x := sqN pt (qn i)
      if !has i then 0
      else match o % 0x40 with
        | 0 => x.base.toNat
        | 8 => x.cfg.toNat
        | 0x10 => x.head + 2 ^ 12 * b2n x.err
        | _ => 0
    else if 0x11000 ≤ o ∧ o < 0x11400 then
      let i := (o - 0x11000) / 0x40
      let x := cqN pt (qn i)
      if !has i then 0
      else match o % 0x40 with
        | 0 => x.base.toNat
        | 8 => x.cfg.toNat
        | 0x10 => x.tail + 2 ^ 12 * b2n x.phase + 2 ^ 13 * b2n x.err + 2 ^ 32 * x.evlost.toNat
        | _ => 0
    else if o = 0x12000 then devStat s p
    else if pf = 1 then 0
    else if o = 0x12008 then pt.apbase.toNat
    else if o = 0x12010 then fifoOcc pt.fifo % 2 ^ 19 + 2 ^ 19 * b2n pt.fifo.high + 2 ^ 32 * pt.fifo.ovf.toNat
    else if 0x400000 ≤ o ∧ o < 0x800000 then 2 ^ 64 - 1
    else 0)

/-- A write of the bits m of v to a register of BAR0 without a row of its own (R8, R348): the bases, EVLOST, APBASE, OVF;
every other location is read-only or reserved. -/
def bar0Write64 (s : State) (p pf o : Nat) (v m : W64) : State :=
  let w := merge64 (bar0Read64 s p pf o) v m
  let qn := fun (i : Nat) => if pf = 1 then 16 else i
  let has := fun (i : Nat) => decide (i < if pf = 1 then 1 else 16)
  if 0x10000 ≤ o ∧ o < 0x10400 ∧ o % 0x40 = 0 then
    (if has ((o - 0x10000) / 0x40) then modSq s p (qn ((o - 0x10000) / 0x40)) fun x => { x with base := w } else s)
  else if 0x11000 ≤ o ∧ o < 0x11400 ∧ o % 0x40 = 0 then
    (if has ((o - 0x11000) / 0x40) then modCq s p (qn ((o - 0x11000) / 0x40)) fun x => { x with base := w } else s)
  else if 0x11000 ≤ o ∧ o < 0x11400 ∧ o % 0x40 = 0x10 then
    (if has ((o - 0x11000) / 0x40) then modCq s p (qn ((o - 0x11000) / 0x40)) fun x => { x with evlost := BitVec.ofNat 32 (fld w 63 32) }
    else s)
  else if pf = 0 ∧ o = 0x12008 then modPort s p fun x => { x with apbase := BitVec.ofNat 64 (fld w 47 36 * 2 ^ 36) }
  else if pf = 0 ∧ o = 0x12010 then
    modPort s p fun x => { x with fifo := { x.fifo with ovf := BitVec.ofNat 32 (fld w 63 32) } }
  else s

/-- The dword d of BAR4: the MSI-X table is written, the pending bits are not (22 R500). -/
def msixWrite (s : State) (p pf d : Nat) (v : W32) : State :=
  if pf = 0 ∧ d < 0x1000 then modPort s p fun x => { x with pf0 := { x.pf0 with msix := arrSet x.pf0.msix d v 0 } }
  else if pf = 1 ∧ d < 0x40 then modPort s p fun x => { x with pf1 := { x.pf1 with msix := arrSet x.pf1.msix d v 0 } }
  else s

/-- REGISTER_WRITE (00 R7, R8, R347, R348): `pf` 0 and 1 name BAR0 of PF0 and PF1, 2 and 3 their BAR4. -/
def execRegisterWrite (p pf off : Nat) (v : BitVec 64) (be : BitVec 8) (s : State) : Outcome :=
  withPort p <|
    if pf > 3 then .fault .noUnit
    else if !hostReaches s p (pf % 2) then .next s
    else if pf < 2 then .next (bar0Write64 s p pf (off / 8 * 8) v (beMask be))
    else
      let f := funcN s p (pf % 2)
      let d := off / 8 * 2
      let m := beMask be
      let w := merge64 ((arrGet f.msix d 0).setWidth 64 ||| ((arrGet f.msix (d + 1) 0).setWidth 64 <<< 32)) v m
      .next (msixWrite (msixWrite s p (pf % 2) d (w.setWidth 32)) p (pf % 2) (d + 1) ((w >>> 32).setWidth 32))

/-! ### BAR2 and the Level units (R350, R351) -/

/-- Bytes of an access. -/
def accLen (a : BusAccess) : Nat := match a with | .read n => n | .write d => d.length
def accWrite (a : BusAccess) : Bool := match a with | .read _ => false | .write _ => true

/-- A read's answer. -/
def barAnswer (s : State) (p : Nat) (bs : List Byte) : State :=
  { s with answers := s.answers ++ [{ who := .bar p, code := 0, bytes := bs }] }

/-- All ones for a read, nothing for a write. -/
def barNothing (s : State) (p : Nat) (a : BusAccess) : State :=
  match a with
  | .read n => barAnswer s p (List.replicate n 0xFF)
  | .write _ => s

/-- An access that R231 refuses: a contained record with the address (18 R444). -/
def barRefused (s : State) (p addr : Nat) (a : BusAccess) : State :=
  barNothing (plainRecord s 7 stContained 1 p 1 [0, 0, addr % 2 ^ 32, addr / 2 ^ 32 % 2 ^ 16]) p a

/-- The 64-bit word at index i of an access whose first byte lies at byte `sh` of word 0: value and bits written. -/
def accWord (d : List (Option Byte)) (sh i : Nat) : W64 × W64 :=
  (List.range 8).foldl (fun (a : W64 × W64) b =>
    if 8 * i + b < sh then a
    else match d.getD (8 * i + b - sh) none with
      | some x => (a.1 ||| (x.setWidth 64 <<< (8 * b)), a.2 ||| ((0xFF : W64) <<< (8 * b)))
      | none => a) (0, 0)

/-- Bytes [addr, addr + n) from a reader of 64-bit words. -/
def wordBytes (rd : Nat → W64) (addr n : Nat) : List Byte :=
  (List.range n).map fun i => BitVec.ofNat 8 (fld (rd ((addr + i) / 8 * 8)) (8 * ((addr + i) % 8) + 7) (8 * ((addr + i) % 8)))

/-- The words an access meets. -/
def accWords (addr n : Nat) : List Nat := (List.range (cdiv (addr % 8 + n) 8)).map fun i => i

/-- The tile whose control space holds an address, after the substitution of R426. -/
def isTileCtl (a : Nat) : Bool := decide (0x090000000000 ≤ a ∧ a < 0x090000000000 + 2304 * 0x10000)

/-- A tile that the host touches leaves A1, or S1 with a new generation (19 R449, R450). -/
def touchTile (s : State) (t : Nat) : State := if tileRetired s t then s else modTile s t wakeTile

/-- A host access to a tile control space (R351). -/
def ctlAccess (s : State) (p addr : Nat) (a : BusAccess) : State :=
  let t := substT s ((addr - 0x090000000000) / 0x10000)
  let off := addr % 0x10000
  let s1 := touchTile s t
  match a with
  | .read n => barAnswer s1 p (wordBytes (ctlRead64 (tileAt s1 t) (jobSplit s)) off n)
  | .write d =>
    modTile s1 t fun tl => (accWords off d.length).foldl (fun tl i =>
      let w := accWord d (off % 8) i
      match ctlWrite64 .host tl (jobSplit s) (off / 8 * 8 + 8 * i) w.1 w.2 with
      | .ok y => y
      | .error _ => tl) tl

/-- A host access to memory or a scratchpad window: only the bytes written change. A lost line gives nothing (09 R224): the read's
data are free values. -/
def memAccess (s : State) (p addr : Nat) (a : BusAccess) : State :=
  let t := substT s ((addr - 0x080000000000) / 0x200000)
  let s1 := if isPad addr then flushPad (touchTile s t) t (addr % 0x200000) (accLen a) else s
  match lostIn s addr (accLen a), a with
  | some l, .read n => memFatal (barAnswer (bumpFresh s) p ((List.range n).map (Config.openByte s.fresh 7))) l false
  | some l, .write _ => memFatal s l false
  | none, .read n => barAnswer (binReads s1 addr n) p (memRead s1 addr n)
  | none, .write d => ((List.range d.length).zip d).foldl (fun s e => match e.2 with | some b => memWrite s (addr + e.1) b | none => s) s1

/-- log2 of the BAR2 size (22 R500). -/
def bar2Bits (f : Func) : Nat := if f.conf.isEmpty then 36 else 36 + Config.bar2Exp f.conf % 6

/-- The computing job belongs to the port (R350, R351). -/
def portComputes (s : State) (p : Nat) : Bool := match compJob s with | some j => j.port = p | none => false

/-- BAR2_ACCESS (R231, R351). -/
def execBar2Access (p off : Nat) (a : BusAccess) (s : State) : Outcome :=
  withPort p <|
    let bits := bar2Bits (portN s p).pf0
    let n := accLen a
    if !hostReaches s p 0 ∨ off + n > 2 ^ bits ∨ n = 0 then .next s
    else
      let addr := (portN s p).apbase.toNat / 2 ^ bits * 2 ^ bits + off
      let last := addr + n - 1
      let asleep := (isPad addr && s.s2.contains (levelOf ((addr - 0x080000000000) / 0x200000))) ||
        (isTileCtl addr && s.s2.contains (levelOf ((addr - 0x090000000000) / 0x10000)))
      if s.s3 ∨ asleep then .next s
      else if (isHbm addr && isHbm last) || (isLpddr addr && isLpddr last) then
        if spanOk s p addr n (accWrite a) then .next (memAccess s p addr a) else .next (barRefused s p addr a)
      else if isPad addr && isPad last && (addr / 0x200000 = last / 0x200000) then
        if portComputes s p then .next (memAccess s p addr a) else .next (barRefused s p addr a)
      else if isTileCtl addr && isTileCtl last && (addr / 0x10000 = last / 0x10000) then
        if portComputes s p then .next (ctlAccess s p addr a) else .next (barRefused s p addr a)
      else .next (barNothing s p a)

/-- BAR0_LEVEL_UNIT_ACCESS (R350, 11 R278, R292). It waits while its Level is in S2 or the device in S3 (19 R449, R450). -/
def execBar0LevelUnitAccess (p off : Nat) (a : BusAccess) (s : State) : Outcome :=
  withPort p <|
    let n := accLen a
    let lu := decide (0x800000 ≤ off ∧ off + n ≤ 0xC00000)
    let cb := decide (0xC00000 ≤ off ∧ off + n ≤ 0xC00800)
    if !hostReaches s p 0 ∨ (!lu ∧ !cb) ∨ n = 0 then .next s
    else if !portComputes s p then .next (barNothing s p a)
    else
      let lv := (off - 0x800000) / 0x100000
      if s.s3 ∨ (lu ∧ s.s2.contains lv) then .next s
      else
      let s1 := if lu then { s with lvA1 := s.lvA1.filter (· ≠ lv) } else s
      let rd := fun (o : Nat) => if lu then luRead64 s1 lv (o % 0x100000) else cbarRead64 s1 (o - 0xC00000)
      match a with
      | .read n => .next (barAnswer s1 p (wordBytes rd off n))
      | .write d => .next ((accWords off d.length).foldl (fun s i =>
          let w := accWord d (off % 8) i
          let o := off / 8 * 8 + 8 * i
          if lu then luWrite64 s false lv (o % 0x100000) w.1 w.2 else cbarWrite64 s false (o - 0xC00000) w.1 w.2) s1)

/-! ### The host stream FIFO (R349, 10 R260, 22 R504) -/

/-- The FIFO's capacity in bytes. -/
def fifoCap : Nat := 8388608

/-- HIGH after a change of occupancy; a change signals vector 1,017 (R352). -/
def fifoMark (s : State) (p : Nat) : State :=
  let f := (portN s p).fifo
  let o := fifoOcc f
  let h := if f.hwm = 0 then false else if f.hwm ≤ o then true else if o ≤ f.lwm then false else f.high
  let s1 := modPort s p fun x => { x with fifo := { x.fifo with high := h, full := x.fifo.full && decide (fifoCap ≤ x.fifo.bytes.length) } }
  if h = f.high then s1 else signal s1 p 0 1017

/-- HOST_FIFO_WRITE (R349): what the FIFO cannot take is discarded, counted in OVF, and recorded once per full episode. -/
def execHostFifoWrite (p : Nat) (bytes : List Byte) (s : State) : Outcome :=
  withPort p <|
    if !hostReaches s p 0 then .next s
    else
      let f := (portN s p).fifo
      let room := fifoCap - f.bytes.length
      let lost := cdiv (bytes.length - room) 32
      let s1 := fifoMark (modPort s p fun x => { x with fifo := { x.fifo with
        bytes := x.fifo.bytes ++ bytes.take room, ovf := x.fifo.ovf + BitVec.ofNat 32 lost } }) p
      if lost = 0 ∨ f.full then .next s1
      else .next (plainRecord (modPort s1 p fun x => { x with fifo := { x.fifo with full := true } }) 8 stContained 1 0 p [lost])

/-! ### Configuration space (22 R500 to R502, 19 R455) -/

/-- Low dword of a 64-bit BAR of 2^bits bytes, and its high dword, after the host wrote v (R500, where the PCI header has them). -/
def barLow (bits flags : Nat) (v : W32) : W32 := BitVec.ofNat 32 (v.toNat / 2 ^ bits * 2 ^ bits + flags)
def barHigh (bits : Nat) (v : W32) : W32 := BitVec.ofNat 32 (v.toNat / 2 ^ (bits - 32) * 2 ^ (bits - 32))

/-- What a configuration register reads as: the identification and BARs R500 gives, where the PCI header has them (PRESUMED, log
31); any other register's contents are not in the spec. -/
def confRead (s : State) (pf reg : Nat) (f : Func) : W32 :=
  let ord := match Config.ordering with | .dt7_768M => 0 | .dt7_768 => 1 | .dt7_576M => 2 | .dt7_576 => 3
  let open_ := Config.reading (s.fresh + (arrGet f.conf reg 0).toNat) (reg + 2 ^ 12 * pf)
  let v := arrGet f.conf reg 0
  match reg with
  | 0 => BitVec.ofNat 32 (0x1F7E + (0xD7A0 + pf) * 2 ^ 16)
  | 2 => BitVec.ofNat 32 (0x120000 * 2 ^ 8 + Config.reading 0 2 % 256)
  | 3 => BitVec.ofNat 32 (open_ % 2 ^ 16 + 0x80 * 2 ^ 16 + open_ / 2 ^ 24 % 2 ^ 8 * 2 ^ 24)
  | 4 => barLow (if pf = 0 then 24 else 17) 4 v
  | 5 => v
  | 6 => if pf = 0 then 0xC else 0
  | 7 => if pf = 0 then barHigh (bar2Bits f) v else 0
  | 8 => barLow (if pf = 0 then 15 else 12) 4 v
  | 9 => v
  | 11 => BitVec.ofNat 32 (0x1F7E + ord * 2 ^ 16)
  | _ => BitVec.ofNat 32 open_

/-- CONFIGURATION_REQUEST: a read, or a write of w. A port whose reset is not complete answers Configuration Request Retry Status
(code 2); one that is in reset or untrained answers nothing. -/
def execConfigurationRequest (p pf reg : Nat) (w : Option (BitVec 32)) (s : State) : Outcome :=
  withPort p <|
    if pf > 1 ∨ reg > 1023 then .fault .noUnit
    else
      let pt := portN s p
      let ans := fun (s : State) (code : Nat) (bs : List Byte) =>
        { s with answers := s.answers ++ [{ who := .config p pf, code := code, bytes := bs }] }
      if s.module ≠ .on ∨ pt.perst then .next s
      else if !pt.link then .next (ans s 2 [])
      else match w with
        | none => .next (ans (bumpFresh s) 0 (leBytes 4 (confRead s pf reg (funcN s p pf)).toNat))
        | some v =>
          .next (ans (if pf = 0 then modPort s p fun x => { x with pf0 := { x.pf0 with conf := arrPut x.pf0.conf reg v false } }
            else modPort s p fun x => { x with pf1 := { x.pf1 with conf := arrPut x.pf1.conf reg v false } }) 0 [])

/-! ### ALERT_N (23 R515) -/

/-- A cause of ALERT_N stands. -/
def alertCause (s : State) : Bool := s.power.brown || s.power.throt || s.power.heat || cfgErr s || s.errs.fatal

/-- ALERT_STATUS_READ: ALERT_N is released when no cause remains. -/
def execAlertStatusRead (s : State) : Outcome := .next { s with alert := alertCause s }

end Sys2Proof.Machine
end

