-- ==== Sys2Proof/Machine/Cascade.lean ====
section
/-! DEFINITION. Cascades: the hub's injection, Jorzin frames, CASCADE_CONFIG, CASCADE_FORWARD and COLLECTIVE, membership, the Shaft
bus and shaft time (17 R396 to R422, 18 R435). -/

namespace Sys2Proof.Machine

/-! ### What the hub injects (R400, 18 R435, 15 R359) -/

/-- The replayable section whose region a tile lies in, while its inputs are logged. -/
def loggedBy (s : State) (t : Nat) : Option Launch :=
  s.launches.find? fun l => l.stage = .running && s.comp = some l.job && !l.committed && imageRpl l.img &&
    (match l.img with | some i => inRect i.rect t | none => false)

/-- Bytes of a log. -/
def logBytes (l : List Msg) : Nat := (l.map fun m => 32 + m.payload.length).foldl (· + ·) 0

/-- A message from the hub enters the input log; beyond 32 MiB cover is lost, with one contained record (18 R432, R435). -/
def logInput (s : State) (m : Msg) : State :=
  match loggedBy s m.dtile with
  | none => s
  | some l =>
    match s.replays.find? (·.ticket = l.ticket) with
    | none => s
    | some r =>
      if r.spent then s
      else
        let full := decide (logBytes r.log + 32 + m.payload.length > 33554432)
        let s1 := { s with replays := s.replays.map fun x =>
          if x.ticket = l.ticket then (if full then { x with log := [], spent := true } else { x with log := x.log ++ [m] }) else x }
        if full then jobRecord s1 0x0E stContained 1 0 0 [] else s1

/-- A message of the hub enters the mesh on the gate of the destination's quadrant (10 R244). -/
def hubDeliver (s : State) (m : Msg) : State := injectMsg (logInput s m) { m with dtile := substT s m.dtile }

/-- Inputs wait at the hub during a switch, a restore or a recovery (15 R359, 18 R437). -/
def inputsHeld (s : State) : Bool := switchingNow s || s.errs.recov.isSome

/-- A message as the hub holds it. -/
def heldMsg (m : Msg) : NetMsg := { msg := m, waiting := false, age := 0, held := false, old := false, hub := false }

/-- The hub injects a message, or holds it. -/
def hubInject (s : State) (m : Msg) : State :=
  if inputsHeld s then { s with heldIn := s.heldIn ++ [heldMsg m] } else hubDeliver s m

/-- A message for job j: held at the hub while the job is switched out, until its restore (15 R359). -/
def inputFor (s : State) (j : Nat) (m : Msg) : State :=
  match jobOf s j with
  | some x =>
    if x.saved.isSome && s.comp ≠ some j then
      modJob s j fun y => { y with saved := y.saved.map fun v => { v with held := v.held ++ [heldMsg m] } }
    else hubInject s m
  | none => hubInject s m

/-- A message from another device: for the cascade job, when one is switched out and none computes (15 R354, R359). -/
def inbound (s : State) (m : Msg) : State :=
  match compJob s, s.jobs.find? fun j => j.casc && j.saved.isSome with
  | some c, some j => if c.casc then hubInject s m else inputFor s j.id m
  | none, some j => inputFor s j.id m
  | _, none => hubInject s m

/-- A message of the hub's own (14 R346, R408): its sender's tile number is not in the spec and is a free value. -/
def hubMessage (s : State) (dest epoch kind : Nat) (payload : List Byte) : Msg :=
  let t := dest / 2 ^ 20 % 2 ^ 12
  { ddev := deviceId s, dtile := t, dq := dest / 2 ^ 16 % 16, tag := dest % 2 ^ 16, kind := kind, rank := 0, sdev := deviceId s,
    stile := Config.reading 0 (4096 + t) % 2304, epoch := epoch, dgen := (arrGet s.genTab (substT s t) 0).toNat, payload := payload }

/-- A payload cut into messages of n flits, the last with the remainder. -/
def cutPayload (n : Nat) : Nat → List Byte → List (List Byte)
  | 0, _ => []
  | k + 1, bs => if bs.isEmpty then [] else bs.take (32 * n) :: cutPayload n k (bs.drop (32 * n))

/-! ### Outbound tile messages (R262, R400, 18 R435) -/

/-- The tile whose work a tile does: the retired one it stands for, or itself. -/
def logicalOf (s : State) (t : Nat) : Nat := ((s.subst.find? (·.2 = t)).map (·.1)).getD t

/-- A replayed section's message leaves once: it is passed on only beyond the count already forwarded (18 R435). -/
def countOutbound (s : State) (m : Msg) : State × Bool :=
  let u := logicalOf s m.stile
  match loggedBy s u with
  | none => (s, true)
  | some l =>
    match s.replays.find? (·.ticket = l.ticket) with
    | none => (s, true)
    | some r =>
      let n := arrGet r.now u 0 + 1
      let fresh := decide (arrGet r.sent u 0 < n)
      ({ s with replays := s.replays.map fun x => if x.ticket = l.ticket then
          { x with now := arrSet x.now u n 0, sent := if fresh then arrSet x.sent u n 0 else x.sent } else x }, fresh)

/-- GATE_PORT_MESSAGE (R262, R400, 18 R435). -/
def execGatePortMessage (i : Nat) (s : State) : Outcome :=
  match s.net[i]? with
  | none => .next s
  | some n =>
    let m := n.msg
    if !n.hub ∨ m.sdev ≠ deviceId s ∨ m.ddev = deviceId s ∨ !mayLeave s i n then .next s
    else if s.casc.heldFor.contains m.ddev then .next s
    else
      let s1 := progress { s with net := dropAt s.net i } m.stile
      let c := countOutbound s1 m
      if !c.2 then .next c.1
      else if !deviceReady s ∨ !inMembers s m.ddev ∨ !s.casc.present.contains m.ddev then
        .next (pushCtl { c.1 with casc := { c.1.casc with discarded := c.1.casc.discarded + 1 } } (noticeOf m 3))
      else .next (sendTo c.1 m.ddev (flowHash m) { ftype := 0, lvc := 1, seq := 0, sdev := deviceId s, body := headFlit m ++ m.payload })

/-! ### Ports (R402 to R405) -/

/-- JORZIN_ACK (R404). -/
def execJorzinAck (p aseq : Nat) (s : State) : Outcome :=
  withJPort p <|
    match indexWhere (fun x : SentFrame => x.seq = aseq % 4096) (jportN s p).replay with
    | some i => .next (pump (modJPort s p fun j => { j with replay := j.replay.drop (i + 1) }) p)
    | none => .next s

/-- JORZIN_NACK (R404): everything from the frame named is sent again. -/
def execJorzinNack (p aseq : Nat) (s : State) : Outcome :=
  withJPort p <|
    let s1 := modJPort s p fun j => countJ j 2 1
    match indexWhere (fun x : SentFrame => x.seq = aseq % 4096) (jportN s p).replay with
    | some i => .next (resendFrom s1 p i)
    | none => .next s1

/-- JORZIN_CREDIT (R403). -/
def execJorzinCredit (p c0 c1 c2 : Nat) (s : State) : Outcome :=
  withJPort p <|
    let add := fun (l c : Nat) (j : JPort) => { j with credits := modAt j.credits l fun n => min (n + c % 256) (inSize l) }
    .next (pump (modJPort s p fun j => add 2 c2 (add 1 c1 (add 0 c0 j))) p)

/-- JORZIN_ACK_TIMEOUT (R404). -/
def execJorzinAckTimeout (p : Nat) (s : State) : Outcome :=
  withJPort p <| if (jportN s p).replay.isEmpty ∨ !(jportN s p).up then .next s else .next (resendFrom s p 0)

/-- A RETRAIN of a Jorzin port (14 R337) is outstanding. -/
def retrainOf (s : State) (p : Nat) : Option Packet :=
  s.out.find? fun x => pOpcode x = 0x0A04 && x.sent && pfld x 0x10 1 = 2 && pfld x 0x12 2 = p

/-- PORT_RETRAIN_END (R405): flows resume or come back; a failed retraining takes the port down, with a contained record. -/
def execPortRetrainEnd (p : Nat) (ok : Bool) (s : State) : Outcome :=
  withJPort p <|
    if !(jportN s p).retraining then .next s
    else
      let k := retrainOf s p
      if ok then
        let s1 := modJPort s p fun j => { j with retraining := false, up := true }
        let s2 := if k.isSome then holdFlows s1 else s1
        let s3 := pump (resendFrom s2 p 0) p
        .next (match k with | some x => replyOk s3 x.ticket 0 0 | none => s3)
      else
        let s1 := plainRecord (portDown s p) 6 stContained 1 p 0 []
        .next (match k with | some x => refuse s1 x.ticket stContained 0 | none => s1)

/-- JORZIN_ROUTE_HOLD_RELEASE (R400): every frame of the flow on the old path has been acknowledged at its last hop, this device's own
among them; what waited goes. -/
def execJorzinRouteHoldRelease (d : Nat) (s : State) : Outcome :=
  if (unackedDests s).contains d then .next s
  else
    let s1 := { s with casc := { s.casc with heldFor := s.casc.heldFor.filter (· ≠ d) } }
    .next (if s.casc.heldFor.contains d then (List.range 12).foldl pump s1 else s1)

/-- Two devices with one ID, or two Pitheads (R397): the cascade does not become READY; the Pithead's record gives both ports. -/
def clashFound (s : State) (p q : Nat) : State :=
  let s1 := { s with casc := { s.casc with clash := true } }
  if s.casc.pith then plainRecord s1 6 stContained 1 p 0 [q] else s1

/-- A device's port and its far end have been reported to the Pithead (R397, R399): a report from a device of the Pithead's ID, or one that
differs from an earlier report of the same port, comes from a second device of that ID. -/
def noteFarEnd (s : State) (d p far : Nat) : State :=
  let key := 16 * d + p
  let old := (s.casc.seen.find? (·.1 = key)).map (·.2)
  let s1 := { s with casc := { s.casc with seen := arrPut s.casc.seen key far false } }
  if d = s.casc.id ∨ (old.isSome ∧ old ≠ some far ∧ !s.casc.down.contains (d, p)) then clashFound s1 p (far % 16) else s1

/-- JORZIN_PORT_TRAINED (R397, R399): the far end's device and port are learnt, and a Member reports them; a device with this device's ID,
or a second Pithead, is recorded and keeps the cascade from READY. A port that is down stays down (R405) unless the device it led to has
left, whose place a module takes again (R422). -/
def execJorzinPortTrained (p dev fport : Nat) (pith : Bool) (s : State) : Outcome :=
  withJPort p <|
    if (jportN s p).trained ∧ ((jportN s p).up ∨ !s.casc.ready ∨ s.casc.present.contains (jportN s p).dev) then .next s
    else
      let s1 := holdFlows (modJPort s p fun _ => { jportReset with
        trained := true, up := true, lanes := 4, dev := dev % 64, fport := fport % 16, counters := (jportN s p).counters })
      let s2 := tellPort s1 s.casc.id p true
      let s3 := if s.casc.pith then s2 else sendControl s2 0 9 [s.casc.id, p, 16 * (dev % 64) + fport % 16]
      if dev % 64 ≠ deviceId s ∧ !(pith ∧ s.casc.pith) then .next s3
      else .next (clashFound s3 p (fport % 16))

/-! ### CASCADE_CONFIG, CASCADE_FORWARD (R399, R337) -/

/-- Trained ports of this device that do not meet the topology. -/
def miswired (s : State) (topo n : Nat) : List Nat :=
  (List.range 12).filter fun p => let j := jportN s p; j.trained && (j.dev, j.fport) ≠ wiring topo n s.casc.id p

/-- Trained ports of the other devices, as reported, that do not meet the topology: device and port, ascending. -/
def miswiredFar (s : State) (topo n : Nat) : List (Nat × Nat) :=
  (s.casc.seen.filter fun e => e.1 / 16 ≠ s.casc.id && !s.casc.down.contains (e.1 / 16, e.1 % 16) &&
    (e.2 / 16, e.2 % 16) ≠ wiring topo n (e.1 / 16) (e.1 % 16)).map fun e => (e.1 / 16, e.1 % 16)

/-- The DETAIL of the first mismatch (R399): this device's ports, then the others'. -/
def firstMismatch (s : State) (topo n : Nat) : Option Nat :=
  least ((miswired s topo n).map (64 * s.casc.id + ·) ++ (miswiredFar s topo n).map fun e => 64 * e.1 + e.2)

/-- A change of RATIO (R417): local shaft at once; another ratio from its second reference edge. -/
def setRatio (c : Casc) (m : Nat) : Casc :=
  if m = 0 then { c with ratio := 0, force := 0, owed := 0, refSkip := 0, stopped := false }
  else if m = c.force then { c with ratio := m }
  else { c with ratio := m, refSkip := 2 }

/-- CASCADE_CONFIG (R399, R421): the Pithead's fields are distributed to every present device before the reply. -/
def execCascadeConfig (k : Nat) (s : State) : Outcome :=
  withCmd s k 0x0600 fun x =>
    let topo := pfld x 0x10 1
    let members := pfld x 0x18 8
    let bar := BitVec.ofNat 4 (pfld x 0x11 1)
    if !s.casc.shdone ∨ !deviceReady s then .next (refuse s k stCascadeNotReady 0)
    else if !s.casc.pith then
      match [(0x10, 1), (0x12, 2), (0x14, 4), (0x18, 8), (0x20, 4)].find? fun f => pfld x f.1 f.2 ≠ 0 with
      | some f => .next (badField s k f.1)
      | none =>
        let s1 := early s x
        .next (replyOk (driveOutputs { s1 with casc := { s1.casc with barpart := bar } }) k 0 0)
    else if topo > 3 then .next (badField s k 0x10)
    else if !nbit members 0 then .next (badField s k 0x18)
    else
      let named := (List.range 64).filter (nbit members)
      match named.find? fun d => !s.casc.present.contains d with
      | some d => .next (refuse s k stCascadeNotReady d)
      | none =>
        match (if topo = 0 then none else firstMismatch s topo named.length) with
        | some d => .next (refuse s k stBadParam d)
        | none =>
          let s1 := early s x
          let c := setRatio { s1.casc with
            topo := topo, barpart := bar, domain := BitVec.ofNat 16 (pfld x 0x12 2), system := BitVec.ofNat 32 (pfld x 0x14 4),
            members := some (BitVec.ofNat 64 members) } (pfld x 0x20 4)
          let s2 := driveOutputs (holdFlows { s1 with casc := c })
          let s3 := (s2.casc.present.filter (· ≠ deviceId s)).foldl (fun a d =>
            sendControl a d 5 [topo, pfld x 0x12 2, pfld x 0x14 4, members, pfld x 0x20 4]) s2
          .next (replyOk s3 k 0 0)

/-- Devices of a mask. -/
def maskDevices (m : Nat) : List Nat := (List.range 64).filter (nbit m)

/-- The embedded packet for device d. -/
def embedded (x : Packet) (d : Nat) : List Byte := splice (x.bytes.drop 64) 8 [BitVec.ofNat 8 d]

/-- Device d can be reached as a Member. -/
def reachable (s : State) (d : Nat) : Bool := inMembers s d && s.casc.present.contains d

/-- The embedded packet starts on every device of MASK: on this one as a packet of its own, by Jorzin Links on the others. -/
def startForward (s : State) (x : Packet) (own : Bool) (ds : List Nat) : State :=
  let s1 := modPacket (early s x) x.ticket fun y => { y with sent := true }
  let s2 := ds.foldl (fun s d => if d ≠ deviceId s && reachable s d then
    sendResp s { dev := d, src := deviceId s, what := .packet, last := true, port := x.port, code := 0, num := x.ticket } (embedded x d)
    else s) s1
  if !own then s2
  else
    let e : Packet := {
      ticket := s2.ticket, port := x.port, sq := 99, sqhead := 0, bytes := embedded x (deviceId s), sent := false, count := 0,
      drop := false, sub := some x.ticket, res := none, away := false, fast := false }
    let s3 := { s2 with ticket := s2.ticket + 1 }
    match (checkForm s e) <|> (checkJob s e) with
    | some r => modPacket s3 x.ticket fun y => { y with res := some r.1 }
    | none => { s3 with out := s3.out ++ [e] }

/-- CASCADE_FORWARD (R337): started once; it ends when this device's embedded packet has completed and `replies` gives the status
of every other device of MASK. A device that cannot be reached fails with CASCADE_NOT_READY. -/
def execCascadeForward (k : Nat) (replies : List (Nat × Nat)) (s : State) : Outcome :=
  withCmd s k 0x0601 fun x =>
    let ds := maskDevices (pfld x 0x10 8)
    let own := ds.contains (deviceId s)
    if !s.casc.pith then .next (refuse s k stBadParam noField)
    else if !deviceReady s then .next (refuse s k stCascadeNotReady 0)
    else
      let s1 := if x.sent then s else startForward s x own ds
      match packetN s1 k with
      | none => .next s1
      | some y =>
        let st := fun (d : Nat) =>
          if d = deviceId s then y.res
          else if !reachable s d then some stCascadeNotReady
          else (replies.find? (·.1 = d)).map (·.2)
        if ds.any fun d => (st d).isNone then .next s1
        else
          let bad := ds.filter fun d => st d ≠ some stOk
          match bad with
          | [] => .next (replyOk s1 k 0 0)
          | d :: _ => .next (complete s1 k ((st d).getD 0) d bad.length 0)

/-! ### COLLECTIVE (R407 to R410) -/

/-- The first field of a COLLECTIVE that offends. -/
def collectiveField (s : State) (x : Packet) (j : Job) : Option Nat :=
  let len := pfld x 0x20 8
  let ds := maskDevices (pfld x 0x28 8)
  let dst := pfld x 0x18 8
  if !s.casc.pith ∨ !j.casc then some noField
  else if nbit dst 63 ∧ (nbits dst 62 38 ≠ 0 ∨ nbits dst 31 20 > 2303) then some 0x18
  else if len = 0 ∨ len % 32 ≠ 0 then some 0x20
  else if ds.length < 2 ∨ !ds.all (inMembers s) then some 0x28
  else if pfld x 0x30 1 > 1 then some 0x30
  else if pfld x 0x31 1 > 1 then some 0x31
  else none

/-- COLLECTIVEs in progress (R410): those whose packets are outstanding. -/
def collsRunning (s : State) : List (Nat × Nat) := s.colls.filter fun c => s.out.any fun y => y.ticket = c.1

/-- The element-wise sum of contributions in the order given (R409, 10 R267). -/
def collectiveSum (bf16 : Bool) (vs : List (List Byte)) : List Byte :=
  (deliverPayload bf16 (vs.foldl (fun a v => (foldVec bf16 a (payloadCodes bf16 v)).1) [])).1

/-- The sum reaches this device's DST (R408). -/
def collectiveDeliver (s : State) (x : Packet) (sum : List Byte) : State :=
  let dst := pfld x 0x18 8
  if nbit dst 63 then
    (cutPayload 64 sum.length sum).foldl (fun s p => inputFor s (pJob x) (hubMessage s (nbits dst 31 0) (pfld x 0x34 1) 2 p)) s
  else memPut s dst sum

/-- COLLECTIVE (R407 to R410, 16 R376): `others` are the other members' contributions, in the order of arrival for free mode, this
device's own standing where its ID is listed, else first; a member that is not listed has failed the check of its SRC and DST. -/
def execCollective (k : Nat) (others : List (Nat × List Byte)) (s : State) : Outcome :=
  withJob s k 0x0602 fun x j =>
    let me := deviceId s
    let src := pfld x 0x10 8
    let dst := pfld x 0x18 8
    let len := pfld x 0x20 8
    let ds := maskDevices (pfld x 0x28 8)
    let inMem := !nbit dst 63
    match collectiveField s x j with
    | some o => .next (badField s k o)
    | none =>
      match ds.find? fun d => !s.casc.present.contains d with
      | some d => .next (refuse s k stCascadeNotReady d)
      | none =>
        let mineOk := !ds.contains me || (spanOk s x.port src len false && (!inMem || spanOk s x.port dst len true))
        match ds.find? fun d => if d = me then !mineOk else others.all fun o => o.1 ≠ d with
        | some d => .next (refuse s k stBadParam d)
        | none =>
          let cs := collsRunning s
          if cs.any fun c => c.2 = pfld x 0x32 2 && c.1 ≠ k then .next (badField s k 0x32)
          else if !(cs.any fun c => c.1 = k) ∧ cs.length ≥ 4 then .next s
          else
            let ends := if ds.contains me then (src, len) :: (if inMem then [(dst, len)] else []) else []
            let draw := (List.range 4).map fun n => if (rangeLevels ends).contains n then 30 else 0
            if neverAdmissible s.power draw ∧ !(cs.any fun c => c.1 = k) then .next (refuse s k stLeaveDenied (drawSum draw)) else
            let s1 := if cs.any fun c => c.1 = k then s
              else { early s x with colls := cs ++ [(k, pfld x 0x32 2)] }
            let s2 := if hasGrant s1 (.command k) ∨ hasAsked s1 (.command k) then s1 else askLeave s1 (.command k) j.lc draw
            if !hasGrant s2 (.command k) then .next s2
            else
              let s3 := { s2 with colls := s2.colls.filter (·.1 ≠ k) }
              match (if ds.contains me then (lostIn s src len) <|> (if inMem then lostIn s dst len else none) else none) with
              | some a => .next (refuse (memFatal s3 a false) k stFaultFatal 0)
              | none =>
                let part := fun (d : Nat) =>
                  if d = me then memRead s src len else slice (((others.find? (·.1 = d)).map (·.2)).getD []) 0 len
                let order := if pfld x 0x31 1 = 1 then ds
                  else
                    let listed := (others.map (·.1)).filter ds.contains |>.eraseDups
                    if ds.contains me && !listed.contains me then me :: listed else listed
                let sum := collectiveSum (pfld x 0x30 1 = 1) (order.map part)
                let s4 := if ds.contains me then collectiveDeliver (binReads s3 src len) x sum else s3
                .next (releaseLeave (replyOk s4 k ds.length (cdiv len 2048)) (.command k))

/-! ### Membership (R421, R422) -/

/-- READY changed (14 R352). -/
def readySignal (s : State) (was : Bool) : State := if deviceReady s = was then s else signalBoth s 1023

/-- The count that the Pithead stages after SHCLK has returned (R418, R419): a free value. -/
def stagedCount (s : State) : W64 := Config.randomWord (2 ^ 32 + s.fresh)

/-- The Pithead stages a device (R418): its count, for the edge at which MARK comes. -/
def stageDevice (s : State) (d : Nat) : State := sendControl s d 3 [s.casc.count.toNat]

/-- CASCADE_READY (R421): routes follow the trained links, the Pithead stages every Member and a MARK is due. The Pithead's neighbours
are present, and the devices that have reported their ports; on a Member, what further devices are present is a free choice. -/
def execCascadeReady (s : State) : Outcome :=
  if s.module ≠ .on ∨ !s.casc.shdone ∨ s.casc.clash ∨ s.casc.ready then .next s
  else
    let near := (s.casc.jports.filter fun j => j.trained && j.up).map (·.dev)
    let present := (List.range 64).filter fun d =>
      d = deviceId s || near.contains d || (!near.isEmpty &&
        (if s.casc.pith then s.casc.seen.any fun e => e.1 / 16 = d else nbit (Config.reading s.fresh 64) d))
    let s1 := { s with casc := { s.casc with ready := true, present := present } }
    let others := present.filter (· ≠ deviceId s)
    let s2 := if s.casc.pith && !others.isEmpty then
        others.foldl stageDevice { s1 with casc := { s1.casc with due := s1.casc.due ++ [.mark] } }
      else s1
    .next (readySignal ((List.range 12).foldl pump (bumpFresh s2)) false)

/-- Packets that a lost device will not answer (14 R329, R331). -/
def failAway (s : State) (d : Nat) : State :=
  ((s.out.filter fun x => x.away && pfld x 8 1 = d).map (·.ticket)).foldl (fun a k => refuse a k stCascadeNotReady 0) s

/-- DEVICE_LOSS (R422): the Pithead writes the record. -/
def execDeviceLoss (d : Nat) (s : State) : Outcome :=
  if d = deviceId s ∨ !s.casc.present.contains d then .next s
  else
    let ps := (List.range 12).filter fun p => let j := jportN s p; j.up && j.dev = d
    let s1 := ps.foldl portDown s
    let s2 := holdFlows { s1 with casc := { s1.casc with
      present := s1.casc.present.filter (· ≠ d), awaiting := s1.casc.awaiting.filter (· ≠ d), seen := s1.casc.seen.filter (·.1 / 16 ≠ d)
      parts := s1.casc.parts.filter (·.1.1 ≠ d) } }
    let s3 := if s.casc.pith then plainRecord (failAway s2 d) 6 stContained 1 (ps.headD 0) 0 [d] else s2
    if inMembers s d then
      .next (((s3.jobs.filter (·.casc)).map (·.id)).foldl (fun s j => failJob s j stFaultFatal) s3)
    else .next s3

/-- DEVICE_JOIN (R422): the Pithead stages the device, so that a MARK is due, and marks it present. -/
def execDeviceJoin (d : Nat) (s : State) : Outcome :=
  if d > 63 ∨ s.casc.present.contains d ∨ !deviceReady s then .next s
  else
    let s1 := holdFlows { s with casc := { s.casc with
      present := s.casc.present ++ [d], due := if s.casc.pith then s.casc.due ++ [.mark] else s.casc.due } }
    .next (if s.casc.pith then stageDevice s1 d else s1)

/-! ### The Shaft bus (R411 to R415, 11 R293) -/

/-- Precedence of R413. -/
def cmdRank (c : ShCmd) : Nat :=
  match c with
  | .reset => 1 | .halt => 2 | .throttle => 3 | .freeze => 4 | .barrier => 5 | .resume => 6 | .mark => 7

/-- The command is sampled: a Member samples what the Pithead drives, the Pithead drives the first due in table order. -/
def sampled (s : State) (c : ShCmd) : Bool :=
  s.module = .on && (!s.casc.pith || (s.casc.due.contains c && s.casc.due.all fun d => decide (cmdRank c ≤ cmdRank d)))

/-- A command has been driven. -/
def driven (s : State) (c : ShCmd) (acking : Bool) : State :=
  { s with casc := { s.casc with due := s.casc.due.filter (· ≠ c), acking := s.casc.acking || acking } }

/-- A command becomes due. -/
def makeDue (s : State) (c : ShCmd) : State :=
  if s.casc.due.contains c then s else { s with casc := { s.casc with due := s.casc.due ++ [c] } }

/-- A cascade job computes, or has failed here and still waits for its halt. -/
def cascadeComputes (s : State) : Bool :=
  (match compJob s with | some j => j.casc | none => false) || !s.casc.ackTickets.isEmpty || s.casc.shflt

/-- SHFLT_ASSERTED (R415): FREEZE-LOG becomes due; every device signals vector 1,021. -/
def execShfltAsserted (s : State) : Outcome :=
  if s.casc.shfltSeen ∨ s.module ≠ .on then .next s
  else
    let s1 := signalBoth { s with casc := { s.casc with shfltSeen := true } } 1021
    .next (if s.casc.pith then makeDue s1 .freeze else s1)

/-- SHFLT_RELEASED (11 R293, R415): no device drives the line. -/
def execShfltReleased (s : State) : Outcome :=
  if s.casc.shflt then .next s else .next { s with casc := { s.casc with shfltSeen := false } }

/-- FREEZE_LOG (R413, R415, 18 R445): a contained record, then the newest 1,024 records are kept until they have been read. On the
Pithead HALT becomes due after it when a cascade job computes. -/
def execFreezeLog (s : State) : Outcome :=
  if !sampled s .freeze then .next s
  else
    let s1 := plainRecord (driven s .freeze true) 0x0B stContained 1 4 0 []
    let keep := s1.errs.ring.take 1024
    let s2 := if s1.errs.unread.isEmpty then { s1 with errs := { s1.errs with frozen := keep, unread := keep.map (·.seq) } } else s1
    .next (if s.casc.pith && s.casc.shfltSeen && cascadeComputes s then makeDue s2 .halt else s2)

/-- SHCMD_HALT (R413, R415): the computing cascade job's sections stop and the job fails; SHFLT_N goes with the halt's end. -/
def execShcmdHalt (s : State) : Outcome :=
  if !sampled s .halt then .next s
  else
    let s1 := match compJob s with
      | some j => if j.casc then failJob s j.id stFaultFatal else s
      | none => s
    let s2 := driven s1 .halt true
    .next { s2 with casc := { s2.casc with shflt := s2.errs.fatal || !s2.resets.isEmpty } }

/-- SHBAR_RELEASED (11 R292, R293): the Pithead samples a participating line high, this device having released its own output. -/
def execShbarReleased (line : Nat) (s : State) : Outcome :=
  if line > 3 then .fault .noUnit
  else
    let b := barrierAt s (64 + line)
    if !s.casc.pith ∨ s.casc.shfltSeen ∨ s.module ≠ .on ∨ !shbarOut s line b then .next s
    else .next (makeDue { s with casc := { s.casc with lines := s.casc.lines ||| BitVec.ofNat 4 (2 ^ line) } } .barrier)

/-- SHCMD_BARRIER_RELEASE (R413, 11 R293): the lines sampled high; on the Pithead they are those it has sampled. -/
def execShcmdBarrierRelease (lines : BitVec 4) (s : State) : Outcome :=
  if !sampled s .barrier ∨ (s.casc.pith ∧ (s.casc.shfltSeen ∨ lines ≠ s.casc.lines)) then .next s
  else
    let s1 := driven s .barrier false
    let s2 := (List.range 4).foldl (fun a k => if bitAt lines k && barParticipates a k then completePhase a (64 + k) else a) s1
    .next { s2 with casc := { s2.casc with lines := 0 } }

/-- SHCMD_MARK (R418): a staged count is loaded. -/
def execShcmdMark (s : State) : Outcome :=
  if !sampled s .mark then .next s
  else
    let s1 := driven s .mark false
    match s1.casc.staged with
    | some v => .next (readySignal { s1 with casc := { s1.casc with count := v, staged := none } } (deviceReady s))
    | none => .next s1

/-- SHACK_RELEASED (R414): the replies and events that waited are written. A RESET replies OK, a failed job's command
FAULT_FATAL. -/
def execShackReleased (s : State) : Outcome :=
  if !s.casc.acking ∨ s.resets.any (fun r => r.kind = 0) then .next s
  else
    let s1 := { s with casc := { s.casc with acking := false, ackTickets := [], ackEvents := [] } }
    let s2 := s.casc.ackTickets.foldl (fun a k => match packetN a k with
      | some x => if pOpcode x = 0x0010 then replyOk a k 0 0 else refuse a k stFaultFatal 0
      | none => a) s1
    .next (s.casc.ackEvents.foldl (fun a e => postEntry a e.1 e.2.1 e.2.2) s2)

/-! ### Shaft time (R416 to R419) -/

/-- SHAFT_TICK (R416, R417): on a Pithead with a reference in force a tick is one that is owed. Every 600,000,000 ticks an INTERVAL
notice goes to the Assay die (21 R484). -/
def execShaftTick (s : State) : Outcome :=
  let c := s.casc
  if c.lost ∨ s.module ≠ .on ∨ (c.pith ∧ (c.stopped ∨ (c.force ≠ 0 ∧ c.owed = 0))) then .next s
  else
    let s1 := { s with casc := { c with count := c.count + 1, owed := if c.pith && c.force ≠ 0 then c.owed - 1 else c.owed } }
    .next (if s1.casc.count.toNat % 600000000 = 0 then notify s1 (.interval s1.casc.count.toNat) else s1)

/-- The record of more than 16 ticks owed, at most once per second (R417). -/
def owedRecord (s : State) : State :=
  if decide (s.casc.owed ≤ 16) || (match s.casc.owedRec with | some t => decide (s.clock < t + 3600000000) | none => false) then s
  else plainRecord { s with casc := { s.casc with owedRec := some s.clock } } 0x0B stContained 1 4 0 [s.casc.owed]

/-- SHAFT_REF_EDGE (R417): `interval` is the time since the edge before. -/
def execShaftRefEdge (interval : Nat) (s : State) : Outcome :=
  let c := s.casc
  if !c.pith ∨ c.ratio = 0 ∨ s.module ≠ .on ∨ !inCascade s then .next s
  else if c.stopped ∧ c.refSkip = 0 then .next { s with casc := { c with refSkip := 1 } }
  else
    let s1 := owedRecord s
    let c1 := s1.casc
    match c1.refSkip with
    | 2 => .next { s1 with casc := { c1 with refSkip := 1, owed := c1.owed + c1.force, refInterval := none } }
    | _ => .next { s1 with casc := { c1 with
        refSkip := 0, force := c1.ratio, stopped := false, owed := c1.owed + c1.ratio, refInterval := some interval } }

/-- SHAFT_REF_TIMEOUT (R417). -/
def execShaftRefTimeout (s : State) : Outcome :=
  let c := s.casc
  if !c.pith ∨ c.force = 0 ∨ c.stopped ∨ c.refInterval.isNone then .next s
  else .next (plainRecord { s with casc := { c with stopped := true, refSkip := 0 } } 0x0B stContained 1 4 0 [])

/-- SHCLK_LOSS (R419): as a job-fatal error of the computing cascade job, then a contained record; READY goes, the count holds. -/
def execShclkLoss (s : State) : Outcome :=
  if s.casc.pith ∨ s.casc.lost ∨ s.module ≠ .on then .next s
  else
    let s1 := match compJob s with
      | some j => if j.casc then failJob (jobRecord s 0x0B stFaultFatal 2 4 0 []) j.id stFaultFatal else s
      | none => s
    let s2 := plainRecord s1 0x0B stContained 1 4 0 []
    .next (readySignal { s2 with casc := { s2.casc with lost := true } } (deviceReady s))

/-- SHCLK_RETURN (R419): the count goes on; READY returns when the Pithead has staged it again. -/
def execShclkReturn (s : State) : Outcome :=
  if !s.casc.lost then .next s
  else .next (bumpFresh { s with casc := { s.casc with lost := false, staged := some (stagedCount s) } })

end Sys2Proof.Machine
end

