-- ==== Sys2Proof/Machine/Jobs.lean ====
section
/-! DEFINITION. Jobs: opening, closing, queries, pre-emption, switches and restores (11 R286, R287, 14 R336, R341, R342, 15 R354 to
R368). -/

namespace Sys2Proof.Machine

/-! ### JOB_OPEN (R354, 14 R337, R341) -/

/-- The first field of a JOB_OPEN that offends. A cascade job is the Pithead's (R354). -/
def openField (s : State) (x : Packet) : Option Nat :=
  let lc := pfld x 0x10 1 = 0
  if pfld x 0x10 1 > 1 then some 0x10
  else if pfld x 0x11 1 > 3 then some 0x11
  else if pfld x 0x12 1 > 1 then some 0x12
  else if pfld x 0x13 1 > 1 ∨ (pfld x 0x13 1 = 1 ∧ !s.casc.pith) then some 0x13
  else if pfld x 0x15 1 > 15 then some 0x15
  else if pfld x 0x16 1 > 1 ∨ (lc ∧ pfld x 0x16 1 ≠ 0) then some 0x16
  else none

/-- The next job ID: ascending from 1, wrapping after 65,535, IDs in use skipped (R354). -/
def nextJob (s : State) : Nat :=
  ((List.range 65).map fun i => (s.lastJob + i) % 65535 + 1).find? (fun j => (jobOf s j).isNone) |>.getD 1

/-- The save area in each Level (14 R341). -/
def saveArea (s : State) (tier : Nat) : Option (List Nat) :=
  let as := (List.range 4).filterMap fun n => highestFree s tier n (areaGran * granule)
  if as.length = 4 then some as else none

/-- JOB_OPEN (R354, 14 R337, R341, 20 R478). -/
def execJobOpen (k : Nat) (s : State) : Outcome :=
  withCmd s k 0x0200 fun x =>
    let lc := decide (pfld x 0x10 1 = 0)
    match openField s x with
    | some o => .next (badField s k o)
    | none =>
      if s.jobs.length ≥ 64 ∨ (!lc ∧ (freeSlot s).isNone) then .next (refuse s k stJobBusy 0)
      else if !lc ∧ s.sec.rngWait then .next s
      else match (if lc then some [] else saveArea s (pfld x 0x16 1)) with
        | none => .next (refuse s k stBadParam noField)
        | some area =>
          let j : Job := {
            id := nextJob s, port := x.port, lc := lc, split := pfld x 0x11 1, adopt := pfld x 0x12 1 = 1, casc := pfld x 0x13 1 = 1,
            client := pfld x 0x14 1, evcq := pfld x 0x15 1, tier := pfld x 0x16 1, seed := BitVec.ofNat 64 (pfld x 0x18 8),
            key := if lc then none else freeSlot s, state := .opened, area := area, saved := none, wepoch := 0, enq := none,
            pre := none, qwait := 0, preempts := 0, ptime := 0, energy := 0, fail := 0, preBy := 0, doomed := false }
          let s1 := takeKey (early s x) j.key
          .next (replyOk (tellCascade { s1 with jobs := s1.jobs ++ [j], lastJob := j.id } j 0 x.bytes) k j.id 0)

/-! ### Closing a job (R365, 11 R286, 14 R323, R336) -/

/-- Tallies that are not at rest: virtual IDs whose tally is not zero or has a waiter, `waits` being those of waiters that wait to be
registered again (R365). -/
def unbalanced (map : Arr W64) (levels : List LevelUnits) (waits : List Nat) : List Nat :=
  (map.filter fun e => bitAt e.2 14 &&
    (let y := arrGet (levels.getD (fld e.2 13 12) levelReset).tally (fld e.2 11 0) tally0
     decide (y.value ≠ 0) || !y.waiters.isEmpty || waits.contains e.1)).map (·.1)

/-- Virtual IDs of a switched-out job's waiters: TWAIT heads of its saved tiles, and its TALLY_WAITs (11 R286, R287). -/
def savedWaits (s : State) (j : Nat) (v : Saved) : List Nat :=
  (v.tiles.flatMap fun e => (List.range 5).filterMap fun q => match headOf e.2 q with
    | some h => if h.sent && opc h.word = 0x31 then some (fld h.word 43 32) else none
    | none => none) ++
  (s.out.filter fun x => pJob x = j && pOpcode x = 0x0402 && x.sent).map fun x => pfld x 0x10 2

/-- Disable the queues that lie in a job's regions: ERR, one contained record each (14 R323). -/
def unbindQueues (s : State) (j : Nat) : State :=
  let inRegion := fun (s : State) (loc : Bool) (b : W64) => loc && s.regions.any fun r =>
    r.job = j && decide (r.base ≤ b.toNat) && decide (b.toNat < r.base + r.gran * granule)
  (List.range 34).foldl (fun s i =>
    let p := i / 17
    let q := i % 17
    let x := sqN (portN s p) q
    let c := cqN (portN s p) q
    let s1 := if bitAt x.cfg 17 && inRegion s (bitAt x.cfg 12) x.base then
        queueRecord (modSq s p q fun y => { y with cfg := setFld y.cfg 17 17 0, tail := y.head, err := true }) p q false else s
    if bitAt c.cfg 23 && inRegion s (bitAt c.cfg 12) c.base then
      queueRecord (modCq s1 p q fun y => { y with cfg := setFld y.cfg 23 23 0, held := [], err := true }) p q true else s1) s

/-- What an abort closes has its replies discarded (R370). -/
def dropReplies (s : State) (j : Nat) : State :=
  { s with out := s.out.map fun x => if pJob x = j then { x with drop := true } else x }

/-- The job's other outstanding commands complete: TALLY_WAIT with TALLY_UNBALANCED, the others with NO_JOB (14 R336). -/
def finishCommands (s : State) (j k : Nat) : State :=
  ((s.out.filter fun x => pJob x = j && x.ticket ≠ k && !x.away).map fun x => (x.ticket, pOpcode x)).foldl
    (fun s x => refuse s x.1 (if x.2 = 0x0402 then stTallyUnbalanced else stNoJob) 0) s

/-- The scratchpads of Level n lose what they hold (19 R449: powered off; R451: zeroed). -/
def dropPads (s : State) (n : Nat) : State :=
  { s with mem := s.mem.filter fun c => !(isPad c.1 && levelOf ((c.1 - 0x080000000000) / 0x200000) = n) }

/-- Close a job (R365, 14 R336): its sections stop, its commands complete, its tallies are checked, the JOB reset follows when it
computes, its regions, save area and key slot go. The tallies out of balance are answered. -/
def closeJob (s : State) (j : Job) (k : Nat) : State × List Nat :=
  let computes := decide (s.comp = some j.id)
  let failed := decide (j.state = .failed)
  let s0 := { s with load := match s.load with | some l => if l.img.job = j.id then none else some l | none => none }
  let ts := (s0.launches.filter fun l => l.job = j.id && l.stage = .running).flatMap fun l => l.started.map (substT s0)
  let sa := if computes then settleAt s0 ts else s0
  let still := decide (sa.comp = some j.id) && computes
  let s1 := if still then stopTiles sa ts else sa
  let bad := if still then unbalanced s1.tmap s1.levels []
    else match j.saved with
      | some v => unbalanced v.tmap v.levels (savedWaits s1 j.id v)
      | none => []
  let s2 := finishCommands (releaseJobLeave { s1 with launches := s1.launches.filter (·.job ≠ j.id) } j.id) j.id k
  let s3 := if still then jobReset { s2 with comp := none } j.id
    else { s2 with images := s2.images.filter (·.job ≠ j.id), replays := s2.replays.filter fun r => s2.launches.any (·.ticket = r.ticket) }
  let s4 := unbindQueues s3 j.id
  let s5 := dropKey ((s4.regions.filter (·.job = j.id)).foldl destroyRegion s4) (if j.lc then none else j.key)
  let s6 := if failed then s5 else notify (modClient s5 j.port j.client fun c => { c with completed := c.completed + 1 }) (.close j.id (shaftCount s5))
  let s7 := withdrawDecision (tellCascade { s6 with
    jobs := s6.jobs.filter (·.id ≠ j.id), lcq := s6.lcq.filter (· ≠ j.id), beq := s6.beq.filter (· ≠ j.id) } j 5 [])
  let s8 := if s7.jobs.isEmpty then s7.s2.foldl dropPads s7 else s7
  (if still then passDevice s8 else passIfFree s8, bad.eraseDups)

/-- The switch or restore of the job that a close must wait for (R364). -/
def switchOf (s : State) (j : Nat) : Bool := match s.sw with | some w => w.job = j && w.phase ≠ .wait | none => false

/-- DETAIL of the queue that carries the JOB_CLOSE or receives its reply, when it lies in a region of the job (14 R323). -/
def carryingQueue (s : State) (x : Packet) (j : Nat) : Option Nat :=
  let pt := portN s x.port
  let lies := fun (b : W64) => s.regions.any fun r => r.job = j && decide (r.base ≤ b.toNat) && decide (b.toNat < r.base + r.gran * granule)
  let q := sqN pt x.sq
  let c := cqN pt (replyCq s x)
  if x.sub.isNone ∧ bitAt q.cfg 17 ∧ bitAt q.cfg 12 ∧ lies q.base then some (queueLoc x.sq false)
  else if x.sub.isNone ∧ bitAt c.cfg 23 ∧ bitAt c.cfg 12 ∧ lies c.base then some (queueLoc (replyCq s x) true)
  else none

/-- JOB_CLOSE (R364, R365, 11 R286, 14 R323, R336). -/
def execJobClose (k : Nat) (s : State) : Outcome :=
  withJob s k 0x0201 fun x j =>
    match carryingQueue s x j.id with
    | some d => .next (refuse s k stJobBusy d)
    | none =>
      let s1 := modPacket (early s x) k fun y => { y with sent := true }
      if switchOf s j.id then .next s1
      else
        let r := closeJob s1 j k
        match r.2 with
        | [] => .next (replyOk r.1 k 0 0)
        | v :: _ => .next (complete r.1 k stTallyUnbalanced 0 v r.2.length)

/-! ### JOB_PREEMPT, JOB_QUERY -/

/-- JOB_PREEMPT (R363): a forced switch is decided; the reply follows the hand-over. One that finds a switch of the job decided or begun
takes part in it (log 64). -/
def execJobPreempt (k : Nat) (s : State) : Outcome :=
  withJob s k 0x0202 fun x j =>
    if j.lc then .next (badField s k 0x0A)
    else if s.comp ≠ some j.id then .next (replyOk (early s x) k 0 0)
    else if x.sent then .next s
    else
      let s1 := modPacket (early s x) k fun y => { y with sent := true }
      match s.sw with
      | some w =>
        .next { s1 with sw := some { w with forced := w.forced || w.phase = .wait, ticket := w.ticket <|> some k } }
      | none =>
        let s2 := tellSwitch (modJob s1 j.id fun y => { y with pre := some (shaftCount s) }) j true
        .next (notify { s2 with sw := some { job := j.id, phase := .wait, forced := true, ticket := some k, cause := j.id, start := s.clock } }
          (.switch j.id (shaftCount s)))

/-- Codes of the job states (R355). -/
def stateCode (x : JobState) : Nat :=
  match x with
  | .opened => 0 | .queued => 1 | .computing => 2 | .preempted => 3 | .failed => 4

/-- The job record (14 R342), the waits still running included. -/
def jobRecordBytes (s : State) (j : Job) : List Byte :=
  let now := shaftCount s
  let w := j.qwait + (match j.enq with | some e => if j.state = .queued then now - e else 0 | none => 0)
  let p := j.ptime + (match j.pre with | some e => if j.state = .preempted then now - e else 0 | none => 0)
  leBytes 2 j.id ++ leBytes 1 (stateCode j.state) ++ leBytes 1 (b2n (!j.lc)) ++ leBytes 1 j.port ++ leBytes 1 j.client ++
    leBytes 1 (b2n j.adopt) ++ leBytes 1 j.split ++ leBytes 8 w ++ leBytes 8 j.preempts ++ leBytes 8 p ++ leBytes 8 j.energy ++
    leBytes 2 (s.regions.filter (·.job = j.id)).length ++ leBytes 1 (j.key.getD 0) ++ List.replicate 5 0 ++ leBytes 2 j.fail ++
    List.replicate 14 0

/-- The client record (14 R342). -/
def clientBytes (s : State) (p c : Nat) : List Byte :=
  let a := arrGet (portN s p).clients c { completed := 0, qwait := 0, preempts := 0, ptime := 0, energy := 0 }
  leBytes 1 c ++ leBytes 1 p ++ List.replicate 6 0 ++ leBytes 8 a.completed ++ leBytes 8 a.qwait ++ leBytes 8 a.preempts ++
    leBytes 8 a.ptime ++ leBytes 8 a.energy ++ List.replicate 16 0

/-- JOB_QUERY (14 R342). -/
def execJobQuery (k : Nat) (s : State) : Outcome :=
  withCmd s k 0x0203 fun x =>
    let kind := pfld x 0x18 1
    if kind > 1 then .next (badField s k 0x18)
    else if kind = 1 then .next (replyOk (hostWrite (early s x) x.port (pfld x 0x10 8) (clientBytes s x.port (pfld x 0x19 1))) k 0 0)
    else match jobOf s (pJob x) with
      | none => .next (refuse s k stNoJob 0)
      | some j => .next (replyOk (hostWrite (early s x) x.port (pfld x 0x10 8) (jobRecordBytes s j)) k 0 0)

/-! ### Switching out (R358 to R361, 11 R287, 10 R275) -/

/-- A SECTION_LOAD of the job is in progress (R364). -/
def loadOf (s : State) (j : Nat) : Bool := match s.load with | some l => l.img.job = j | none => false

/-- The switch that waits, when its job still computes and neither a load nor a recovery holds it. -/
def waitingSwitch (s : State) : Option Switch :=
  match s.sw with
  | some w => if w.phase = .wait && s.comp = some w.job && !loadOf s w.job && s.errs.recov.isNone then some w else none
  | none => none

/-- FORCED_SWITCH (R359 steps 1 and 2): inputs stop, the tiles drain. -/
def execForcedSwitch (s : State) : Outcome :=
  match waitingSwitch s with
  | some w => if w.forced then .next { s with sw := some { w with phase := .drain } } else .next s
  | none => .next s

/-- PREEMPT_WAIT_TIMEOUT (R358): a section still runs W after the decision. -/
def execPreemptWaitTimeout (s : State) : Outcome :=
  match waitingSwitch s with
  | some w =>
    if w.forced ∨ (runningOf s w.job).isEmpty ∨ s.clock < w.start + feature s 2 * 3600 then .next s
    else .next { s with sw := some { w with phase := .drain, forced := true } }
  | none => .next s

/-- Every tile is FINISHED, or has each unit queue empty or waiting at its head (R359). -/
def drained (s : State) : Bool :=
  s.tiles.all fun e => e.2.sq.st ≠ .running && e.2.sq.st ≠ .halted ||
    (List.range 5).all fun k => (headOf e.2 k).isNone || (headCause s e.1 e.2 k).isSome

/-- Step 3 of R359: every tile stops at instruction boundaries (03 R86, 04 R118, 06 R166), the Level units apply what is in flight (11
R287), messages in the mesh are delivered (10 R275). -/
def stopForScan (s : State) (w : Switch) : State :=
  let s1 := deliverAll (settleAt s (s.tiles.map (·.1)))
  if s1.comp = some w.job then { s1 with sw := some { w with phase := .scan } } else s1

/-- SWITCH_DRAIN_END (R359). -/
def execSwitchDrainEnd (s : State) : Outcome :=
  match s.sw with
  | some w => if w.phase = .drain && drained s then .next (stopForScan s w) else .next s
  | none => .next s

/-- SWITCH_DRAIN_TIMEOUT (R359): the tiles stop at instruction boundaries. -/
def execSwitchDrainTimeout (s : State) : Outcome :=
  match s.sw with
  | some w => if w.phase = .drain then .next (stopForScan s w) else .next s
  | none => .next s

/-- BOUNDARY_SWITCH (R358, R359): no section of the job runs. -/
def execBoundarySwitch (s : State) : Outcome :=
  match waitingSwitch s with
  | some w => if !w.forced && (runningOf s w.job).isEmpty then .next (stopForScan s w) else .next s
  | none => .next s

/-- Launches of a job that have not started wait again; leave held by its sections ends (R361), and its waiting requests are withdrawn (16
R384). -/
def suspendLaunches (s : State) (j : Nat) : State :=
  let s1 := ((s.launches.filter fun l => l.job = j).map (·.ticket)).foldl (fun s k => releaseLeave s (.launch k)) s
  let s2 := ((s.out.filter fun x => pJob x = j && !x.away).map (·.ticket)).foldl
    (fun s k => if hasAsked s (.command k) then releaseLeave s (.command k) else s) s1
  { s2 with launches := s2.launches.map fun l => if l.job = j && l.stage ≠ .running then { l with stage := .waiting } else l }

/-- The scan or the restore meets an uncorrectable error: the save area lies over lost channels (R364, 18 R429). -/
def areaLost (s : State) (j : Job) : Bool :=
  j.area.any fun b =>
    if isLpddr b then s.retiredPkg.any fun n => n / 6 = memLevel b
    else isHbm b && (s.retiredStack.any (fun n => n / 4 = memLevel b) || s.retiredPc.any fun c => c.1 / 4 = memLevel b)

/-- The first line of the save area, which such an error is recorded at. -/
def areaFatal (s : State) (j : Job) : State := memFatal s (j.area.headD 0) false

/-- Aborts that waited for the end of a switch (R364, R370). -/
def closeDoomed (s : State) : State :=
  (s.jobs.filter (·.doomed)).foldl (fun a j => if switchOf a j.id then a else match jobOf a j.id with
    | some x => (closeJob a x a.ticket).1
    | none => a) s

/-- JOB_PREEMPTs of the job that await its hand-over. -/
def preempts (s : State) (j : Nat) : List Nat := (s.out.filter fun x => pJob x = j && x.sent && pOpcode x = 0x0202).map (·.ticket)

/-- The job's state lies in its save area (R359 step 5, R361, R363, R368). -/
def handOver (s : State) (w : Switch) (j : Job) : State :=
  let v := scanState s j.wepoch
  let s1 := suspendLaunches v.1 w.job
  let s2 := modJob s1 w.job fun j => { j with state := .preempted, saved := some v.2, preempts := j.preempts + 1, preBy := w.cause }
  let s3 := modClient s2 j.port j.client fun c => { c with preempts := c.preempts + 1 }
  let s4 := clearDevice { s3 with beq := if w.cause = w.job then s3.beq ++ [w.job] else w.job :: s3.beq }
  (preempts s4 w.job).foldl (fun a k => replyOk a k ((s.clock - w.start) * 10 / 36) 0) s4

/-- A Member tells the Pithead that it has completed a cascade job's switch (R354). -/
def tellDone (s : State) (j : Job) : State :=
  if decidedElsewhere s j then
    sendResp s { dev := 0, src := deviceId s, what := .done, last := true, port := 0, code := 0, num := j.id } []
  else s

/-- SWITCH_SCAN_END (R354, R357, R359, R364): the switch of a cascade job ends when the last device has completed it. -/
def execSwitchScanEnd (s : State) : Outcome :=
  match s.sw with
  | some w =>
    if w.phase ≠ .scan then .next s
    else match jobOf s w.job with
      | none => .next (passDevice s)
      | some j =>
        if j.casc && s.casc.pith && !s.casc.awaiting.isEmpty then .next s
        else if areaLost s j then .next (areaFatal s j)
        else .next (closeDoomed (passDevice (tellDone (handOver s w j) j)))
  | none => .next s

/-! ### Restoring (R362, 12 R320) -/

/-- A restore begins. -/
def beginRestore (s : State) (j : Job) : State :=
  notify (tellCascade { s with sw := some { job := j.id, phase := .restore, forced := false, ticket := none, cause := j.preBy, start := s.clock } } j 4 [])
    (.restore j.preBy j.id (shaftCount s))

/-- JOB_RESTORE (R362): the device is free and a pre-empted job heads the BE queue. -/
def execJobRestore (s : State) : Outcome :=
  if s.comp.isSome ∨ s.sw.isSome ∨ !s.lcq.isEmpty ∨ s.module ≠ .on ∨ s.errs.fatal then .next s
  else match s.beq.head?.bind (jobOf s) with
    | some j => if j.state ≠ .preempted ∨ decidedElsewhere s j then .next s else .next (beginRestore s j)
    | none => .next s

/-- The resumption of a running section asks leave, or is refused where that can never be granted (16 R376, R380): the launch ends with
LEAVE_DENIED, and its tiles stop. -/
def resumeLaunch (lc : Bool) (s : State) (l : Launch) : State :=
  let draw := match l.img with | some i => i.draw | none => []
  if neverAdmissible s.power draw then
    let s1 := (l.started.map (substT s)).foldl discardTile s
    refuse { s1 with launches := s1.launches.filter (·.ticket ≠ l.ticket), replays := s1.replays.filter (·.ticket ≠ l.ticket) }
      l.ticket stLeaveDenied (drawSum draw)
  else askLeave s (.launch l.ticket) lc draw

/-- The job's TALLY_WAITs register again (11 R287). -/
def waitAgain (s : State) (j : Nat) : State :=
  (s.out.filter fun x => pJob x = j && pOpcode x = 0x0402 && x.sent && !x.away).foldl
    (fun a x => pushCtl a (.tallyHost x.ticket 2 (pfld x 0x10 2) (pfld x 0x14 3))) s

/-- The job is back, and computes (R362, R368). -/
def resumed (s : State) (j : Job) (v : Saved) : State :=
  let d := shaftCount s - j.pre.getD (shaftCount s)
  let s1 := loadSaved { s with sw := none, comp := some j.id, beq := s.beq.filter (· ≠ j.id) } j.id v
  let s2 := modJob s1 j.id fun y => { y with state := .computing, saved := none, pre := none, ptime := y.ptime + d }
  let s3 := notify (modClient s2 j.port j.client fun c => { c with ptime := c.ptime + d }) (ownNotice s2 j)
  let s4 := waitAgain ((runningOf s3 j.id).foldl (resumeLaunch j.lc) s3) j.id
  s4.heldIn.foldl (fun s n => hubDeliver s n.msg) { s4 with heldIn := [] }

/-- RESTORE_END (R362, R368, 16 R376, R378). -/
def execRestoreEnd (s : State) : Outcome :=
  match s.sw with
  | some w =>
    if w.phase ≠ .restore then .next s
    else match jobOf s w.job with
      | none => .next (passDevice s)
      | some j =>
        if areaLost s j then .next (areaFatal s j)
        else
          let s1 := closeDoomed (resumed s j (j.saved.getD (Config.savedState s.fresh)))
          .next (match s1.lcq.head? with
            | some c => if s1.comp = some j.id && !decidedElsewhere s1 j then decideSwitch s1 j.id c else s1
            | none => s1)
  | none => .next s

end Sys2Proof.Machine
end

