-- ==== Sys2Proof/Machine/Arrivals.lean ====
section
/-! DEFINITION. What arrives on a Jorzin port: frames, the messages, packets, replies, events and decisions they hold, and the control
frames (17 R397 to R404, 14 R329, R333, 15 R354, 12 R317). -/

namespace Sys2Proof.Machine

/-! ### Tile messages (R400) -/

/-- The message of a request frame (10 R246). -/
def parseMsg (b : List Byte) : Msg :=
  let h := leNat (slice b 0 32)
  { ddev := nbits h 5 0, dtile := nbits h 17 6, dq := nbits h 21 18, tag := nbits h 37 22, kind := nbits h 45 44, rank := nbits h 57 46,
    sdev := nbits h 63 58, stile := nbits h 75 64, epoch := nbits h 83 76, dgen := nbits h 91 84, payload := b.drop 32 }

/-! ### Forwarded packets, replies and events (14 R329, R333) -/

/-- A Member's reply to a forwarded packet (R329): written to the CQ of the originating SQ with the Member's shaft count. -/
def memberReply (s : State) (h : RespHead) (b : List Byte) : State :=
  match s.out.find? fun x => x.away && x.ticket = h.num && pfld x 8 1 = h.src with
  | none => s
  | some x =>
    let st := leAt b 4 2
    let r : Reply := { replyOf x st (leAt b 8 4) (leAt b 0x18 4) (leAt b 0x1C 4) with job := leAt b 0xE 2, shaft := some (leAt b 0x10 8) }
    let s1 := if st = stAccepted then s else dropPacket s x.ticket
    sendForwards (if x.drop ∨ (pQuiet x ∧ st = stOk) then s1 else postEntry s1 x.port (replyCq s x) r)

/-- An event of a job on a Member (R333, 17 R415): the Pithead posts it to the job's event CQ. -/
def memberEvent (s : State) (h : RespHead) (b : List Byte) : State :=
  postEntry s h.port (if h.code < 17 then h.code else 0) {
    htag := 0xFFFFFFFF, status := leAt b 4 2, sq := 0, async := true, detail := leAt b 8 4, sqhead := 0, job := leAt b 0xE 2,
    r0 := leAt b 0x18 4, r1 := leAt b 0x1C 4, shaft := some (leAt b 0x10 8) }

/-- A packet forwarded by the Pithead (R329), whole: checked and taken as one from a queue of the port that the Pithead's stands for. -/
def forwardedPacket (s : State) (h : RespHead) (b : List Byte) : State :=
  takePacket { s with ticket := s.ticket + 1 } {
    ticket := s.ticket, port := 2 + h.port, sq := 0, sqhead := h.num, bytes := b, sent := false, count := 0, drop := false, sub := none,
    res := none, away := false, fast := false }

/-- A piece of a packet: kept until the last has come. -/
def packetPiece (s : State) (h : RespHead) (b : List Byte) : State :=
  let k := (h.src, h.num)
  let all := ((s.casc.parts.find? (·.1 = k)).map (·.2)).getD [] ++ b
  let s1 := { s with casc := { s.casc with parts := s.casc.parts.filter (·.1 ≠ k) } }
  if h.last then forwardedPacket s1 h all else { s1 with casc := { s1.casc with parts := s1.casc.parts ++ [(k, all)] } }

/-! ### Decisions about a cascade job (15 R354) -/

/-- A cascade job is opened on a Member by the Pithead's packet, with the Pithead's number; its save area and key are the Member's. -/
def openMember (s : State) (h : RespHead) (b : List Byte) : State :=
  if (jobOf s h.num).isSome then s
  else
    let lc := decide (leAt b 0x10 1 = 0)
    let slot := if lc then none else freeSlot s
    let j : Job := {
      id := h.num, port := 2 + h.port, lc := lc, split := leAt b 0x11 1, adopt := leAt b 0x12 1 = 1, casc := true,
      client := leAt b 0x14 1, evcq := leAt b 0x15 1, tier := leAt b 0x16 1, seed := BitVec.ofNat 64 (leAt b 0x18 8),
      key := slot, state := .opened, area := if lc then [] else (saveArea s (leAt b 0x16 1)).getD [], saved := none, wepoch := 0,
      enq := none, pre := none, qwait := 0, preempts := 0, ptime := 0, energy := 0, fail := 0, preBy := 0, doomed := false }
    let s1 := takeKey s slot
    { s1 with jobs := s1.jobs ++ [j] }

/-- The cascade job is given this device too: at once when no job holds it, else as the head of its class queue (log 65). -/
def giveMember (s : State) (j : Job) : State :=
  if s.comp.isNone && s.sw.isNone then giveDevice s j
  else if j.lc then { s with lcq := j.id :: s.lcq.filter (· ≠ j.id) }
  else { s with beq := j.id :: s.beq.filter (· ≠ j.id) }

/-- This device switches the cascade job as the Pithead has decided. -/
def switchMember (s : State) (j : Job) (forced : Bool) : State :=
  if s.comp ≠ some j.id then tellDone s j
  else
    notify { modJob s j.id (fun y => { y with pre := some (shaftCount s) }) with
      sw := some { job := j.id, phase := .wait, forced := forced, ticket := none, cause := j.id, start := s.clock } } (.switch j.id (shaftCount s))

/-- A decision arrives; 0 to 6 as tellCascade numbers them. -/
def decisionTaken (s : State) (h : RespHead) (b : List Byte) : State :=
  if h.code = 0 then openMember s h b
  else match jobOf s h.num with
    | none => s
    | some j =>
      match h.code with
      | 1 => if j.state = .computing then s else giveMember s j
      | 2 => switchMember s j true
      | 3 => switchMember s j false
      | 4 => if s.comp.isSome || s.sw.isSome || j.state ≠ .preempted then s else beginRestore s j
      | 5 => if switchOf s j.id then modJob s j.id fun y => { y with doomed := true } else (closeJob s j s.ticket).1
      | 6 => match s.sw with
        | some w => if w.job = j.id && w.phase = .wait then { s with sw := none } else s
        | none => s
      | _ => s

/-- What a response frame that has reached its device holds. -/
def respTaken (s : State) (b : List Byte) : State :=
  let h := respHead (slice b 0 32)
  let rest := b.drop 32
  match h.what with
  | .packet => packetPiece s h rest
  | .reply => memberReply s h rest
  | .event => if s.casc.pith then memberEvent s h rest else s
  | .decision => if s.casc.pith then s else decisionTaken s h rest
  | .done => if s.casc.pith then { s with casc := { s.casc with awaiting := s.casc.awaiting.filter (· ≠ h.src) } } else s

/-! ### Control frames (R402) -/

/-- CASCADE_CONFIG's fields reach a device (R399, 01 R18). -/
def configTaken (s : State) (v : Nat → Nat) : State :=
  holdFlows { s with casc := { s.casc with
    topo := v 0 % 4, domain := BitVec.ofNat 16 (v 1), system := BitVec.ofNat 32 (v 2), members := some (BitVec.ofNat 64 (v 3)) } }

/-- A control frame that has reached its device. The send notice has a layout (10 R247); what any other says is a free value: its kind,
then its values. The arrival of demands and shares (16 R387) is the rows CASCADE_DEMAND and CASCADE_SHARE. -/
def controlTaken (s : State) (b : List Byte) : State :=
  let n := leAt b 0 32
  let v := fun (i : Nat) => Config.frameSays b (i + 1)
  if nbits n 23 18 = 1 then
    (if nbits n 17 6 < 2304 then
      pushCtl s (.notice (deviceId s) (nbits n 17 6) (nbits n 27 24) (nbits n 33 28) (nbits n 45 34) (nbits n 49 46) (nbits n 65 50)) else s)
  else match Config.frameSays b 0 with
    | 3 => if s.casc.pith then s else { s with casc := { s.casc with staged := some (BitVec.ofNat 64 (v 0)) } }
    | 4 => { s with farTab := arrPut s.farTab (v 0 % 64 * 4096 + v 1 % 2304) (BitVec.ofNat 8 (v 2)) false }
    | 5 => if s.casc.pith then s else configTaken s v
    | 7 => notePort s (v 0 % 64) (v 1 % 12) false
    | 8 => notePort s (v 0 % 64) (v 1 % 12) true
    | 9 => if s.casc.pith then noteFarEnd s (v 0 % 64) (v 1 % 12) (v 2 % 1024) else s
    | _ => s

/-! ### Frames (R402 to R405) -/

/-- What an accepted frame holds is acted on; a frame in transit is queued for its next port, and one with no way on is lost. -/
def frameTaken (s : State) (p : Nat) (f : Frame) : State :=
  let here := freeIn s p f.lvc (nflit f)
  if frameDest f ≠ deviceId s then
    match flowPort s (frameDest f) (frameHash f) with
    | some o => queueFrame s o { f with seq := p + 1 }
    | none => if f.lvc = 1 then { here with casc := { here.casc with discarded := here.casc.discarded + 1 } } else here
  else if f.lvc = 1 then (if (parseMsg f.body).dtile < 2304 then inbound here (parseMsg f.body) else here)
  else if f.lvc = 2 then respTaken here f.body
  else controlTaken here f.body

/-- JORZIN_FRAME (R403, R404, R421): accepted in sequence and acknowledged; dropped when it has been accepted before; any other is
discarded, with one nack for the expected sequence. -/
def execJorzinFrame (p : Nat) (f : Frame) (crcOk : Bool) (s : State) : Outcome :=
  withJPort p <|
    let j := jportN s p
    if !j.trained ∨ !j.up ∨ f.ftype > 1 ∨ f.lvc > 2 then .next s
    else
      let nack := fun (s : State) => if (jportN s p).nacked then s
        else linkFrame (modJPort s p fun x => { x with nacked := true }) p 4 (jportN s p).rx
      if !crcOk then .next (nack (modJPort s p fun x => countJ x 4 1))
      else if f.ftype = 0 ∧ !s.casc.ready then .next s
      else if f.seq = j.rx then
        let s1 := modJPort s p fun x => { x with rx := (x.rx + 1) % 4096, nacked := false }
        .next (frameTaken (linkFrame (enterIn s1 p f.lvc (nflit f)) p 3 f.seq) p f)
      else if (j.rx + 4096 - f.seq) % 4096 ≤ 2048 then .next (linkFrame s p 3 ((j.rx + 4095) % 4096))
      else .next (nack s)

end Sys2Proof.Machine
end

