-- ==== Sys2Proof/Machine/AssayOffice.lean ====
section
/-! DEFINITION. The Assay die: samples and accounts, notices, records, calibration, and the meter commands
(21_assay_office). -/

namespace Sys2Proof.Machine

/-! ### Records (R490 to R493) -/

/-- FLAGS of a record (R490, R497). -/
def meterFlags (a : Assay) (lost pfail : Bool) : Nat :=
  b2n (!Config.sealedModule) + 2 * b2n (a.marked && Config.sealedModule) + 4 * b2n lost + 8 * b2n pfail

/-- The extremes of a span as its record gives them: of one that took no sample the spec states none, and they are free values. -/
def spanEnds (a : Assay) (sp : Span) : Span :=
  if sp.vmax < sp.vmin then { sp with vmin := Config.reading a.next 1 % 65536, vmax := Config.reading a.next 2 % 65536 } else sp

/-- A record over a span that ends now, with the IDs last told (R490, 01 R18). -/
def spanRec (a : Assay) (kind : Nat) (sp0 : Span) (energy aux : Nat) : MeterRec :=
  let sp := spanEnds a sp0
  { kind := kind, flags := meterFlags a sp.lost sp.pfail, job := 0, seq := a.next, topen := sp.topen, tclose := a.clock,
    sopen := sp.sopen, sclose := a.shaft, energy := energy, aux := aux, total := a.total / 1000, idle := a.idle / 1000, port := 0,
    client := 0, dev := a.dev, domain := a.domain, system := a.system, hallmark := a.hallmark.toNat, vmin := sp.vmin, vmax := sp.vmax, pmax := sp.pmax,
    nexc := sp.nexc, af := a.af }

/-- Store a record: the ring keeps the newest 262,143 besides the IDENT record (R493). -/
def storeRec (a : Assay) (r : MeterRec) : Assay :=
  let l := a.store ++ [{ r with seq := a.next }]
  { a with store := if l.length > 262143 then l.drop 1 else l, next := a.next + 1 }

/-- A span of no length whose extremes the spec does not state: free values. -/
def openSpan (a : Assay) : Span :=
  { topen := a.clock, sopen := a.shaft, energy := 0, vmin := Config.reading a.next 1 % 65536, vmax := Config.reading a.next 2 % 65536,
    pmax := Config.reading a.next 3 % 65536, nexc := 0, lost := false, pfail := false }

/-- An EVENT record (R491, R492). -/
def eventRec (a : Assay) (code datum : Nat) : Assay := storeRec a (spanRec a 4 (openSpan a) 0 (code + 256 * (datum % 2 ^ 56)))

def newSpan (a : Assay) : Span := { spanReset with topen := a.clock, sopen := a.shaft }

/-! ### Accounts (R485, R486) -/

def newAccount (a : Assay) (j : Nat) : Account :=
  { job := j, port := 0, client := 0, dev := 0, domain := 0, system := 0, uj := 0, swuj := 0, span := newSpan a, owes := [],
    closed := false }

def accountOf (a : Assay) (j : Nat) : Option Account := a.accounts.find? (·.job = j)

def modAccount (a : Assay) (j : Nat) (f : Account → Account) : Assay :=
  let b := if (accountOf a j).isSome then a else { a with accounts := a.accounts ++ [newAccount a j] }
  { b with accounts := b.accounts.map fun x => if x.job = j then f x else x }

/-- The JOB record of an account (R490, R491). -/
def jobRec (a : Assay) (x : Account) : MeterRec :=
  { spanRec a 1 x.span (x.uj / 1000) (x.swuj / 1000) with
    job := x.job, port := x.port, client := x.client, dev := x.dev, domain := x.domain, system := x.system }

/-- The account is complete: its CLOSE has come and no restore is owed (R486). -/
def accountDone (x : Account) : Bool := x.closed && x.owes.isEmpty

/-- The total register equals the idle account plus the sum of every job account, open or closed; no job has two (R485). -/
def balanced (a : Assay) : Bool :=
  decide (a.total = a.idle + (a.accounts.map (·.uj)).sum + a.closedUj) && decide ((a.accounts.map (·.job)).Nodup)

/-- Accounts that are complete close: their JOB records are written, and their energy reaches the job's record and the client
account, an adopted job's the account that moved (R486, 15 R368, R370). -/
def closeAccounts (s : State) : State :=
  let ds := s.assay.accounts.filter accountDone
  ds.foldl (fun s x =>
    let a := storeRec s.assay (jobRec s.assay x)
    let s1 := { s with assay := { a with accounts := a.accounts.filter (·.job ≠ x.job), closedUj := a.closedUj + x.uj }, adopted := s.adopted.filter (·.1 ≠ x.job) }
    let port := ((s.adopted.find? (·.1 = x.job)).map (·.2)).getD x.port
    modClient (modJob s1 x.job fun j => { j with energy := j.energy + x.uj / 1000 }) port x.client fun c =>
      { c with energy := c.energy + x.uj / 1000 }) s

/-! ### Samples (R482, R485, R488, R490) -/

/-- A span takes a sample. -/
def spanSample (sp : Span) (uj mv : Nat) : Span := { sp with energy := sp.energy + uj, vmin := min sp.vmin mv, vmax := max sp.vmax mv }

/-- A span takes a 1 ms mean power. -/
def spanPower (sp : Span) (w : Nat) : Span := { sp with pmax := max sp.pmax w }

def spanBegan (sp : Span) : Span := { sp with nexc := sp.nexc + 1 }

/-- Apply a change to the open job account's span. -/
def onCharged (a : Assay) (f : Span → Span) : Assay :=
  match a.cur with
  | .idle => a
  | .job j => modAccount a j fun x => { x with span := f x.span }
  | .sw j => modAccount a j fun x => { x with span := f x.span }

/-- The sample's energy goes to the total register and to one account (R485). -/
def chargeSample (a : Assay) (uj : Nat) : Assay :=
  let b := { a with total := a.total + uj }
  match a.cur with
  | .idle => { b with idle := b.idle + uj }
  | .job j => modAccount b j fun x => { x with uj := x.uj + uj }
  | .sw j => modAccount b j fun x => { x with uj := x.uj + uj, swuj := x.swuj + uj }

/-- The 1 ms mean power: each thousandth sample completes one. -/
def powerSample (a : Assay) (uj : Nat) : Assay :=
  if a.msN + 1 < 1000 then { a with msN := a.msN + 1, msE := a.msE + uj }
  else
    let w := (a.msE + uj) / 1000
    onCharged { a with msN := 0, msE := 0, ispan := spanPower a.ispan w, exc := a.exc.map fun e => (spanPower e.1 w, e.2) }
      fun sp => spanPower sp w

/-- The die's own excursions (R488): begun by two samples below the warning level, ended by 100 at or above it plus 1.0 V. -/
def excSample (a : Assay) (uj mv : Nat) : Assay :=
  match a.exc with
  | none => if mv < a.warn then { a with exc := some (spanSample (newSpan a) uj mv, 1, 0) } else a
  | some (sp0, below, above) =>
    let sp := spanSample sp0 uj mv
    if below < 2 then
      if mv < a.warn then
        onCharged { a with exc := some (sp, 2, 0), recentExc := true, ispan := spanBegan a.ispan } spanBegan
      else { a with exc := none }
    else
      let n := if a.warn + 100 ≤ mv then above + 1 else 0
      if n < 100 then { a with exc := some (sp, below, n) }
      else
        let b := { a with clock := a.clock + 1 }
        { storeRec b (spanRec b 3 sp (sp.energy / 1000) (b.clock - sp.topen)) with exc := none, clock := a.clock }

/-- ASSAY_SAMPLE: the energy of 1 µs in µJ, and the input voltage in 10 mV units. -/
def execAssaySample (uj mv : Nat) (s : State) : Outcome :=
  let a := s.assay
  if !a.running then .next s
  else
    let b := onCharged (chargeSample a uj) fun sp => spanSample sp uj mv
    let c := excSample { b with ispan := spanSample b.ispan uj mv } uj mv
    let d := powerSample c uj
    .next { s with assay := { d with clock := d.clock + 1 } }

/-! ### Notices (R483, R484) -/

/-- A notice's kind, by its row in R484. -/
def noticeKind (n : Notice) : Nat :=
  match n with
  | .own .. => 0 | .switch .. => 1 | .restore .. => 2 | .free .. => 3 | .close .. => 4 | .interval .. => 5 | .brown .. => 6
  | .read .. => 7 | .beat .. => 8

/-- A notice arrives: the die notes its kind and its shaft count; a lost link is found again (R484, R487). -/
def hear (a : Assay) (n : Notice) (shaft : Nat) : Assay := { a with shaft := shaft, lastKind := noticeKind n, lostLink := false }

/-- The oldest notice on the boundary link, when the die runs and the notice is of the row's kind. -/
def withNotice (s : State) (f : State → Notice → Option State) : Outcome :=
  match s.notices with
  | n :: rest =>
    if s.assay.running then
      match f { s with notices := rest } n with
      | some t => .next t
      | none => .next s
    else .next s
  | [] => .next s

/-- OWN (R485, R486). -/
def execOwn (s : State) : Outcome :=
  withNotice s fun s n =>
    match n with
    | .own j port client dev dom sys sh =>
      let a := hear s.assay n sh
      let b := modAccount a j fun x => { x with port := port, client := client, dev := dev, domain := dom, system := sys }
      some (closeAccounts { s with assay := { b with
        dev := dev, domain := dom, system := sys
        cur := .job j, accounts := b.accounts.map fun x => { x with owes := x.owes.filter (· ≠ j) } } })
    | _ => none

/-- SWITCH (R485, R486): the causing job owes the job that computed its restore. -/
def execSwitch (s : State) : Outcome :=
  withNotice s fun s n =>
    match n with
    | .switch c sh =>
      let a := hear s.assay n sh
      let b := match a.cur with
        | .job j => modAccount a c fun x => { x with owes := if x.owes.contains j then x.owes else x.owes ++ [j] }
        | _ => modAccount a c fun x => x
      some { s with assay := { b with cur := .sw c } }
    | _ => none

/-- RESTORE (R485). -/
def execRestore (s : State) : Outcome :=
  withNotice s fun s n =>
    match n with
    | .restore c _ sh => some { s with assay := { modAccount (hear s.assay n sh) c fun x => x with cur := .sw c } }
    | _ => none

/-- FREE (R485). -/
def execFree (s : State) : Outcome :=
  withNotice s fun s n =>
    match n with
    | .free sh => some { s with assay := { hear s.assay n sh with cur := .idle } }
    | _ => none

/-- CLOSE (R486). -/
def execClose (s : State) : Outcome :=
  withNotice s fun s n =>
    match n with
    | .close j sh =>
      let a := hear s.assay n sh
      some (closeAccounts { s with assay := { a with
        cur := if a.cur = .job j then .idle else a.cur
        accounts := a.accounts.map fun x =>
          { x with owes := x.owes.filter (· ≠ j), closed := x.closed || x.job = j } } })
    | _ => none

/-- INTERVAL (R484, R491). -/
def execInterval (s : State) : Outcome :=
  withNotice s fun s n =>
    match n with
    | .interval sh =>
      let a := hear s.assay n sh
      let b := storeRec a (spanRec a 2 a.ispan (a.ispan.energy / 1000) 0)
      some { s with assay := { b with ispan := newSpan b } }
    | _ => none

/-- BROWN (R488, R492): at the end of a hold that matched no excursion of the die's own, event 0x08. -/
def execBrown (s : State) : Outcome :=
  withNotice s fun s n =>
    match n with
    | .brown start level sh =>
      let a := { hear s.assay n sh with warn := 10 * level }
      some { s with assay :=
        if start then { a with recentExc := match a.exc with | some e => decide (2 ≤ e.2.1) | none => false }
        else { (if a.recentExc then a else eventRec a 8 a.warn) with recentExc := false } }
    | _ => none

/-- Stored records with FIRST ≤ SEQ < FIRST + COUNT, ascending (R494). -/
def recordsFrom (a : Assay) (first count : Nat) : List MeterRec :=
  a.store.filter fun r => decide (first ≤ r.seq) && decide (r.seq < first + count)

/-- READ (R483, R484): the die returns records over the record link. -/
def execRead (first count : Nat) (s : State) : Outcome :=
  let a := s.assay
  let rest := match s.notices with
    | .read f c :: t => if f = first ∧ c = count then t else s.notices
    | l => l
  if !a.running then .next s
  else .next { s with notices := rest, assay := { hear a (.read first count) a.shaft with link := recordsFrom a first count } }

/-- BEAT (R484, R487): the notice waiting first, or the hub's beat itself. -/
def execBeat (s : State) : Outcome :=
  let a := s.assay
  if !a.running then .next s
  else match s.notices with
    | .beat sh :: rest => .next { s with notices := rest, assay := hear a (.beat sh) sh }
    | [] => if s.module = .on then .next { s with assay := hear a (.beat (shaftCount s)) (shaftCount s) } else .next s
    | _ => .next s

/-- ASSAY_LINK_LOST (R487, R492). -/
def execAssayLinkLost (s : State) : Outcome :=
  let a := s.assay
  if !a.running ∨ a.lostLink then .next s
  else
    let b := onCharged a fun sp => { sp with lost := true }
    .next { s with assay := { eventRec { b with cur := .idle } 6 b.lastKind with lostLink := true } }

/-- ASSAY_POWER_LOSS (R482, R490): the open accounts stay in the store; the die stops. -/
def execAssayPowerLoss (s : State) : Outcome :=
  let a := s.assay
  if !a.running then .next s
  else
    let mark := fun (sp : Span) => { sp with pfail := true }
    .next { s with
      notices := []
      assay := { a with
        running := false, ispan := mark a.ispan, exc := a.exc.map fun e => (mark e.1, e.2), link := []
        accounts := a.accounts.map fun x => { x with span := mark x.span } } }

/-- TOPEN of the previous record; of the IDENT record those bytes are of the key (R491). -/
def lastOpen (a : Assay) : Nat := (a.store.getLast?.map (·.topen)).getD (leNat ((List.range 8).map (Config.openByte 0 4)))

/-- ASSAY_DIE_STARTED (R492 event 0x01): the datum is TOPEN of the previous record. -/
def execAssayDieStarted (s : State) : Outcome :=
  let a := s.assay
  if a.running then .next s
  else .next { s with assay := eventRec { a with running := true, cur := .idle } 1 (lastOpen a) }

/-! ### Seal and calibration (R495 to R497) -/

/-- SEAL_OPEN: the switch opens; event 0x02, and SEALOPEN from now on. -/
def execSealOpen (s : State) : Outcome :=
  let a := s.assay
  if a.sealOpen then .next s
  else if !a.running then .next { s with assay := { a with sealOpen := true } }
  else .next { s with assay := eventRec { a with sealOpen := true, marked := true } 2 0 }

/-- SEAL_SWITCH_CLOSED (R495, R496). -/
def execSealSwitchClosed (s : State) : Outcome := .next { s with assay := { s.assay with sealOpen := false } }

/-- A calibration command that does nothing is counted as event 0x07 (R496). -/
def ignoredCommand (a : Assay) : Assay := { eventRec a 7 (a.ignored + 1) with ignored := 0 }

/-- A calibration command that is accepted: a change, its event, and the hallmark counter (R493, R496). -/
def calibrate (s : State) (ok : Bool) (f : Assay → Assay) (code datum : Nat) : Outcome :=
  let a := s.assay
  if !a.running then .next s
  else if !ok then .next { s with assay := ignoredCommand a }
  else .next { s with assay := eventRec { f a with hallmark := a.hallmark + 1 } code datum }

/-- CALIBRATION_CONSTANT_WRITE (R496): constant n becomes v. -/
def execCalibrationConstantWrite (n v : Nat) (authOk : Bool) (s : State) : Outcome :=
  calibrate s (authOk && s.assay.sealOpen) (fun a => { a with consts := arrPut a.consts n v false }) 4 n

/-- AF_REPLACE (R496). -/
def execAfReplace (digest : BitVec 384) (authOk : Bool) (s : State) : Outcome :=
  calibrate s (authOk && s.assay.sealOpen) (fun a => { a with af := digest }) 5 (digest.toNat % 2 ^ 56)

/-- RESEAL (R496, R497): accepted with the switch closed, or in any position on an unsealed code. -/
def execReseal (authOk : Bool) (s : State) : Outcome :=
  calibrate s (authOk && (!s.assay.sealOpen || !Config.sealedModule)) (fun a => { a with marked := false }) 3 0

/-! ### METER_READ and METER_RECORDS (R494) -/

/-- The 256 bytes of a record (R490); KEYID and SIG are free values. -/
def meterBytes (s : State) (r : MeterRec) : List Byte :=
  [0x50, 0x4C, 0x4D, 0x37] ++ leBytes 1 r.kind ++ leBytes 1 r.flags ++ leBytes 2 r.job ++ leBytes 8 r.seq ++ leBytes 8 r.topen ++
    leBytes 8 r.tclose ++ leBytes 8 r.sopen ++ leBytes 8 r.sclose ++ leBytes 8 r.energy ++ leBytes 8 r.aux ++ leBytes 8 r.total ++
    leBytes 8 r.idle ++ leBytes 1 r.port ++ leBytes 1 r.client ++ leBytes 1 r.dev ++ [0] ++ leBytes 2 r.domain ++ [0, 0] ++
    leBytes 4 r.system ++ leBytes 4 r.hallmark ++ leBytes 2 r.vmin ++ leBytes 2 r.vmax ++ leBytes 2 r.pmax ++ leBytes 2 r.nexc ++
    (List.range 8).map (Config.openByte 0 2) ++ leBytes 48 r.af.toNat ++ (List.range 96).map (Config.openByte s.fresh 3)

/-- The IDENT record, sequence 0 (R491, R493): the Assay key in bytes 0x10 to 0x40, and KEYID, are free values. -/
def identBytes (s : State) : List Byte :=
  [0x50, 0x4C, 0x4D, 0x37, 0, BitVec.ofNat 8 (b2n (!Config.sealedModule)), 0, 0] ++ leBytes 8 0 ++ (List.range 49).map (Config.openByte 0 4) ++
    List.replicate 39 0 ++ (List.range 8).map (Config.openByte 0 2) ++ (List.range 48).map (Config.openByte 0 5) ++
    (List.range 96).map (Config.openByte s.fresh 3)

/-- A SNAPSHOT record of the current totals (R491, R493). -/
def snapshotRec (a : Assay) : MeterRec :=
  let e := match a.cur with
    | .job j => ((accountOf a j).map (·.uj)).getD 0 / 1000
    | _ => 0
  spanRec a 5 (openSpan a) e a.idle

/-- METER_READ: the record is written; a sealed die whose seal is open answers SEAL_BROKEN all the same. -/
def execMeterRead (k : Nat) (s : State) : Outcome :=
  withCmd s k 0x0800 fun x =>
    if !s.assay.running then .next s
    else
      let s1 := hostWrite (bumpFresh (early s x)) x.port (pfld x 0x10 8) (meterBytes s (snapshotRec s.assay))
      if Config.sealedModule && s.assay.marked then .next (refuse s1 k stSealBroken 0) else .next (replyOk s1 k 0 0)

/-- METER_RECORDS: stored records FIRST to FIRST + COUNT - 1, those overwritten skipped. -/
def execMeterRecords (k : Nat) (s : State) : Outcome :=
  withCmd s k 0x0801 fun x =>
    let first := pfld x 0x18 8
    let count := pfld x 0x20 2
    if count = 0 ∨ count > 256 then .next (badField s k 0x20)
    else if !s.assay.running then .next s
    else
      let rs := (if first = 0 then [identBytes s] else []) ++ (recordsFrom s.assay first count).map (meterBytes s)
      let s1 := bumpFresh (early s x)
      .next (replyOk (if rs.isEmpty then s1 else hostWrite s1 x.port (pfld x 0x10 8) (rs.flatMap id)) k rs.length 0)

end Sys2Proof.Machine
end

