-- ==== Sys2Proof/Machine/Flash.lean ====
section
/-! DEFINITION. The flash image, its floor record and the keys derived from the device secret (20 R458 to R467). -/

namespace Sys2Proof.Machine

/-! ### The image header (R460) -/

/-- The header of the flash image, and a component's body. -/
def flashHeader (s : State) : List Byte := if s.sec.header.isEmpty then Config.shippedHeader else s.sec.header
def flashBody (s : State) (c : Nat) : List Byte := arrGet s.sec.bodies c (Config.shippedBody c)

/-- Manifest entry c of a header (20 R460): FLAGS [0] FLOOR, SVN, OFFSET, LENGTH, COMPAT and the 80 bytes. -/
def entryAt (c : Nat) : Nat := 0x10 + 80 * c
def entryBytesOf (h : List Byte) (c : Nat) : List Byte := slice h (entryAt c) 80
def entryFloor (h : List Byte) (c : Nat) : Bool := nbit (leAt h (entryAt c + 1) 1) 0
def entrySvn (h : List Byte) (c : Nat) : Nat := leAt h (entryAt c + 4) 4
def entryLen (h : List Byte) (c : Nat) : Nat := leAt h (entryAt c + 0x14) 4

/-- The manifest of what is in service. -/
def runningManifest (s : State) : List Byte := if s.sec.running.isEmpty then slice (flashHeader s) 0x10 880 else s.sec.running

/-- Bytes of the image area (R459). -/
def imageArea : Nat := 0x6000000

def entryOffset (h : List Byte) (c : Nat) : Nat := leAt h (entryAt c + 0x10) 4
def entryCompat (h : List Byte) (c : Nat) : Nat := leAt h (entryAt c + 0x18) 4
def entryDigest (h : List Byte) (c : Nat) : List Byte := slice h (entryAt c + 0x20) 48
def entryAbsent (h : List Byte) (c : Nat) : Bool := nbit (leAt h (entryAt c + 1) 1) 1

/-- The end of a component's area: the next greater OFFSET, or the end of the image area. -/
def areaEnd (h : List Byte) (c : Nat) : Nat :=
  (least (((List.range 11).map (entryOffset h)).filter fun o => decide (entryOffset h c < o))).getD imageArea

/-- One manifest entry's rules. -/
def entryOk (h : List Byte) (c : Nat) : Bool :=
  leAt h (entryAt c) 1 = c && decide (leAt h (entryAt c + 1) 1 < 4) && (!entryAbsent h c || (c = 10 && entryLen h c = 0)) &&
    leAt h (entryAt c + 2) 2 = 0 && leAt h (entryAt c + 0x1C) 4 = 0 && entryOffset h c % 4096 = 0 && decide (0x1000 ≤ entryOffset h c) &&
    decide (entryOffset h c + entryLen h c ≤ areaEnd h c)

/-- Check 1 of R461. -/
def imageHeaderOk (h : List Byte) : Bool :=
  h.take 4 = [0x50, 0x4C, 0x46, 0x37] && leAt h 4 2 = 1 && leAt h 6 2 = 11 && leAt h 8 8 = 0 && allZero (slice h 0x450 2992) &&
    (List.range 11).all (entryOk h)

/-! ### The floor record (R466, R467) -/

/-- REQCOSIGN (R466). -/
def needsCosign (s : State) : Bool := match s.sec.floor with | some f => f.cosign | none => false
def floorOf (s : State) (c : Nat) : Nat := match s.sec.floor with | some f => f.floors.getD c 0 | none => 0

/-- A new floor record is written (R466): to the copy that is not valid, with the counter value + 1; then the flash's counter is
incremented, so that the new copy is the valid one. -/
def putFloor (e : Sec) (f : FloorRec) : Sec :=
  { e with floor := some { f with counter := e.monotonic + 1 }, oldFloor := e.floor, monotonic := e.monotonic + 1, copyB := !e.copyB }

/-- Floors after components are written to flash (R467); an unchanged record is not written. -/
def raiseFloors (e : Sec) (h : List Byte) (cs : List Nat) : Sec :=
  match e.floor with
  | none => e
  | some f =>
    let fs := cs.foldl (fun l c => if entryFloor h c then modAt l c fun v => max v (entrySvn h c) else l) f.floors
    if fs = f.floors then e else putFloor e { f with floors := fs }

/-! ### The checks of a whole image (R461) -/

/-- The failure code that R461 gives an image: its header, the bodies that are known, and the verdicts on its signatures. -/
def imageVerdict (s : State) (h : List Byte) (body : Nat → Option (List Byte)) (psig osig : Bool) : Option Nat :=
  if !imageHeaderOk h ∨ !psig then some 3
  else if s.sec.floor.isNone then some 5
  else if needsCosign s ∧ !osig then some 3
  else if (List.range 11).any fun c => !entryAbsent h c &&
      (match body c with | some b => decide (entryDigest h c ≠ sha384 b) | none => false) then some 3
  else if (List.range 11).any fun c => decide (entrySvn h c < floorOf s c) then some 4
  else none

/-- The verdict on the image in flash. What stands there as shipped is not in the spec and passes its checks. -/
def flashVerdict (s : State) : Option Nat :=
  if s.sec.header.isEmpty then (if s.sec.floor.isNone then some 5 else none)
  else imageVerdict s s.sec.header (fun c => (s.sec.bodies.find? (·.1 = c)).map (·.2)) s.sec.psig s.sec.osig

/-! ### Identity (R462 to R464) -/

/-- The private key of a pair generated from 56 random bytes (FIPS 186-5 A.2.1 for P-384; PRESUMED, log 6). -/
def privateKey (bits : List Byte) : Nat :=
  leNat bits.reverse %
    (0xFFFFFFFFFFFFFFFFFFFFFFFFFFFFFFFFFFFFFFFFFFFFFFFFC7634D81F4372DDF581A0DB248B0A77AECEC196ACCC52973 - 1) + 1

/-- ASCII text as bytes. -/
def ascii (t : String) : List Byte := t.toList.map fun c => BitVec.ofNat 8 c.toNat

/-- The hub's key store beside the key slots and IDE keys: the DeviceID private key, the floor key, the CDIs and the alias private
keys. -/
structure KeyStore where
  deviceKey : Nat
  floorKey : List Byte
  cdiBs : List Byte
  cdiCp : List Byte
  bsAlias : Nat
  cpAlias : Nat
deriving DecidableEq, Repr

/-- The DIGEST of component c of what runs. -/
def runningDigest (s : State) (c : Nat) : List Byte := slice (runningManifest s) (80 * c + 0x20) 48

/-- What the key store holds: nothing while the module is not running, after a start-up that failed by step 3, or after DEBUG_UNLOCK
(R462, R464). The length of a key other than a CDI's 48 bytes is the hash's (PRESUMED, log 36). -/
def keyStore (s : State) : Option KeyStore :=
  let stands : Bool := match s.module with | .on => true | .failed c => decide (7 ≤ c) | _ => false
  if !stands || s.sec.unlocked then none
  else
    let secret := (List.range 48).map Config.deviceSecret
    let bs := hkdf 48 secret (runningDigest s 0) (ascii "DT7 CDI")
    let cp := hkdf 48 bs (sha384 ((List.range 10).flatMap fun i => runningDigest s (i + 1))) (ascii "DT7 CDI")
    some {
      deviceKey := privateKey (hkdf 56 secret [] (ascii "DT7 DEVICEID"))
      floorKey := hkdf 48 secret [] (ascii "DT7 FLOOR")
      cdiBs := bs
      cdiCp := cp
      bsAlias := privateKey (hkdf 56 bs [] (ascii "DT7 ALIAS"))
      cpAlias := privateKey (hkdf 56 cp [] (ascii "DT7 ALIAS")) }

/-- The key that signs reports and SPDM answers: the CP alias key, after DEBUG_UNLOCK the one generated then (R480). -/
def signingKey (s : State) : Nat := match keyStore s with | some k => k.cpAlias | none => s.sec.unlockKey

/-- Its signature over a message. -/
def signed (s : State) (msg : List Byte) : List Byte := (List.range 96).map (Config.signature (signingKey s) msg s.fresh)

end Sys2Proof.Machine
end

