-- ==== Sys2Proof/Machine/Power.lean ====
section
/-! DEFINITION. The Banksman's commands, ramp windows and restoration, the 56 V supply, heat, the cascade's budget and SELFTEST
(16 R376 to R395, 14 R337). -/

namespace Sys2Proof.Machine

def modPower (s : State) (f : Power → Power) : State := { s with power := f s.power }

/-! ### Restoration (R392) -/

/-- Sixteenths of a watt that the next step of restoration draws: the stretched grants' sixteenth. -/
def stepCost (p : Power) : Nat := if !p.throt && p.eThrot = restE p then grantedAll p else grantedOf p false

/-- Every source at the lowest e goes up one step. -/
def stepUp (p : Power) : Power :=
  let m := restE p
  { p with
    eBrown := if !p.brown && p.eBrown = m then m + 1 else p.eBrown
    eCeil := if p.eCeil = m then m + 1 else p.eCeil
    eThrot := if !p.throt && p.eThrot = m then m + 1 else p.eThrot }

/-- As many steps as the window's headroom covers; `acc` counts sixteenths of a watt. -/
def restoreSteps (room : Nat) : Nat → Nat → Power → Power
  | 0, acc, p => { p with booked := p.booked + cdiv acc 16 }
  | k + 1, acc, p =>
    if decide (restE p < forceE p) && decide (acc + stepCost p ≤ 16 * room) then restoreSteps room k (acc + stepCost p) (stepUp p)
    else { p with booked := p.booked + cdiv acc 16 }

/-- The headroom of the current window (R381); none where a swap of BK lets nothing be booked (20 R475). -/
def headroom (s : State) : Nat := if s.power.quiet = 0 then feature s 3 - s.power.booked else 0

/-- A step of thermal restoration of Level n that is due, when `room` and what is booked already cover it. -/
def heatStep (room : Nat) (a : Power × Nat) (n : Nat) : Power × Nat :=
  let p := a.1
  let cost := a.2 + grantedOn p n
  if decide (cost ≤ 16 * room) && decide (p.eHeat.getD n 16 < forceE p) then
    ({ p with eHeat := modAt p.eHeat n (· + 1), heatDue := p.heatDue.filter (· ≠ n) }, cost)
  else a

/-- Due steps of thermal restoration are booked; one that the headroom does not cover stays due. With every Level at 16 the throttle has
ended (R392, R393). -/
def heatNow (s : State) : State :=
  let r := s.power.heatDue.foldl (heatStep (headroom s)) (s.power, 0)
  let cool := r.1.heat && !s.power.heatDue.isEmpty && r.1.eHeat.all fun e => decide (16 ≤ e)
  let s1 := modPower s fun _ => { r.1 with booked := r.1.booked + cdiv r.2 16, heat := r.1.heat && !cool }
  if cool then signalBoth s1 1020 else s1

/-- Restoration in the current window, before any waiting request. -/
def restoreNow (s : State) : State :=
  let s1 := heatNow s
  serveAll (modPower s1 fun p => restoreSteps (headroom s1) 48 0 p)

/-- RAMP_WINDOW (R381, R382). -/
def execRampWindow (s : State) : Outcome :=
  if s.module ≠ .on then .next s
  else .next (restoreNow (modPower s fun p =>
    { p with window := p.window + 1, booked := 0, quiet := p.quiet - 1, reqs := p.reqs.map fun r => { r with here := 0 } }))

/-! ### The ceiling (R380, R386, R395) -/

/-- What lowered the ceiling has ended: grants stretched by it are restored (R386, R392). -/
def afterCeiling (s : State) (f : Power → Power) : State :=
  let e := ceilE s.power
  let s1 := modPower s f
  restoreNow (if e < ceilE s1.power then modPower s1 fun p => { p with eCeil := min p.eCeil e } else s1)

/-- POWER_CEILING (14 R337, R380, R387). -/
def execPowerCeiling (k : Nat) (s : State) : Outcome :=
  withCmd s k 0x0700 fun x =>
    let c := pfld x 0x10 4
    let scope := pfld x 0x14 1
    let n := ((List.range 64).filter (inMembers s)).length
    if c % 5 ≠ 0 then .next (badField s k 0x10)
    else if scope > 1 then .next (badField s k 0x14)
    else if scope = 0 then
      if c < 1000 ∨ c > 3200 ∨ (c = 3200 ∧ s.power.inlet) then .next (badField s k 0x10)
      else .next (replyOk (afterCeiling (early s x) fun p => { p with ceil := c }) k 0 0)
    else if !s.casc.pith then .next (badField s k 0x14)
    else if c < 1000 * n ∨ c > 3200 * n then .next (badField s k 0x10)
    else .next (replyOk (modPower (early s x) fun p => { p with casc := some c }) k 0 0)

/-- COOLANT_INLET_TEMPERATURE (R380). -/
def execCoolantInletTemperature (above30 : Bool) (s : State) : Outcome :=
  .next (afterCeiling s fun p => { p with inlet := above30 })

/-- POWER_QUERY (14 R337, R385): `watts` is the input power measured over the last 1 ms. -/
def execPowerQuery (k watts : Nat) (s : State) : Outcome :=
  withCmd s k 0x0701 fun x =>
    let p := s.power
    .next (replyOk (early s x) k (ceilEff p % 2 ^ 16 + 2 ^ 16 * grantedAll p)
      (watts % 2 ^ 16 + 2 ^ 16 * b2n p.brown + 2 ^ 17 * b2n p.throt + 2 ^ 18 * b2n p.heat))

/-! ### The cascade budget (R387) -/

/-- A member's demand: A_s + G and the draw of its waiting requests. -/
def demandOf (p : Power) : Nat := standing + grantedAll p + (p.reqs.map fun r => drawSum r.draw).foldl (· + ·) 0

/-- One round of the share rule after another: members still open with what they want, what is left, shares settled. -/
def shareRounds : Nat → Nat → List (Nat × Nat) → List (Nat × Nat) → List (Nat × Nat)
  | 0, _, _, done => done
  | k + 1, left, opn, done =>
    if opn.isEmpty then done
    else
      let f := left / opn.length
      let fit := opn.filter fun m => decide (m.2 ≤ f)
      if fit.isEmpty then done ++ opn.map fun m => (m.1, 1000 + f)
      else shareRounds k (left - (fit.map (·.2)).foldl (· + ·) 0) (opn.filter fun m => decide (f < m.2))
        (done ++ fit.map fun m => (m.1, 1000 + m.2))

/-- Shares of the members with these demands under a cascade ceiling. -/
def shares (ceil : Nat) (ds : List (Nat × Nat)) : List (Nat × Nat) :=
  (shareRounds (ds.length + 1) (ceil - 1000 * ds.length) (ds.map fun d => (d.1, d.2 - 1000)) []).map fun m =>
    (m.1, min 3200 m.2 / 5 * 5)

/-- The demands the Pithead has, its own among them. -/
def demandsHeld (s : State) : List (Nat × Nat) :=
  ((List.range 64).filter (inMembers s)).map fun d =>
    (d, if d = deviceId s then demandOf s.power else arrGet s.power.demands d 0)

/-- CASCADE_DEMAND (R387): what the Pithead has of member d; a Member sends its own demand as a control message. -/
def execCascadeDemand (d w : Nat) (s : State) : Outcome :=
  if s.module ≠ .on then .next s
  else if !s.casc.pith then
    .next (if d = deviceId s ∧ deviceReady s then sendControl s 0 1 [deviceId s, demandOf s.power] else s)
  else if d = deviceId s ∨ d > 63 ∨ !inMembers s d then .next s
  else .next (modPower s fun p => { p with demands := arrSet p.demands d w 0 })

/-- CASCADE_SHARE (R387): a member takes the share that arrives; the Pithead takes its own from the rule and sends the members theirs. -/
def execCascadeShare (w : Nat) (s : State) : Outcome :=
  if s.module ≠ .on then .next s
  else if s.casc.pith then
    match s.power.casc with
    | some c =>
      let l := shares c (demandsHeld s)
      let s1 := modPower s fun p => { p with share := (l.find? (·.1 = deviceId s)).map (·.2) }
      .next (serveAll ((l.filter fun e => e.1 ≠ deviceId s && s.casc.present.contains e.1).foldl
        (fun a e => sendControl a e.1 2 [e.2]) s1))
    | none => .next s
  else .next (serveAll (modPower s fun p => { p with share := some w }))

/-- SHARE_TIMEOUT (R387). -/
def execShareTimeout (s : State) : Outcome :=
  if s.module ≠ .on ∨ (s.casc.pith && s.power.casc.isNone) then .next s
  else .next (serveAll (modPower s fun p => { p with share := some 1000 }))

/-- THROTTLE (R388, R413): again while it is in force it changes nothing. -/
def execThrottle (s : State) : Outcome :=
  if s.module ≠ .on ∨ (s.casc.pith && s.casc.due.any fun d => decide (cmdRank d < cmdRank .throttle)) then .next s
  else
    let s1 := driven s .throttle true
    if s.power.throt then .next s1
    else .next (signalBoth { modPower s1 (fun p => { p with throt := true, eThrot := 1 }) with alert := true } 1019)

/-- RESUME (R388, R413). -/
def execResume (s : State) : Outcome :=
  if s.module ≠ .on ∨ (s.casc.pith && s.casc.due.any fun d => decide (cmdRank d < cmdRank .resume)) then .next s
  else .next (restoreNow (modPower (driven s .resume false) fun p => { p with throt := false }))

/-! ### The 56 V input (R389 to R392, R452) -/

/-- The module leaves service: tiles stop, ports and links are down, SHFLT_N falls and SHDONE is no longer released; what it
held is lost at the next start-up (19 R446, R451, R452). -/
def moduleDown (s : State) (m : Module) : State :=
  { s with
    module := m
    keys := []
    ports := s.ports.map fun p => { p with link := false }
    casc := { s.casc with ready := false, shdone := false, shflt := true, jports := List.replicate 12 jportReset } }

/-- A sample reaches the reset level (R452). -/
def powerFail (s : State) : State := moduleDown (modPower s fun p => { p with pfail := true }) .held

/-- Entry into brownout hold (R390). -/
def enterHold (s : State) (v : Nat) : State :=
  let low := min v (s.power.last.getD v)
  let s1 := modPower s fun p => { p with brown := true, lowest := low }
  let s2 := plainRecord { s1 with alert := true } 0x0C stCorrected 0 9 low []
  notify (signalBoth s2 1019) (.brown true (feature s 4) (shaftCount s))

/-- Below 40 V the converters stop: the module goes to OFF (23 R517, 19 R452). -/
def convertersAt (v : Nat) (s : State) : State := if v < 400 then { s with module := .off } else s

/-- SUPPLY_SAMPLE (R389): `v` in 0.1 V. -/
def execSupplySample (v : Nat) (s : State) : Outcome :=
  match s.module with
  | .off | .held => .next (convertersAt v (modPower s fun p => { p with last := some v }))
  | m =>
    if v ≤ 440 then .next (convertersAt v (powerFail (modPower s fun p => { p with last := some v })))
    else if m ≠ .on then .next (modPower s fun p => { p with last := some v })
    else
      let s1 := if s.power.brown then modPower s fun p => { p with lowest := min p.lowest v }
        else if v < feature s 4 ∧ s.power.last.any (fun u => decide (u < feature s 4)) then enterHold s v
        else s
      .next (modPower s1 fun p => { p with last := some v })

/-- BROWNOUT_END (R389, R392): every sample of the last 100 µs, so the last one, stood at or above the recovery level. -/
def execBrownoutEnd (s : State) : Outcome :=
  if !s.power.brown ∨ s.module ≠ .on ∨ s.power.last.any (fun v => decide (v < feature s 4 + 10)) then .next s
  else
    let s1 := modPower s fun p => { p with brown := false, eBrown := holdE p, excursions := p.excursions + 1 }
    .next (restoreNow (notify (signalBoth s1 1019) (.brown false (feature s 4) (shaftCount s))))

/-! ### Heat (R393) -/

/-- The dies whose heat slows Level n, and whether one of number below d is hot: a Level loses one step in each 10 µs. -/
def hotBefore (temps : Arr Nat) (n d : Nat) : Bool :=
  [n, 4 + n, 8].any fun e => decide (e < d) && decide (105 ≤ arrGet temps e 0)

/-- A hot die's report: its Level, or every Level for the hub die, loses a step. -/
def loseStep (p : Power) (die : Nat) : Power :=
  { p with
    heat := true
    heatDue := []
    eHeat := (List.range 4).map fun n =>
      let e := p.eHeat.getD n 16
      if (die = 8 || die % 4 = n) && !hotBefore p.temps n die then max 1 (e - 1) else e }

/-- THERMAL_SAMPLE (R393): `temp` in °C; dies as R444 numbers them. A trip needs no more than powered dies (23 R516). -/
def execThermalSample (die temp : Nat) (s : State) : Outcome :=
  if die > 8 then .fault .noUnit
  else if s.module = .off then .next s
  else
    let s1 := modPower s fun p =>
      let q := { p with temps := arrSet p.temps die temp 0 }
      { q with heatDue := if hotNow q then [] else q.heatDue }
    if temp ≥ 120 then
      let s2 := deviceFatal s1 stFaultFatal 0x0C die temp []
      .next (moduleDown (modPower s2 fun p => { p with trip := true, rearm := false }) .off)
    else if s.module ≠ .on then .next s1
    else if temp ≥ 105 then
      let s2 := modPower s1 fun p => loseStep p die
      .next (if s.power.heat then s2 else signalBoth { s2 with alert := true } 1020)
    else .next s1

/-- THERMAL_RESTORE_STEP (R392, R393): with every die below 103 °C, a step falls due on every Level below what the other sources allow; it
is booked in this window or a later one. -/
def execThermalRestoreStep (s : State) : Outcome :=
  let p := s.power
  let up := (List.range 4).filter fun n => decide (p.eHeat.getD n 16 < forceE p)
  if s.module ≠ .on ∨ !p.heat ∨ hotNow p ∨ up.isEmpty then .next s
  else .next (restoreNow (modPower s fun q => { q with heatDue := up }))

/-! ### SELFTEST (14 R337, 02 R64) -/

/-- The draw of SELFTEST (R376). -/
def selftestDraw (x : Packet) : List Nat :=
  (List.range 4).map fun n => if nbit (pLvl x) n then (if pfld x 0x10 1 = 0 then 300 else 600) else 0

/-- SELFTEST: it asks leave once and runs when leave is granted; `failed` are the tiles whose tests fail. A Level in S2 wakes
first (19 R449). -/
def execSelftest (k : Nat) (failed : List Nat) (s : State) : Outcome :=
  withCmd s k 0x0A02 fun x =>
    let draw := selftestDraw x
    let on := fun (t : Nat) => decide (t < 2304) && nbit (pLvl x) (levelOf t) && !tileRetired s t
    if pfld x 0x10 1 > 1 then .next (badField s k 0x10)
    else if !x.sent ∧ s.comp.isSome ∧ pLvl x ≠ 0 then .next (refuse s k stJobBusy 0)
    else if !x.sent ∧ neverAdmissible s.power draw then .next (refuse s k stLeaveDenied (drawSum draw))
    else
      let s1 := if x.sent then s else askLeave (modPacket (early s x) k fun y => { y with sent := true }) (.command k) false draw
      if !hasGrant s1 (.command k) ∨ s1.s2.any (fun n => nbit (pLvl x) n) then .next s1
      else .next (releaseLeave (replyOk s1 k (failed.eraseDups.filter on).length 0) (.command k))

end Sys2Proof.Machine
end

