-- ==== Sys2Proof/Machine/Resets.lean ====
section
/-! DEFINITION. Resets, power states, start-up, and the ports' links and failover (19 R446 to R457, R524, 15 R370, 14 R353, 22
R499 to R509, 23 R515 to R520). -/

namespace Sys2Proof.Machine

/-! ### Detours after a reset (R451 column W, 10 R251) -/

/-- Routers that stand by a retired tile or at an end of a disabled link. -/
def detourTiles (s : State) : List Nat :=
  ((s.retired.flatMap (ringAround s)) ++ s.links.flatMap fun l => [l.1, linkEnd l.1 l.2]).eraseDups

/-- The tiles that `on` selects go back to their reset state with their generation advanced, scratchpads zeroed, detour entries
written anew; a retired tile stays off (R451, 12 R316). -/
def resetSet (s : State) (on : Nat → Bool) : State :=
  let s1 := { s with
    tiles := (List.range 2304).filterMap fun t =>
      let x := tileAt s t
      let y := if on t && !tileRetired s t then { tileGenReset x with net := { (tileGenReset x).net with detour := [] } } else x
      if y = tileReset then none else some (t, y)
    mem := s.mem.filter fun c => !(isPad c.1 && on ((c.1 - 0x080000000000) / 0x200000))
    net := s.net.filter fun n =>
      !((n.msg.ddev = deviceId s && on (substT s n.msg.dtile)) || (n.msg.sdev = deviceId s && on (substT s n.msg.stile)))
    paused := s.paused.filter fun t => !on t }
  pruneImages (rewriteDetours s1 ((detourTiles s).filter fun t => on t && !tileRetired s t))

/-! ### WARM, LEVEL and TILE resets (R446 to R448) -/

/-- Tiles that a reset covers. -/
def resetCovers (r : Reset) (t : Nat) : Bool :=
  r.kind = 0 || (r.kind = 1 && r.levels.contains (levelOf t)) || (r.kind = 2 && r.tile = t)

/-- Reset a is of equal or wider scope than b (R448). -/
def widerReset (a b : Reset) : Bool :=
  a.kind = 0 || (a.kind = 1 && b.kind = 1 && b.levels.all a.levels.contains) || (a.kind = 1 && b.kind = 2 && a.levels.contains (levelOf b.tile)) ||
    (a.kind = 2 && b.kind = 2 && a.tile = b.tile)

/-- The job that a reset fails (R447): the computing or restoring one; for a TILE reset, only when it runs a section there. -/
def resetVictim (s : State) (r : Reset) : Option Nat :=
  let j := s.comp <|> (match s.sw with | some w => if w.phase = .restore then some w.job else none | none => none)
  if r.kind ≠ 2 then j else if (launchOn s r.tile).isSome then j else none

/-- What a reset does to the job at its start: the record, the failure, SHFLT_N (R447, R444; `cause` and the port of a command). -/
def failForReset (s : State) (r : Reset) (cause port : Nat) : State :=
  match resetVictim s r with
  | none => s
  | some j =>
    let loc1 := if r.kind = 1 then r.levels.headD 0 else if r.kind = 2 then r.tile else 0
    let s1 := addRecord s stFaultFatal 2 false false 0x0F j r.kind loc1 [cause, port]
    let s2 := failJob s1 j stFaultFatal
    { s2 with casc := { s2.casc with shflt := true } }

/-- A reset starts, or is absorbed into one of equal or wider scope; narrower ones are absorbed into it (R448). -/
def startReset (s : State) (r : Reset) (cause port : Nat) : State :=
  if s.resets.any fun a => widerReset a r then
    { s with resets := match indexWhere (fun a => widerReset a r) s.resets with
        | some i => modAt s.resets i fun a => { a with tickets := a.tickets ++ r.tickets }
        | none => s.resets }
  else
    let s1 := failForReset s r cause port
    let taken := s1.resets.filter (widerReset r)
    { s1 with
      sec := { s1.sec with debugNonce := none }
      resets := (s1.resets.filter fun a => !widerReset r a) ++ [{ r with tickets := r.tickets ++ taken.flatMap (·.tickets) }] }

/-- RESET of a port (14 R337): JOB_BUSY while a job of the other port computes on an affected tile. -/
def resetBusy (s : State) (x : Packet) (r : Reset) : Bool :=
  match compJob s with
  | some j => j.port ≠ x.port && (r.kind ≠ 2 || (launchOn s r.tile).isSome)
  | none => false

/-- RESET (R446 to R448, 17 R413). -/
def execReset (k : Nat) (s : State) : Outcome :=
  withCmd s k 0x0010 fun x =>
    let kind := pfld x 0x10 1
    let t := pfld x 0x12 2
    let r : Reset := {
      kind := if kind = 3 then 0 else kind, levels := (List.range 4).filter (nbit (pLvl x)), tile := if kind = 2 then t else 0, tickets := [k] }
    if x.sent then .next s
    else if kind > 3 then .next (badField s k 0x10)
    else if (kind = 1) ≠ (pLvl x ≠ 0) then .next (badField s k 9)
    else if kind = 2 ∧ t > 2303 then .next (badField s k 0x12)
    else if kind = 3 ∧ !s.casc.pith then .next (badField s k 0x10)
    else if resetBusy s x r then .next (refuse s k stJobBusy 0)
    else
      let s1 := modPacket (early s x) k fun y => { y with sent := true }
      if kind = 3 then .next (makeDue s1 .reset) else .next (startReset s1 r 0 x.port)

/-- Commands RESET with KIND 3 that wait to be driven. -/
def cascadeResets (s : State) : List Nat :=
  ((s.out.filter fun x => pOpcode x = 0x0010 && x.sent && pfld x 0x10 1 = 3).map (·.ticket)).filter fun k =>
    !(s.resets.any fun r => r.tickets.contains k) && !s.casc.ackTickets.contains k

/-- RESET_CASCADE (17 R413): sampled, every device enters the WARM reset. -/
def execResetCascade (s : State) : Outcome :=
  if !sampled s .reset then .next s
  else .next (startReset (driven s .reset true) { kind := 0, levels := [], tile := 0, tickets := cascadeResets s } 1 0)

/-- LC_RELOAD_WATCHDOG (R446, 18 R442). -/
def execLcReloadWatchdog (n : Nat) (s : State) : Outcome :=
  withLevel n <|
    if !s.errs.reloading.getD n false then .next s
    else
      let s1 := startReset s { kind := 1, levels := [n], tile := 0, tickets := [] } 2 0
      .next { s1 with errs := { s1.errs with reloading := modAt s1.errs.reloading n fun _ => false } }

/-- The ore bins of Levels lose their lines (R451). -/
def emptyBins (s : State) (ns : List Nat) : State :=
  { s with bins := ns.foldl (fun l n => modAt l n fun b => { b with lines := [] }) s.bins }

/-- The contents of what a reset covers (R451). -/
def applyReset (s : State) (r : Reset) : State :=
  let s1 := emptyBins (resetSet s (resetCovers r)) (if r.kind = 0 then List.range 4 else r.levels)
  match r.kind with
  | 0 => { s1 with
      levels := List.replicate 4 levelReset, cbar := [], tmap := [], snap := none, net := [], ctl := [], lvA1 := [], s2 := []
      errs := { s1.errs with fatal := false } }
  | 1 => { s1 with
      levels := r.levels.foldl (fun l n => modAt l n fun _ => levelReset) s1.levels
      s2 := s1.s2.filter fun n => !r.levels.contains n }
  | _ => dropWaiters s1 fun w => match w with
      | .tile u _ _ _ => u = r.tile
      | .host _ _ => false

/-- The replies of a released reset: a cascade reset's wait for SHACK_N (17 R414). -/
def resetReplies (s : State) (ks : List Nat) : State :=
  ks.foldl (fun a k => match packetN a k with
    | some x => if pfld x 0x10 1 = 3 then { a with casc := { a.casc with ackTickets := a.casc.ackTickets ++ [k] } } else replyOk a k 0 0
    | none => a) s

/-- SHFLT_N is held by a reset in progress, by a device-fatal record, and until a failed cascade job has been halted (17 R415). -/
def holdsFault (s : State) : Bool :=
  s.errs.fatal || !s.resets.isEmpty || s.casc.ackTickets.any fun k => match packetN s k with
    | some x => pOpcode x ≠ 0x0010
    | none => false

/-- RESET_RELEASE (R446, R448): reset i ends. -/
def execResetRelease (i : Nat) (s : State) : Outcome :=
  match s.resets[i]? with
  | none => .next s
  | some r =>
    let s1 := resetReplies (applyReset { s with resets := dropAt s.resets i } r) r.tickets
    .next { s1 with casc := { s1.casc with shflt := holdsFault s1 } }

/-! ### Power states (R449, R450) -/

/-- The tile's units have nothing to do. -/
def tileAtRest (tl : Tile) : Bool :=
  !tileRunning tl && tl.q = queuesReset && tl.pad.slots.all fun x => x.chain.isNone

/-- ENTER_A1 (R449): a tile, or the units of a Level. -/
def execEnterA1 (u : PowerUnit) (s : State) : Outcome :=
  match u with
  | .tile t => withTile s t fun tl =>
      if tileAtRest tl ∧ !tl.s1 ∧ !tileRetired s t then .next (setTile s t { tl with a1 := true }) else .next s
  | .level n => withLevel n <| .next (if s.lvA1.contains n then s else { s with lvA1 := s.lvA1 ++ [n] })
  | .device => .next s

/-- ENTER_S1 (R449). -/
def execEnterS1 (t : Nat) (s : State) : Outcome :=
  withTile s t fun tl =>
    let loading : Bool := match s.load with | some l => inRect l.img.rect t | none => false
    if tileRetired s t ∨ tl.net.epoch ≠ 0 ∨ tl.sq.st ≠ .idle ∨ loading ∨ !tileAtRest tl then .next s
    else .next (setTile s t { tl with s1 := true, a1 := false })

/-- Good tiles of a Level. -/
def levelTiles (s : State) (n : Nat) : List Nat := (List.range 2304).filter fun t => levelOf t = n && !tileRetired s t

/-- ENTER_S2 (R449): the scratchpads lose power too unless a job is open. -/
def execEnterS2 (n : Nat) (s : State) : Outcome :=
  withLevel n <|
    if s.comp.isSome ∨ s.s2.contains n ∨ (levelTiles s n).any (fun t => !(tileAt s t).s1) then .next s
    else
      let s1 := { s with s2 := s.s2 ++ [n] }
      .next (if s.jobs.isEmpty then dropPads s1 n else s1)

/-- ENTER_S3 (R449). -/
def execEnterS3 (s : State) : Outcome :=
  if s.module ≠ .on ∨ s.s3 ∨ !s.out.isEmpty ∨ (List.range 4).any (fun n => !s.s2.contains n) then .next s
  else .next { s with s3 := true }

/-- Levels return from S2 or, with the device, from S3 (R451): tiles and Level units at reset, generations advanced; the scratchpads hold
what they held where they kept power. The tally map and the cascade-barrier definitions are at reset too, unless a job computes: then a
Level's copy is rewritten from another Level's. -/
def wakeLevels (s : State) (ns : List Nat) (pads : Bool) : State :=
  let on := fun (t : Nat) => ns.contains (levelOf t)
  let keep := if pads then s.mem.filter fun c => isPad c.1 && on ((c.1 - 0x080000000000) / 0x200000) else []
  let s1 := emptyBins (resetSet s on) ns
  let s2 := keep.foldl (fun a c => { a with mem := arrPut a.mem c.1 c.2 (c.2 == 0) }) s1
  { s2 with
    levels := ns.foldl (fun l n => modAt l n fun _ => levelReset) s2.levels
    tmap := if s.comp.isNone then [] else s2.tmap
    cbar := if s.comp.isNone then [] else s2.cbar
    s2 := s2.s2.filter fun n => !ns.contains n
    lvA1 := s2.lvA1.filter fun n => !ns.contains n }

/-- WAKE_COMPLETE (R450, 12 R316): a tile from A1 or S1, a Level from S2 or its units from A1, the device from S3. -/
def execWakeComplete (u : PowerUnit) (s : State) : Outcome :=
  match u with
  | .tile t => withTile s t fun tl =>
      if tileRetired s t ∨ s.s2.contains (levelOf t) then .next s else .next (setTile s t (wakeTile tl))
  | .level n => withLevel n <|
      if s.s3 then .next s
      else if s.s2.contains n then .next (wakeLevels s [n] true)
      else .next { s with lvA1 := s.lvA1.filter (· ≠ n) }
  | .device => if s.s3 then .next (wakeLevels { s with s3 := false } (List.range 4) false) else .next s

/-! ### Start-up (R453 to R457) -/

/-- The staged body and header are copied into place, and R467 applied (20 R476). -/
def applyUpdate (s : State) (u : Update) : State :=
  { s with sec := raiseFloors { s.sec with
    running := runningManifest s
    header := u.header
    bodies := arrPut s.sec.bodies u.comp u.body false
    psig := true
    osig := u.osig } u.header [u.comp] }

/-- What a start begins from (R451 column POR, MRST, OFF): module flash, Assay records, the model's outputs, clock and counters, the
pins and sensors as they stand; the straps are sampled (17 R396), and key slot 0 takes a new key (09 R239). -/
def coldState (s : State) : State :=
  let r := State.reset
  { r with
    keys := [(0, drawKey s.rng)]
    ports := s.ports.map fun p => { portReset with perst := p.perst, refclk := p.refclk }
    ticket := s.ticket, dma := s.dma, msi := s.msi, answers := s.answers
    power := { powerReset with inlet := s.power.inlet, last := s.power.last }
    casc := { cascReset with
      pinPith := s.casc.pinPith, pinId := s.casc.pinId, pith := s.casc.pinPith, id := s.casc.pinId, present := [s.casc.pinId], shdone := false }
    retired := s.retired, retiredPc := s.retiredPc, retiredStack := s.retiredStack, links := s.links
    reserve := (List.range 4).flatMap (reserveOf s.retired (featDefault 6))
    flashRecs := s.flashRecs, flashCounts := s.flashCounts
    sec := { secReset with
      header := s.sec.header, bodies := s.sec.bodies, psig := s.sec.psig, osig := s.sec.osig, floor := s.sec.floor, oldFloor := s.sec.oldFloor
      monotonic := s.sec.monotonic, copyB := s.sec.copyB }
    assay := s.assay, notices := s.notices, alert := s.alert, clock := s.clock, fresh := s.fresh, rng := s.rng + 4, pending := s.pending }

/-- The error ring is rebuilt (18 R445): the flash's records first, the oldest of them with sequence number 0. -/
def rebuildRing (s : State) : State :=
  let n := s.flashRecs.length
  { s with errs := { s.errs with
    next := n
    ring := (List.range n).zip s.flashRecs |>.map fun (e : Nat × ErrRec) => { e.2 with seq := n - 1 - e.1, copy := true } } }

/-- What fails its training or tests is retired with a contained record (R453, R456). -/
def retireFailed (s : State) (b : Boot) : State :=
  let s1 := (b.badStacks.filter fun k => decide (k < 16)).foldl retireStack s
  let s2 := (b.badPackages.filter fun n => decide (n < 24)).foldl (fun a n => if a.retiredPkg.contains n then a
    else addRecord { a with retiredPkg := a.retiredPkg ++ [n] } stContained 1 true false 4 0 n 0 []) s1
  let s3 := (b.badTiles.filter fun t => decide (t < 2304)).foldl (fun a t => if tileRetired a t then a
    else retireTile (addRecord a stContained 1 true false 1 0 t 0 []) t none) s2
  { s3 with reserve := (List.range 4).flatMap (reserveOf s3.retired (featDefault 6)) }

/-- Where the device's copy of the initial configuration image stands (R454): in L0's reserved area, behind the ring and the
freeze area (log 33). -/
def initialBase : Nat := 0x10000000000 + 0x3FFC000000
def initialAddr : Nat := initialBase + 0x1010000

/-- A record of the initial image takes effect; a WAIT is one poll (R454, 12 R311). -/
def initialRecord (img : Image) (s : Option State) (r : Rec) : Option State :=
  s.bind fun s =>
    if !recLies img r then none
    else if recFrame r then some (applyFrame s r)
    else match recOp r with
      | 1 => some (recordWrite s r)
      | 2 => some ((goodTiles s (recRect r)).foldl (fun s t => modTile s t (recordTile (jobSplit s) (recAddr r) r)) s)
      | _ => if waitMet s r then some s else none

/-- The initial configuration image is loaded under no job (R454); none when it fails to verify or load. -/
def loadInitial (s : State) : Option State :=
  let body := flashBody s 10
  if s.sec.header.isEmpty ∨ body.isEmpty then some s
  else
    let s1 := memPut s initialAddr body
    let img := imageOf 0 initialBase initialAddr (memRead s1 initialAddr 256)
    match verifyImage s1 img body.length true with
    | .error _ => none
    | .ok rs =>
      let s2 := beginWrite s1 { ticket := s.ticket, img := img, phase := .write, index := 0, off := 256, tokens := 0 }
      (rs.foldl (initialRecord img) (some s2)).map fun s3 =>
        let s4 := (goodTiles s3 img.rect).foldl (fun a t => modTile a t fun tl =>
          { tl with net := { tl.net with epoch := BitVec.ofNat 8 img.epoch, peer := img.peer, agen := tl.net.gen } }) s3
        { s4 with load := none, images := [img] }

/-- The straps as sampled are one of the invalid combinations (17 R396). -/
def strapsBad (c : Casc) : Bool := c.pith != decide (c.id = 0)

/-- A package of L0 has failed its training: each holds lines of L0's reserved area (09 R218, R221), which is untrainable without one of
them (log 33). -/
def baseLost (b : Boot) : Bool := b.badPackages.any fun n => decide (n < 6)

/-- The first failure of the steps, by what start-up meets (R456): the flash image fails by its own contents too (20 R461). -/
def bootCode (s : State) (b : Boot) : Option Nat :=
  if b.fail = some 1 then some 1
  else if strapsBad s.casc ∨ b.fail = some 6 then some 6
  else if b.fail = some 2 then some 2
  else match (if b.fail = some 3 then some 3 else flashVerdict s) with
    | some c => if c = 4 ∧ b.fail = some 5 then some 5 else some c
    | none =>
      match b.fail with
      | some c => if c = 9 ∧ baseLost b then some 8 else some c
      | none => if baseLost b then some 8 else none

/-- Start-up fails (R456): CFG_ERR_N, SHDONE held low, ports untrained. -/
def bootFailed (s : State) (c : Nat) : State := { s with module := .failed c, alert := true, keys := if c = 9 then s.keys else [] }

/-- Start-up after POR or MRST (R453): first the boot ROM completes a copy whose journal is complete (20 R476, R477). -/
def startUp (s : State) (b : Boot) : State :=
  let s0 := match s.sec.update with
    | some u => bumpFresh (if journalDone s u then applyUpdate s u else s)
    | none => s
  let s1 := coldState s0
  match bootCode s1 b with
  | some c => bootFailed s1 c
  | none =>
    let s2 := rebuildRing s1
    let s3 := if s.power.pfail then plainRecord s2 0x0C stFaultFatal 1 9 440 [] else s2
    let s4 := retireFailed s3 b
    let s5 := rewriteDetours s4 ((detourTiles s4).filter fun t => !tileRetired s4 t)
    match loadInitial s5 with
    | none => bootFailed (coldState s0) 9
    | some s6 => { s6 with module := .on, casc := { s6.casc with shdone := true } }

/-- POR (R446, R452, R453): PWRGD rises. -/
def execPor (b : Boot) (s : State) : Outcome := if s.module = .off then .next s else .next (startUp s b)

/-- MRST (R524): `ns` is how long MRST_N has been low. While PWRGD is low it is absorbed into the POR that follows (23 R516). -/
def execMrst (ns : Nat) (s : State) : Outcome :=
  match s.module with
  | .off | .held => .next s
  | _ =>
    if ns < 500 then .next s
    else if ns < 1000 ∧ Config.choice s.fresh % 2 = 0 then .next (bumpFresh s)
    else .next (moduleDown s .mrst)

/-- MRST_RELEASE (R446, R453): also the end of a restart's 1 µs (20 R458). -/
def execMrstRelease (b : Boot) (s : State) : Outcome := if s.module = .mrst then .next (startUp s b) else .next s

/-- POWER_OFF (R449, 23 R516, R520). -/
def execPowerOff (c : OffCause) (s : State) : Outcome :=
  let s1 := moduleDown s .off
  match c with
  | .thermal => .next (modPower s1 fun p => { p with trip := true, rearm := false })
  | .pwrEnLow | .loss56 => .next (modPower s1 fun p => { p with rearm := true })

/-- POWER_ON (23 R515, R520): after a thermal trip only once PWR_EN has been low or 56 V gone. -/
def execPowerOn (s : State) : Outcome :=
  if s.module ≠ .off ∨ (s.power.trip ∧ !s.power.rearm) then .next s
  else .next (modPower { s with module := .held } fun p => { p with trip := false, rearm := false, pfail := false })

/-! ### Failover (15 R370, 22 R507 to R509) -/

/-- A client's account is added to the account of the same client on the adopting port. -/
def moveClient (s : State) (p o c : Nat) : State :=
  let d : Client := { completed := 0, qwait := 0, preempts := 0, ptime := 0, energy := 0 }
  let a := arrGet (portN s p).clients c d
  let s1 := modPort s p fun x => { x with clients := arrSet x.clients c d d }
  modClient s1 o c fun b =>
    { completed := b.completed + a.completed, qwait := b.qwait + a.qwait, preempts := b.preempts + a.preempts,
      ptime := b.ptime + a.ptime, energy := b.energy + a.energy }

/-- Adoption by the other port: the job, its regions and its client account move, its held events with them. -/
def adoptJob (s : State) (j : Job) (o : Nat) : State :=
  let evs := (cqN (portN s j.port) j.evcq).held.filter fun r => r.async && r.job = j.id
  let s1 := moveClient s j.port o j.client
  let s2 := modJob { s1 with
    regions := s1.regions.map (fun r => if r.job = j.id then { r with port := o } else r)
    adopted := arrPut s1.adopted j.id o false } j.id
    fun y => { y with port := o, evcq := 0 }
  signal (evs.foldl (fun a r => postEntry a o 0 r) s2) o 0 1018

/-- An abort closes the job without replies; during a switch or restore of it, when that has ended (15 R364). -/
def abortJob (s : State) (j : Job) : State :=
  let s1 := dropReplies s j.id
  if switchOf s1 j.id then modJob s1 j.id fun y => { y with doomed := true } else (closeJob s1 j s.ticket).1

/-- The port fails over: each of its jobs is adopted or aborted; the replies of its commands are discarded (14 R353). -/
def failover (s : State) (p : Nat) (up : Bool) : State :=
  let s1 := (s.jobs.filter (·.port = p)).foldl (fun a j => if j.adopt && up then adoptJob a j (1 - p) else abortJob a j) s
  modPort { s1 with out := s1.out.map fun x => if x.port = p then { x with drop := true } else x } p fun x =>
    { x with expired := none, cq := x.cq.map fun q => { q with held := [] } }

/-- The loss of the port is a covered fault of the computing job (18 R431): its job may be adopted. -/
def portCovered (s : State) (p : Nat) (up : Bool) : Bool :=
  up && (match compJob s with | some j => j.port = p && j.adopt | none => false)

/-- A port whose timer has expired fails over; in a load's write phase only after its reply (12 R311). -/
def actFailover (s : State) (p : Nat) : State :=
  match (portN s p).expired with
  | none => s
  | some (up, fault) =>
    let writing : Bool := match s.load with | some l => l.phase = .write | none => false
    if writing then s
    else if fault && portCovered s p up then secondFault (failover s p up) else failover s p up

/-- The timer of a port expires: the other port's link decides at that moment (22 R508). -/
def expire (s : State) (p : Nat) (fault : Bool) : State :=
  actFailover (modPort s p fun x => { x with timer := false, expired := some ((portN s (1 - p)).link, fault) }) p

/-- PEER changes on the other port (22 R507). -/
def peerSignal (s : State) (p : Nat) (was : Bool) : State := if (portN s p).link = was then s else signal s (1 - p) 0 1018

/-- FAILOVER_TIMEOUT (15 R370, 18 R425, R439): the port's counting unit counts it and the record is lasting. -/
def execFailoverTimeout (p : Nat) (s : State) : Outcome :=
  withPort p <|
    if !(portN s p).timer ∨ (portN s p).link then .next s
    else
      let s1 := countEvent s (.pcie p)
      let s2 := addRecord s1 stContained 1 true false 7 0 p 0 [windowCount s1 (.pcie p), (winOf s1 (.pcie p)).life]
      .next (expire (writeFlash s2) p true)

/-- LINK_DOWN (22 R507). -/
def execLinkDown (p : Nat) (s : State) : Outcome :=
  withPort p <|
    if !(portN s p).link then .next s
    else .next (peerSignal (modPort s p fun x => { x with link := false, timer := true }) p true)

/-- LINK_UP (22 R507): held replies and events are written. -/
def execLinkUp (p : Nat) (s : State) : Outcome :=
  withPort p <|
    if (portN s p).link ∨ (portN s p).perst ∨ s.module ≠ .on then .next s
    else
      let s1 := peerSignal (modPort s p fun x => { x with link := true, timer := false }) p false
      .next ((List.range 17).foldl (fun a c => drainHeld p c (cqN (portN a p) c).held.length a) s1)

/-! ### PORT resets (22 R502, R503, 14 R353) -/

/-- Commands of the port go on without replies; a STREAM_SUBMIT that waits for FIFO data ends; its jobs fail over. -/
def portGoes (s : State) (p : Nat) : State :=
  expire { s with
    sec := { s.sec with debugNonce := none }
    out := s.out.filter fun x => !(x.port = p && pOpcode x = 0x0500) } p false

/-- The whole port at reset; link and clock as the cause leaves them. -/
def portWiped (s : State) (p : Nat) (link perst : Bool) : State :=
  peerSignal (modPort (portGoes s p) p fun x => { portReset with link := link, perst := perst, refclk := x.refclk, expired := x.expired }) p (portN s p).link

/-- PERST_ASSERT (22 R502, R507): the link is down while the pin is low. -/
def execPerstAssert (p : Nat) (s : State) : Outcome :=
  withPort p <| if (portN s p).perst then .next s
    else if s.module ≠ .on then .next (modPort s p fun x => { x with perst := true })
    else .next (portWiped s p false true)

/-- PERST_RELEASE (22 R499): the reference clock is chosen. -/
def execPerstRelease (p : Nat) (refclk : Bool) (s : State) : Outcome :=
  withPort p <| if (portN s p).perst then .next (modPort s p fun x => { x with perst := false, refclk := refclk }) else .next s

/-- HOT_RESET (22 R502): the link is retrained. -/
def execHotReset (p : Nat) (s : State) : Outcome :=
  withPort p <| if (portN s p).perst ∨ s.module ≠ .on then .next s else .next (portWiped s p false false)

/-- FLR_PF0 (22 R502): as PERST, with the link kept up and PF1's configuration space, queue and MSI-X state kept. -/
def execFlrPf0 (p : Nat) (s : State) : Outcome :=
  withPort p <|
    if !(portN s p).link ∨ s.module ≠ .on then .next s
    else .next (modPort (portGoes s p) p fun x => { portReset with
      link := x.link, perst := x.perst, refclk := x.refclk, expired := x.expired, pf1 := x.pf1
      sq := List.replicate 16 sqReset ++ [x.sq.getD 16 sqReset], cq := List.replicate 16 cqReset ++ [x.cq.getD 16 cqReset] })

/-- FLR_PF1 (22 R502): PF1's configuration space, its queue registers and its MSI-X state. -/
def execFlrPf1 (p : Nat) (s : State) : Outcome :=
  withPort p <|
    if !(portN s p).link ∨ s.module ≠ .on then .next s
    else .next (modPort s p fun x => { x with pf1 := funcReset, sq := modAt x.sq 16 fun _ => sqReset, cq := modAt x.cq 16 fun _ => cqReset })

end Sys2Proof.Machine
end

