-- ==== Sys2Proof/Machine/Commands.lean ====
section
/-! DEFINITION. Commands of the packet protocol that no other file holds: identification, features, tallies and barriers, the host
stream, telemetry, the error log and retraining (14 R337 to R346, 11 R278 to R292, 17 R405, R406, 18 R445, 20 R479). -/

namespace Sys2Proof.Machine

/-! ### Identification and features (R339, R340) -/

/-- NOP (R337). -/
def execNop (k : Nat) (s : State) : Outcome := withCmd s k 0x0001 fun x => .next (replyOk (early s x) k 0 0)

/-- The ordering code's name, its RESULT0, and HBM3E GiB of a Level (00 R2). -/
def orderingName : List Byte :=
  match Config.ordering with
  | .dt7_768M => [0x44, 0x54, 0x37, 0x2D, 0x37, 0x36, 0x38, 0x4D]
  | .dt7_768 => [0x44, 0x54, 0x37, 0x2D, 0x37, 0x36, 0x38]
  | .dt7_576M => [0x44, 0x54, 0x37, 0x2D, 0x35, 0x37, 0x36, 0x4D]
  | .dt7_576 => [0x44, 0x54, 0x37, 0x2D, 0x35, 0x37, 0x36]

def orderingCode : Nat := match Config.ordering with | .dt7_768M => 0 | .dt7_768 => 1 | .dt7_576M => 2 | .dt7_576 => 3

/-- VERSION of component c in service (20 R460). -/
def runningVersion (s : State) (c : Nat) : List Byte := slice (runningManifest s) (80 * c + 8) 8

/-- The identify structure (R339). -/
def identifyBytes (s : State) : List Byte :=
  let good := fun (n : Nat) => (levelTiles s n).length
  let spare := fun (n : Nat) => (s.reserve.filter fun t => levelOf t = n).length
  let bits := fun (i : Nat) => (List.range 8).foldl (fun a b => a + b2n (tileRetired s (8 * i + b)) * 2 ^ b) 0
  let b0 := splice (List.replicate 4096 (0 : Byte)) 0 orderingName
  let b1 := splice b0 0x10 [BitVec.ofNat 8 (deviceId s), BitVec.ofNat 8 (b2n (s.casc.pith && inCascade s))]
  let b2 := splice b1 0x14 ((List.range 4).flatMap fun n => leBytes 2 (good n))
  let b3 := splice b2 0x1C ((List.range 4).map fun n => BitVec.ofNat 8 (spare n))
  let b4 := splice b3 0x20 ((List.range 4).flatMap fun _ => leBytes 2 (Config.hbmPerLevel / 2 ^ 30))
  let b5 := splice b4 0x40 ((List.range 10).flatMap (runningVersion s) ++ leBytes 8 Config.assayVersion.toNat)
  let b6 := splice b5 0x100 ((List.range 288).map fun i => BitVec.ofNat 8 (bits i))
  splice b6 0x240 ((List.range 32).map Config.serial)

/-- IDENTIFY (R337, R339). -/
def execIdentify (k : Nat) (s : State) : Outcome :=
  withCmd s k 0x0002 fun x => .next (replyOk (hostWrite (early s x) x.port (pfld x 0x10 8) (identifyBytes s)) k orderingCode 0)

/-- GET_STATUS (R337, R348). -/
def execGetStatus (k : Nat) (s : State) : Outcome :=
  withCmd s k 0x0003 fun x => .next (replyOk (early s x) k (devStat s x.port) (s.comp.getD 0))

/-- Range of a feature (R340). -/
def featRange (f : Nat) : Option (Nat × Nat) :=
  match f with
  | 1 => some (0, 1) | 2 => some (0, 10000) | 3 => some (50, 3200) | 4 => some (460, 500) | 5 => some (1, 10000) | 6 => some (1, 64)
  | _ => none

/-- The device has an owner (20 R466). -/
def owned (s : State) : Bool := match s.sec.floor with | some f => !f.owner.isEmpty | none => false

/-- SET_FEATURE (R340, 20 R468): SIGREQ goes to 1 only on an owned device, and never back. -/
def execSetFeature (k : Nat) (s : State) : Outcome :=
  withCmd s k 0x0004 fun x =>
    let f := pfld x 0x10 2
    let v := pfld x 0x14 4
    match featRange f with
    | none => .next (badField s k 0x10)
    | some (lo, hi) =>
      if v < lo ∨ hi < v ∨ (f = 1 ∧ ((v = 1 ∧ !owned s) ∨ (v = 0 ∧ feature s 1 = 1))) then .next (badField s k 0x14)
      else
        let old := feature s f
        .next (replyOk { early s x with feat := arrSet s.feat f v (featDefault f) } k old 0)

/-- GET_FEATURE (R340). -/
def execGetFeature (k : Nat) (s : State) : Outcome :=
  withCmd s k 0x0005 fun x =>
    match featRange (pfld x 0x10 2) with
    | none => .next (badField s k 0x10)
    | some _ => .next (replyOk (early s x) k (feature s (pfld x 0x10 2)) 0)

/-! ### Tallies and barriers (11, 15 R356) -/

/-- The job computes and no switch has begun to move it: its tally and barrier commands act (15 R356, R359). -/
def jobActs (s : State) (j : Nat) : Bool := s.comp = some j && !switchingNow s

/-- Entries of a TALLY_MAP. -/
def mapEntries (x : Packet) : List (Nat × W64) :=
  (List.range (pfld x 0x12 2)).map fun i => (pfld x 0x10 2 + i, BitVec.ofNat 64 (pfld x (0x20 + 8 * i) 8))

/-- The first field of a TALLY_MAP that offends: its counts, reserved bits, a physical tally named twice (R279, R280). -/
def mapField (s : State) (x : Packet) : Option Nat :=
  let n := pfld x 0x12 2
  let es := mapEntries x
  let new := es.foldl (fun m e => arrSet m e.1 e.2 0) s.tmap
  if n < 1 ∨ n > 508 ∨ 0x20 + 8 * n > 64 * pLen x then some 0x12
  else if pfld x 0x10 2 + n > 4096 then some 0x10
  else
    let bad := fun (e : Nat × W64) => fld e.2 15 15 ≠ 0 || fld e.2 63 40 ≠ 0 ||
      (bitAt e.2 14 && new.any fun o => o.1 ≠ e.1 && bitAt o.2 14 && fld o.2 13 0 = fld e.2 13 0)
    (indexWhere bad es).map fun i => 0x20 + 8 * i

/-- TALLY_MAP (R278 to R280, 14 R337): it waits until the job computes. -/
def execTallyMap (k : Nat) (s : State) : Outcome :=
  withJob s k 0x0400 fun x j =>
    if !jobActs s j.id then .next s
    else if jobRunning s j.id then .next (refuse s k stJobBusy 0)
    else match mapField s x with
      | some o => .next (badField s k o)
      | none => .next (replyOk ((mapEntries x).foldl (fun a e => writeMap a e.1 e.2) (early s x)) k 0 0)

/-- A host's tally operation leaves for the Level units (11 R284): once, while no replayable section holds it (18 R436). -/
def hostTally (s : State) (k op vid n : Nat) (x : Packet) : State :=
  pushCtl (modPacket (early s x) k fun y => { y with sent := true }) (.tallyHost k op vid n)

/-- The operation's fields, and whether it must wait. -/
def tallyField (x : Packet) : Option Nat := if pfld x 0x10 2 > 4095 then some 0x10 else if pfld x 0x17 1 ≠ 0 then some 0x14 else none
def tallyHeld (s : State) (x : Packet) (j : Nat) : Bool := x.sent || !jobActs s j || replayRunning s j

/-- TALLY_SIGNAL (11 R282, R284, R285): its reply follows when the Level units have applied it. -/
def execTallySignal (k : Nat) (s : State) : Outcome :=
  withJob s k 0x0401 fun x j =>
    match tallyField x with
    | some o => .next (badField s k o)
    | none => if tallyHeld s x j.id then .next s else .next (hostTally s k 0 (pfld x 0x10 2) (pfld x 0x14 3) x)

/-- TALLY_WAITs of a port that are outstanding (14 R337). -/
def waitsOf (s : State) (p : Nat) : Nat := (s.out.filter fun y => y.port = p && y.sent && pOpcode y = 0x0402).length

/-- TALLY_WAIT (11 R283): beyond the 64th of its port it is held. -/
def execTallyWait (k : Nat) (s : State) : Outcome :=
  withJob s k 0x0402 fun x j =>
    match tallyField x with
    | some o => .next (badField s k o)
    | none =>
      if tallyHeld s x j.id ∨ waitsOf s x.port ≥ 64 then .next s else .next (hostTally s k 2 (pfld x 0x10 2) (pfld x 0x14 3) x)

/-- BARRIER_DEFINE (11 R290, R292): refused while members have arrived; it waits until the job computes. -/
def execBarrierDefine (k : Nat) (s : State) : Outcome :=
  withJob s k 0x0403 fun x j =>
    let bid := pfld x 0x10 1
    if bid > 67 then .next (badField s k 0x10)
    else if pfld x 0x11 1 > 1 then .next (badField s k 0x11)
    else if !jobActs s j.id then .next s
    else
      let b := barrierAt s bid
      if !b.arr.isEmpty then .next (badField s k noField)
      else
        let masks := (List.range 144).foldl (fun m i => arrSet m i (BitVec.ofNat 16 (pfld x (0x40 + 2 * i) 2)) 0) ([] : Arr (BitVec 16))
        .next (replyOk (setBarrier (early s x) bid { b with
          en := pfld x 0x11 1 = 1, tmo := BitVec.ofNat 32 (pfld x 0x14 4), bmask := BitVec.ofNat 144 (pfld x 0x20 18), tmask := masks }) k 0 0)

/-! ### The host stream (R346, 10 R257, R258) -/

/-- One message of the hub goes to the device its word names; one for a device that is not there is discarded and counted. -/
def streamInject (s : State) (dest epoch : Nat) (payload : List Byte) : State :=
  let d := nbits dest 37 32
  let m0 := hubMessage s (dest % 2 ^ 32) epoch 2 payload
  let m := if d = deviceId s then m0 else { m0 with ddev := d, dgen := farGeneration s d m0.dtile }
  if m.ddev = deviceId s then hubInject s m
  else if deviceReady s && inMembers s m.ddev && s.casc.present.contains m.ddev then
    sendTo s m.ddev (flowHash m) { ftype := 0, lvc := 1, seq := 0, sdev := deviceId s, body := headFlit m ++ m.payload }
  else { s with casc := { s.casc with discarded := s.casc.discarded + 1 } }

/-- Messages that can be sent whole from what the FIFO holds, while no change of routes holds them (17 R400). -/
def streamSend (dest epoch msg : Nat) (p : Nat) : Nat → Nat → Nat → State → State × Nat × Nat
  | 0, left, n, s => (s, left, n)
  | f + 1, left, n, s =>
    let take := min (32 * msg) left
    let bs := (portN s p).fifo.bytes
    if left = 0 ∨ bs.length < take ∨ s.casc.heldFor.contains (nbits dest 37 32) then (s, left, n)
    else
      let s1 := modPort s p fun x => { x with fifo := { x.fifo with bytes := x.fifo.bytes.drop take } }
      streamSend dest epoch msg p f (left - take) (n + 1) (streamInject s1 dest epoch (bs.take take))

/-- STREAM_SUBMIT (R346): it begins once the threshold, or all of its data, has arrived; `count` holds the messages sent. A switch
of its job, until the restore, or another STREAM_SUBMIT of the port in progress holds it (15 R359). -/
def execStreamSubmit (k : Nat) (s : State) : Outcome :=
  withJob s k 0x0500 fun x j =>
    let dest := pfld x 0x10 8
    let msg := pfld x 0x19 1
    let len := pfld x 0x20 8
    if nbits dest 63 38 ≠ 0 ∨ nbits dest 31 20 > 2303 then .next (badField s k 0x10)
    else if msg < 1 ∨ msg > 64 then .next (badField s k 0x19)
    else if len % 32 ≠ 0 then .next (badField s k 0x20)
    else if switchingNow s ∨ j.state = .preempted ∨ s.out.any (fun y => y.port = x.port && y.ticket ≠ k && y.sent && pOpcode y = 0x0500) then .next s
    else
      let f := (portN s x.port).fifo
      let left := len - 32 * msg * x.count
      if !x.sent ∧ fifoOcc f < min f.thr (left / 32) then .next s
      else
        let r := streamSend dest (pfld x 0x18 1) msg x.port (f.bytes.length / 32 + 1) left x.count (early s x)
        let s1 := fifoMark (modPacket r.1 k fun y => { y with sent := true, count := r.2.2 }) x.port
        .next (if r.2.1 = 0 then replyOk s1 k r.2.2 0 else s1)

/-- HOSTFIFO_CONFIG (10 R257 to R260, 22 R504). -/
def execHostfifoConfig (k : Nat) (s : State) : Outcome :=
  withCmd s k 0x0501 fun x =>
    let hwm := pfld x 0x10 4
    let lwm := pfld x 0x14 4
    if hwm > 262144 then .next (badField s k 0x10)
    else if lwm ≥ hwm then .next (badField s k 0x14)
    else
      let s1 := modPort (early s x) x.port fun p => { p with fifo := { p.fifo with hwm := hwm, lwm := lwm, thr := pfld x 0x18 4 } }
      .next (replyOk (fifoMark s1 x.port) k 0 0)

/-! ### TELEMETRY, ERRLOG_READ, RETRAIN -/

/-- A counter of a Jorzin port's block (17 R406): offset 8i. FEC corrections come with no command: a free value. -/
def portCounter (s : State) (p i : Nat) : Nat :=
  let j := jportN s p
  match i with
  | 3 => Config.reading s.fresh (300 + p)
  | 5 => j.lanes % 16 + j.dev % 64 * 2 ^ 4 + j.fport % 16 * 2 ^ 10 + 2 ^ 14 * b2n j.up
  | _ => (arrGet j.counters i 0).toNat

/-- The counters that the rules put on a page without an offset: the excursions (16 R392), the Level's ore bin (08 R210), the resets and
discards of the hub queues (10 R259). -/
def pageWords (s : State) (page n : Nat) : List Nat :=
  match page with
  | 0 => [s.power.excursions.toNat]
  | 1 => let b := s.bins.getD n binReset; [b.hits.toNat, b.misses.toNat]
  | 3 => (List.range 104).map fun i => (arrGet s.hubCtr i 0).toNat
  | _ => []

/-- A page of TELEMETRY for Level n (14 R337): counters without an offset stand together at an open place, and every other byte that the
spec says nothing of is free (log 66). -/
def telemetryPage (s : State) (page n : Nat) : List Byte :=
  let free := fun (lo len : Nat) => (List.range len).map fun i => Config.openByte s.fresh (100 + 4 * page + n) (lo + i)
  if page = 2 then
    (List.range 12).flatMap (fun p => (List.range 16).flatMap fun i => leBytes 8 (if i < 8 then portCounter s p i else 0)) ++
      leBytes 8 s.casc.discarded.toNat ++ List.replicate 0x1F8 0 ++ free 0x800 0x800
  else
    let ws := pageWords s page n
    splice (free 0 4096) (8 * (Config.reading 0 (700 + page) % (513 - ws.length))) (ws.flatMap (leBytes 8))

/-- TELEMETRY (14 R337): one page for each selected Level, in ascending order. -/
def execTelemetry (k : Nat) (s : State) : Outcome :=
  withCmd s k 0x0A00 fun x =>
    let page := pfld x 0x18 2
    if page > 3 then .next (badField s k 0x18)
    else
      let ls := (List.range 4).filter (nbit (pLvl x))
      .next (replyOk (bumpFresh (hostWrite (early s x) x.port (pfld x 0x10 8) (ls.flatMap (telemetryPage s page)))) k 0 0)

/-- The 64 bytes of an error record (18 R443). -/
def recordBytes (r : ErrRec) : List Byte :=
  let sev := r.sev % 4 + 4 * b2n r.lasting + 8 * b2n r.summary + 16 * b2n r.copy
  let b := leBytes 8 r.seq ++ leBytes 8 r.shaft ++ leBytes 2 r.status ++ leBytes 1 sev ++ leBytes 1 r.src ++ leBytes 2 r.job ++
    leBytes 1 r.dev ++ [0] ++ leBytes 2 r.domain ++ [0, 0] ++ leBytes 4 r.system ++ leBytes 4 r.loc0 ++ leBytes 4 r.loc1 ++
    (List.range 5).flatMap fun i => leBytes 4 (r.detail.getD i 0)
  b ++ leBytes 4 (crc32 b)

/-- Records FIRST to FIRST + COUNT − 1 that are held, ascending (18 R445). -/
def recordsHeld (e : Errs) (first count : Nat) : List ErrRec :=
  let on := fun (r : ErrRec) => decide (first ≤ r.seq) && decide (r.seq < first + count)
  let ring := (e.ring.filter on).reverse
  ((e.frozen.filter on).reverse.filter fun r => !ring.any fun x => x.seq = r.seq) ++ ring

/-- ERRLOG_READ (18 R445): a freeze area that has been read whole is given up. -/
def execErrlogRead (k : Nat) (s : State) : Outcome :=
  withCmd s k 0x0A01 fun x =>
    let count := pfld x 0x20 2
    if count < 1 ∨ count > 1024 then .next (badField s k 0x20)
    else
      let rs := recordsHeld s.errs (pfld x 0x18 8) count
      let left := s.errs.unread.filter fun n => !rs.any fun r => r.seq = n
      let newest := if s.errs.next = 0 then 0xFFFFFFFF else s.errs.next - 1
      let s1 := hostWrite (early s x) x.port (pfld x 0x10 8) (rs.flatMap recordBytes)
      .next (replyOk { s1 with errs := { s1.errs with unread := left, frozen := if left.isEmpty then [] else s1.errs.frozen } } k rs.length newest)

/-- RETRAIN (17 R405, 20 R479): memory keeps its contents; a Jorzin port's flows move off it first, and the reply follows
PORT_RETRAIN_END. -/
def execRetrain (k : Nat) (s : State) : Outcome :=
  withCmd s k 0x0A04 fun x =>
    let target := pfld x 0x10 1
    let id := pfld x 0x12 2
    if target > 2 then .next (badField s k 0x10)
    else if id ≥ (if target = 0 then 16 else if target = 1 then 24 else 12) then .next (badField s k 0x12)
    else if target < 2 then .next (replyOk (early s x) k 0 0)
    else if x.sent ∨ (jportN s id).retraining then .next s
    else .next (modJPort (portDown (modPacket (early s x) k fun y => { y with sent := true }) id) id fun j => { j with retraining := true })

end Sys2Proof.Machine
end

