-- ==== Sys2Proof/Machine/Security.lean ====
section
/-! DEFINITION. Identity and firmware: live update, attestation, debug unlock, ownership and re-delivery over the management port, SPDM,
IDE and the random generator (20 R458 to R481). -/

namespace Sys2Proof.Machine

def modSec (s : State) (f : Sec → Sec) : State := { s with sec := f s.sec }

/-- A word drawn from the generator (R465). -/
def drawWord (s : State) : Nat := (Config.randomWord s.rng).toNat
def drawBytes (s : State) (n : Nat) : List Byte := (List.range (cdiv n 8)).flatMap fun i => leBytes 8 (Config.randomWord (s.rng + i)).toNat
def drawn (s : State) (n : Nat) : State := { s with rng := s.rng + n }

/-! ### Live update (R474 to R477) -/

/-- Check 3 of R474: the entries that must stay as they are, and the component's own. -/
def manifestOk (s : State) (h body : List Byte) (c : Nat) : Bool :=
  let old := flashHeader s
  (List.range 11).all (fun i => i = c || entryBytesOf h i = entryBytesOf old i) && entryOffset h c = entryOffset old c &&
    entryLen h c = body.length && entryDigest h c = sha384 body &&
    (c = 0 || c = 6 || c = 7 || c = 9 || entryCompat h c = leAt (runningManifest s) (80 * c + 0x18) 4)

/-- UPDATE_COMPONENT (R474): `pkg` is what host memory holds at SRC; a second update waits for the first. -/
def execUpdateComponent (k : Nat) (pkg : List Byte) (psigOk osigOk : Bool) (s : State) : Outcome :=
  withCmd s k 0x0900 fun x =>
    let len := pfld x 0x18 4
    let c := pfld x 0x1C 1
    let h := slice pkg 0 4096
    let body := slice pkg 4096 (len - 4096)
    if s.sec.update.isSome then .next s
    else if len < 4096 ∨ len > 4096 + 12582912 then .next (badField s k 0x18)
    else if c > 9 then .next (badField s k 0x1C)
    else if !imageHeaderOk h then .next (badField s k noField)
    else if !psigOk ∨ (needsCosign s ∧ !osigOk) then .next (refuse s k stSignature 0)
    else if !manifestOk s h body c then .next (badField s k noField)
    else if entrySvn h c < floorOf s c then .next (refuse s k stRollback 0)
    else
      let s1 := modPacket (accept s k 0) k fun y => { y with sent := true }
      .next (signalBoth (modSec s1 fun e => { e with
        update := some { ticket := k, comp := c, body := body, header := h, osig := osigOk, swapped := false } }) 1022)

/-- The quiescent point of a component (R475): a Level controller's Level takes part in nothing that needs it. A WARM or LEVEL
reset holds the swap (R477). -/
def quiescent (s : State) (c : Nat) : Bool :=
  if s.resets.any (fun r => r.kind ≤ 1) then false
  else if 2 ≤ c ∧ c ≤ 5 then
    let n := c - 2
    let meets := fun (r : Rect) => rectMeetsLevel r n
    let replay := s.launches.any fun l => l.stage = .running && s.comp = some l.job && imageRpl l.img && meets l.rect
    (match s.load with | some l => !meets l.img.rect | none => true) && s.errs.recov.isNone && !switchingNow s && !replay &&
      s.out.all fun x => !(pOpcode x = 0x0A02 && x.sent && nbit (pLvl x) n)
  else true

/-- COMPONENT_SWAP (R472, R475, R476): the component runs; BS is not swapped but runs from the next start. -/
def execComponentSwap (s : State) : Outcome :=
  match s.sec.update with
  | some u =>
    if u.swapped ∨ u.comp = 0 ∨ !quiescent s u.comp ∨ s.module ≠ .on then .next s
    else .next (signalBoth { modSec s (fun e => { e with
      update := some { u with swapped := true }
      running := splice (runningManifest s) (80 * u.comp) (entryBytesOf u.header u.comp)
      sessions := []
      certGen := e.certGen + 1 }) with
      power := if u.comp = 8 then { s.power with quiet := 2 } else s.power } 1022)
  | none => .next s

/-- FLASH_REWRITE_DONE (R476, R467). -/
def execFlashRewriteDone (s : State) : Outcome :=
  match s.sec.update with
  | some u =>
    if (!u.swapped ∧ u.comp ≠ 0) ∨ s.module ≠ .on then .next s
    else
      let s1 := applyUpdate s u
      .next (signalBoth (replyOk (modSec s1 fun e => { e with update := none }) u.ticket 0 0) 1022)
  | none => .next s

/-! ### Measurements and ATTEST (R470, R471) -/

/-- Measurement block i, 1 to 16: what the spec gives no value for is fixed and free (log 36). -/
def measurement (s : State) (i : Nat) : List Byte :=
  let free := fun (lo n : Nat) => (List.range n).map fun b => Config.openByte 0 (200 + i) (lo + b)
  let tail :=
    if 2 ≤ i ∧ i ≤ 12 then
      let e := slice (runningManifest s) (80 * (i - 2)) 80
      slice e 4 12 ++ slice e 0x20 48
    else if i = 13 then leBytes 4 s.assay.hallmark.toNat ++ leBytes 8 0 ++ leBytes 48 s.assay.af.toNat
    else if i = 14 then free 0 12 ++ sha384 (slice (flashHeader s) 0 0x380)
    else if i = 15 then free 0 12 ++ (List.range 48).map (Config.openByte ((s.sec.floor.map (·.counter)).getD 0) 215)
    else if i = 16 then free 0 12 ++ sha384 [BitVec.ofNat 8 (b2n s.sec.unlocked)]
    else free 0 60
  [BitVec.ofNat 8 i, 0, 0, 0] ++ tail

def measurements (s : State) : List Byte := (List.range 16).flatMap fun i => measurement s (i + 1)

/-- ATTEST (R471): the bytes at 0x030 begin with the DeviceID KEYID (R460), the rest of that hash is free. -/
def execAttest (k : Nat) (s : State) : Outcome :=
  withCmd s k 0x0901 fun x =>
    if pfld x 0x18 4 < 1184 then .next (badField s k 0x18)
    else
      let report := [0x50, 0x4C, 0x41, 0x37, 1, 0, 16, 0] ++ leBytes 8 (shaftCount s) ++ slice x.bytes 0x20 32 ++
        leBytes 8 Config.deviceKeyId ++ (List.range 8).map (Config.openByte 0 220) ++ measurements s
      .next (replyOk (bumpFresh (hostWrite (early s x) x.port (pfld x 0x10 8) (report ++ signed s report))) k 1184 0)

/-! ### DEBUG_UNLOCK (R480, R464) -/

/-- The signer the token must name: the owner, or Plaend's debug key on an unowned device. -/
def unlockKeyId (s : State) : Nat := match s.sec.floor with
  | some f => if f.owner.isEmpty then Config.debugKeyId else keyId f.owner
  | none => Config.debugKeyId

def tokenOk (s : State) (t : List Byte) (sigOk : Bool) : Bool :=
  sigOk && leAt t 0 8 = Config.deviceKeyId && s.sec.debugNonce = some (leAt t 8 8) && leAt t 0x10 8 = unlockKeyId s && leAt t 0x18 8 = 0

/-- What a valid token does, in order: jobs and regions go, the key store is erased with the reserved areas, key slot 0 and a signing key
are generated, JTAG opens. -/
def unlockDevice (s : State) : State :=
  let js := s.jobs.map (·.id)
  let s1 := jobReset (js.foldl (fun a j => failJob a j stFaultFatal) s) 0
  let s2 := js.foldl unbindQueues s1
  let s3 := s2.regions.foldl destroyRegion s2
  let s4 := memCanon
    { s3 with mem := s3.mem.filter fun c => !isReserved c.1, saves := [], errs := { s3.errs with frozen := [], unread := [] } }
  let s5 := { rebuildRing s4 with
    ports := s4.ports.map fun p => { p with ide := [] }, keys := [(0, drawKey s4.rng)], jtag := true, rng := s4.rng + 11 }
  modSec s5 fun e => { e with unlocked := true, unlockKey := privateKey (drawBytes { s4 with rng := s4.rng + 4 } 56) }

/-- DEBUG_UNLOCK (R480): LEN 0 returns a challenge; it waits for an update's final reply (R477). -/
def execDebugUnlock (k : Nat) (token : List Byte) (sigOk : Bool) (s : State) : Outcome :=
  withCmd s k 0x0902 fun x =>
    let len := pfld x 0x18 4
    if s.sec.update.isSome then .next s
    else if len = 0 then
      if s.sec.rngWait then .next s
      else
        let v := drawWord s
        .next (replyOk (modSec (drawn (early s x) 1) fun e => { e with debugNonce := some v }) k (v % 2 ^ 32) (v / 2 ^ 32))
    else if len ≠ 128 then .next (badField s k 0x18)
    else
      let s1 := modSec (early s x) fun e => { e with debugNonce := none }
      if tokenOk s token sigOk then .next (replyOk (unlockDevice s1) k 0 0) else .next (refuse s1 k stSignature 0)

/-! ### The management port (R468, R478) -/

/-- The I3C endpoint answers from step 1 of start-up on (19 R456). -/
def mctpUp (s : State) : Bool := match s.module with | .on | .failed _ => true | _ => false

def mgmtAnswer (s : State) (code : Nat) (bs : List Byte) : State :=
  { s with answers := s.answers ++ [{ who := .management, code := code, bytes := bs }] }

/-- GET_CHALLENGE (R468). -/
def execGetChallenge (s : State) : Outcome :=
  if !mctpUp s ∨ s.sec.rngWait then .next s
  else
    let v := drawWord s
    .next (mgmtAnswer (modSec (drawn s 1) fun e => { e with mctpNonce := some v }) 0 (leBytes 8 v))

/-- A signed message: its signature, its challenge, which serves this one message, and whether it is permitted. -/
def signedMessage (s : State) (m : SignedMsg) (permitted : Bool) (f : State → State) : Outcome :=
  if !mctpUp s then .next s
  else if !m.sigOk ∨ m.keyid ≠ Config.deviceKeyId then .next (mgmtAnswer s 1 [])
  else if s.sec.mctpNonce ≠ some m.challenge then .next (mgmtAnswer s 2 [])
  else
    let s1 := modSec s fun e => { e with mctpNonce := none }
    if permitted then .next (mgmtAnswer (f s1) 0 []) else .next (mgmtAnswer s1 3 [])

/-- A new floor record is written (R466). -/
def writeFloor (s : State) (f : FloorRec) : State := modSec s fun e => putFloor e f

/-- SVNs of the flash image's entries. -/
def imageSvns (s : State) : List Nat := (List.range 11).map (entrySvn (flashHeader s))

/-- TAKE_OWNERSHIP (R468). -/
def execTakeOwnership (m : SignedMsg) (owner : List Byte) (s : State) : Outcome :=
  signedMessage s m (!owned s) fun s1 =>
    writeFloor s1 { (s.sec.floor.getD { floors := imageSvns s, owner := [], cosign := false, keys := [], counter := 0 }) with owner := owner }

/-- A change of the floor record by its owner. -/
def ownerChange (s : State) (m : SignedMsg) (permitted : Bool) (f : FloorRec → FloorRec) : Outcome :=
  signedMessage s m (owned s && permitted) fun s1 => match s1.sec.floor with | some r => writeFloor s1 (f r) | none => s1

/-- SET_POLICY (R468): at most eight image-signing keys (R466). -/
def execSetPolicy (m : SignedMsg) (cosign : Bool) (keys : List (Nat × List Byte)) (s : State) : Outcome :=
  ownerChange s m (s.jobs.isEmpty && decide (keys.length ≤ 8)) fun r => { r with cosign := cosign, keys := keys }

/-- SET_FLOOR (R468). -/
def execSetFloor (m : SignedMsg) (floors : List Nat) (s : State) : Outcome :=
  ownerChange s m true fun r => { r with
    floors := (List.range 11).map fun c => max (max (r.floors.getD c 0) (floors.getD c 0)) (entrySvn (flashHeader s) c) }

/-- RELEASE_OWNERSHIP (R468): floors are kept. -/
def execReleaseOwnership (m : SignedMsg) (s : State) : Outcome :=
  ownerChange s m s.jobs.isEmpty fun r => { r with owner := [], cosign := false, keys := [] }

/-- The failure code that R461 gives a whole image. -/
def imageCode (s : State) (img : List Byte) (psigOk osigOk : Bool) : Option Nat :=
  let h := slice img 0 4096
  imageVerdict s h (fun c => some (slice img (entryOffset h c) (entryLen h c))) psigOk osigOk

/-- The image stands in flash; R467 is applied when it passed its checks. -/
def writeImage (s : State) (img : List Byte) (psigOk osigOk ok : Bool) : State :=
  let h := slice img 0 4096
  modSec s fun e =>
    let e1 := { e with
      header := h
      bodies := (List.range 11).map fun c => (c, if entryAbsent h c then [] else slice img (entryOffset h c) (entryLen h c))
      psig := psigOk
      osig := osigOk }
    if ok then raiseFloors e1 h (List.range 11) else e1

/-- DELIVER_IMAGE (R478): a failed module is written first and checked after; a running one checks first. Success restarts the
module as MRST does (R458). -/
def execDeliverImage (img : List Byte) (psigOk osigOk : Bool) (s : State) : Outcome :=
  let code := imageCode s img psigOk osigOk
  let reply := fun (c : Nat) => if c = 4 then 4 else if c = 5 then 3 else 1
  match s.module with
  | .failed f =>
    if f = 3 ∨ f = 4 ∨ f = 7 ∨ f = 9 then
      match code with
      | none => .next (moduleDown (mgmtAnswer (writeImage s img psigOk osigOk true) 0 []) .mrst)
      | some c => .next (mgmtAnswer { writeImage s img psigOk osigOk false with module := .failed c } (reply c) [])
    else .next (mgmtAnswer s 3 [])
  | .on =>
    if s.sec.update.isSome then .next s
    else if !deviceReady s ∨ !s.jobs.isEmpty then .next (mgmtAnswer s 3 [])
    else match code with
      | none => .next (moduleDown (mgmtAnswer (writeImage s img psigOk osigOk true) 0 []) .mrst)
      | some c => .next (mgmtAnswer s (reply c) [])
  | _ => .next s

/-! ### SPDM (R469 to R472) -/

/-- Transport tr: 2p + f is the DOE mailbox of function f of port p, 4 the I3C endpoint. -/
def spdmUp (s : State) (tr : Nat) : Bool := s.module = .on && (tr = 4 || hostReaches s (tr / 2) (tr % 2))

def spdmAnswer (s : State) (tr code : Nat) (bs : List Byte) : State :=
  { s with answers := s.answers ++ [{ who := .spdm tr, code := code, bytes := bs }] }

/-- SPDM error codes (DSP0274; log 37). -/
def spdmInvalid : Nat := 1
def spdmUnexpected : Nat := 4
def spdmDecrypt : Nat := 6
def spdmUnsupported : Nat := 7
def spdmLimit : Nat := 10

/-- A request on a transport, in its turn: after the requests that must come before it. -/
def withSpdm (s : State) (tr : Nat) (ready : Bool) (f : Outcome) : Outcome :=
  if tr > 4 then .fault .noPort
  else if !spdmUp s tr then .next s
  else if ready then f
  else .next (spdmAnswer s tr spdmUnexpected [])

def isReady (s : State) (tr : Nat) : Bool := s.sec.negotiated.contains tr

/-- GET_VERSION (R469): the conversation begins anew. -/
def execGetVersion (tr : Nat) (s : State) : Outcome :=
  withSpdm s tr true <| .next (spdmAnswer (modSec s fun e => { e with
    versioned := tr :: e.versioned.filter (· ≠ tr), capable := e.capable.filter (· ≠ tr), negotiated := e.negotiated.filter (· ≠ tr)
    sessions := e.sessions.filter (·.tr ≠ tr) }) tr 0 [0x13])

/-- GET_CAPABILITIES (R469): the flags' encoding is not in the spec. -/
def execGetCapabilities (tr : Nat) (s : State) : Outcome :=
  withSpdm s tr (s.sec.versioned.contains tr) <|
    .next (spdmAnswer (modSec s fun e => { e with capable := tr :: e.capable.filter (· ≠ tr) }) tr 0 ((List.range 12).map (Config.openByte 0 230)))

/-- NEGOTIATE_ALGORITHMS (R469): of the algorithms offered, 0 is ECDSA P-384, 1 SHA-384, 2 ECDHE secp384r1, 3 AES-256-GCM; all are
needed. -/
def execNegotiateAlgorithms (tr : Nat) (offered : List Nat) (s : State) : Outcome :=
  withSpdm s tr (s.sec.capable.contains tr) <|
    if (List.range 4).all offered.contains then
      .next (spdmAnswer (modSec s fun e => { e with negotiated := tr :: e.negotiated.filter (· ≠ tr) }) tr 0 [0, 1, 2, 3])
    else .next (spdmAnswer s tr spdmInvalid [])

/-- The digest and the bytes of the certificate chain of R463, issued anew at every swap: free. -/
def chainDigest (s : State) : List Byte := (List.range 48).map (Config.openByte s.sec.certGen 231)
def chainBytes (s : State) : List Byte :=
  (List.range (Config.reading s.sec.certGen 232 % 65536)).map (Config.openByte s.sec.certGen 232)

/-- GET_DIGESTS (R469). -/
def execGetDigests (tr : Nat) (s : State) : Outcome := withSpdm s tr (isReady s tr) <| .next (spdmAnswer s tr 0 (chainDigest s))

/-- GET_CERTIFICATE (R469): slot 0 only. -/
def execGetCertificate (tr slot : Nat) (s : State) : Outcome :=
  withSpdm s tr (isReady s tr) <| .next (if slot = 0 then spdmAnswer s tr 0 (chainBytes s) else spdmAnswer s tr spdmInvalid [])

/-- CHALLENGE (R469): the chain's digest, the responder's nonce, the requester's, the signature. -/
def execChallenge (tr slot : Nat) (nonce : List Byte) (s : State) : Outcome :=
  withSpdm s tr (isReady s tr) <|
    if slot ≠ 0 then .next (spdmAnswer s tr spdmInvalid [])
    else if s.sec.rngWait then .next s
    else
      let b := chainDigest s ++ drawBytes s 32 ++ slice nonce 0 32
      .next (bumpFresh (drawn (spdmAnswer s tr 0 (b ++ signed s b)) 4))

/-- GET_MEASUREMENTS (R470): index 0 asks how many blocks there are, 255 asks for all. -/
def execGetMeasurements (tr index : Nat) (s : State) : Outcome :=
  withSpdm s tr (isReady s tr) <| .next (
    if index = 0 then spdmAnswer s tr 0 [16]
    else if index = 255 then spdmAnswer s tr 0 (measurements s)
    else if index ≤ 16 then spdmAnswer s tr 0 (measurement s index)
    else spdmAnswer s tr spdmInvalid [])

/-- The lowest session number of a transport that is free. -/
def freeSession (s : State) (tr : Nat) : Option Nat :=
  (List.range 4).find? fun i => !s.sec.sessions.any fun x => x.tr = tr && x.id = i

/-- KEY_EXCHANGE (R469): four sessions a transport; the exchanged values are free. -/
def execKeyExchange (tr : Nat) (s : State) : Outcome :=
  withSpdm s tr (isReady s tr) <|
    match freeSession s tr with
    | none => .next (spdmAnswer s tr spdmLimit [])
    | some i =>
      if s.sec.rngWait then .next s
      else
        let s1 := modSec s fun e => { e with sessions := e.sessions ++ [{ tr := tr, id := i, finished := false, keygen := 0 }] }
        let b := leBytes 4 i ++ drawBytes s 128
        .next (bumpFresh (drawn (spdmAnswer s1 tr 0 (b ++ signed s b)) 16))

/-- The session of a request. -/
def sessionOf (s : State) (tr i : Nat) : Option Session := s.sec.sessions.find? fun x => x.tr = tr && x.id = i
def modSession (s : State) (tr i : Nat) (f : Session → Session) : State :=
  modSec s fun e => { e with sessions := e.sessions.map fun x => if x.tr = tr && x.id = i then f x else x }
def endSession (s : State) (tr i : Nat) : State :=
  modSec s fun e => { e with sessions := e.sessions.filter fun x => !(x.tr = tr && x.id = i) }

/-- A request inside a session, finished or not as it needs. -/
def withSession (s : State) (tr i : Nat) (finished : Bool) (f : Outcome) : Outcome :=
  withSpdm s tr (match sessionOf s tr i with | some x => x.finished = finished | none => false) f

/-- FINISH (R469): a MAC that does not verify ends the session. -/
def execFinish (tr sess : Nat) (macOk : Bool) (s : State) : Outcome :=
  withSession s tr sess false <| .next (
    if macOk then spdmAnswer (modSession s tr sess fun x => { x with finished := true }) tr 0 []
    else spdmAnswer (endSession s tr sess) tr spdmDecrypt [])

/-- HEARTBEAT (R469). -/
def execHeartbeat (tr sess : Nat) (s : State) : Outcome := withSession s tr sess true <| .next (spdmAnswer s tr 0 [])

/-- KEY_UPDATE (R469). -/
def execKeyUpdate (tr sess : Nat) (s : State) : Outcome :=
  withSession s tr sess true <| .next (spdmAnswer (modSession s tr sess fun x => { x with keygen := x.keygen + 1 }) tr 0 [])

/-- END_SESSION (R469). -/
def execEndSession (tr sess : Nat) (s : State) : Outcome :=
  withSession s tr sess true <| .next (spdmAnswer (endSession s tr sess) tr 0 [])

/-- UNSUPPORTED_REQUEST (R469). -/
def execUnsupportedRequest (tr code : Nat) (s : State) : Outcome :=
  withSpdm s tr true <| .next (spdmAnswer s tr spdmUnsupported [BitVec.ofNat 8 code])

/-- IDE_KM (R473): keys of the port's link stream (0) or selective streams (1, 2), inside a session of its PF0 mailbox. -/
def execIdeKm (p sess stream : Nat) (key : List Byte) (s : State) : Outcome :=
  withPort p <| withSession s (2 * p) sess true <|
    if stream > 2 then .next (spdmAnswer s (2 * p) spdmInvalid [])
    else .next (spdmAnswer (modPort s p fun x => { x with ide := arrPut x.ide stream key false }) (2 * p) 0 [])

/-! ### The random-bit generator (R465) -/

/-- RNG_RESEED: the health tests pass, and requests that waited may go on. -/
def execRngReseed (s : State) : Outcome := .next (modSec s fun e => { e with rngFails := 0, rngWait := false })

/-- RNG_HEALTH_FAILURE: requests wait; the third failure in a row is device-fatal. -/
def execRngHealthFailure (s : State) : Outcome :=
  if s.module ≠ .on then .next s
  else
    let s1 := modSec s fun e => { e with rngFails := e.rngFails + 1, rngWait := true }
    .next (if s1.sec.rngFails ≥ 3 ∧ !s1.errs.fatal then deviceFatal s1 stFaultFatal 0x0B 4 0 [] else s1)

end Sys2Proof.Machine
end

