-- ==== Sys2Proof/Machine/Dispatch.lean ====
section
/-! DEFINITION. The meaning of every command, one arm each. -/

namespace Sys2Proof.Machine

def exec (i : Instr) (s : State) : Host.Outcome State Fault Refusal :=
  match i with
  | .dispatch t => Sys2Proof.Machine.execDispatch t s
  | .pointerEntryRead t => Sys2Proof.Machine.execPointerEntryRead t s
  | .mark t q => Sys2Proof.Machine.execMark t q s
  | .cset t q => Sys2Proof.Machine.execCset t q s
  | .cget t q => Sys2Proof.Machine.execCget t q s
  | .mma t => Sys2Proof.Machine.execMma t s
  | .mmaz t => Sys2Proof.Machine.execMmaz t s
  | .mmaComplete t => Sys2Proof.Machine.execMmaComplete t s
  | .accsw t => Sys2Proof.Machine.execAccsw t s
  | .vrun t => Sys2Proof.Machine.execVrun t s
  | .vscan t => Sys2Proof.Machine.execVscan t s
  | .runComplete t => Sys2Proof.Machine.execRunComplete t s
  | .strm t => Sys2Proof.Machine.execStrm t s
  | .descriptorFetch t sl => Sys2Proof.Machine.execDescriptorFetch t sl s
  | .descriptorComplete t sl => Sys2Proof.Machine.execDescriptorComplete t sl s
  | .tagWaitResume t sl => Sys2Proof.Machine.execTagWaitResume t sl s
  | .deadlineMiss t sl => Sys2Proof.Machine.execDeadlineMiss t sl s
  | .strw t => Sys2Proof.Machine.execStrw t s
  | .wgbIdleFlush t line => Sys2Proof.Machine.execWgbIdleFlush t line s
  | .send t => Sys2Proof.Machine.execSend t s
  | .comb t => Sys2Proof.Machine.execComb t s
  | .recv t => Sys2Proof.Machine.execRecv t s
  | .recvPair t => Sys2Proof.Machine.execRecvPair t s
  | .recvFree t => Sys2Proof.Machine.execRecvFree t s
  | .tadd t q => Sys2Proof.Machine.execTadd t q s
  | .tdec t q => Sys2Proof.Machine.execTdec t q s
  | .twait t q => Sys2Proof.Machine.execTwait t q s
  | .barr t q => Sys2Proof.Machine.execBarr t q s
  | .bwait t q => Sys2Proof.Machine.execBwait t q s
  | .wfetch t => Sys2Proof.Machine.execWfetch t s
  | .tileFinished t => Sys2Proof.Machine.execTileFinished t s
  | .dataMessage n => Sys2Proof.Machine.execDataMessage n s
  | .contribution n => Sys2Proof.Machine.execContribution n s
  | .sendNotice n => Sys2Proof.Machine.execSendNotice n s
  | .queuePointerReset u => Sys2Proof.Machine.execQueuePointerReset u s
  | .spill t q => Sys2Proof.Machine.execSpill t q s
  | .noProgressTimeout t => Sys2Proof.Machine.execNoProgressTimeout t s
  | .routeHoldRelease src dst => Sys2Proof.Machine.execRouteHoldRelease src dst s
  | .tallyOperation n => Sys2Proof.Machine.execTallyOperation n s
  | .twaitSatisfied n => Sys2Proof.Machine.execTwaitSatisfied n s
  | .barrierArrival n => Sys2Proof.Machine.execBarrierArrival n s
  | .barrierRelease n => Sys2Proof.Machine.execBarrierRelease n s
  | .barrierTimeout bid => Sys2Proof.Machine.execBarrierTimeout bid s
  | .workFetch n => Sys2Proof.Machine.execWorkFetch n s
  | .workFetchReply n => Sys2Proof.Machine.execWorkFetchReply n s
  | .sqTailDoorbell p q v => Sys2Proof.Machine.execSqTailDoorbell p q v s
  | .cqHeadDoorbell p q v => Sys2Proof.Machine.execCqHeadDoorbell p q v s
  | .sqCfgWrite p q v be => Sys2Proof.Machine.execSqCfgWrite p q v be s
  | .cqCfgWrite p q v be => Sys2Proof.Machine.execCqCfgWrite p q v be s
  | .packetTake p q bytes => Sys2Proof.Machine.execPacketTake p q bytes s
  | .cqReplyWrite p q => Sys2Proof.Machine.execCqReplyWrite p q s
  | .cqCoalesceTimeout p q => Sys2Proof.Machine.execCqCoalesceTimeout p q s
  | .registerWrite p pf off v be => Sys2Proof.Machine.execRegisterWrite p pf off v be s
  | .bar2Access p off a => Sys2Proof.Machine.execBar2Access p off a s
  | .bar0LevelUnitAccess p off a => Sys2Proof.Machine.execBar0LevelUnitAccess p off a s
  | .hostFifoWrite p bytes => Sys2Proof.Machine.execHostFifoWrite p bytes s
  | .nop k => Sys2Proof.Machine.execNop k s
  | .identify k => Sys2Proof.Machine.execIdentify k s
  | .getStatus k => Sys2Proof.Machine.execGetStatus k s
  | .setFeature k => Sys2Proof.Machine.execSetFeature k s
  | .getFeature k => Sys2Proof.Machine.execGetFeature k s
  | .reset k => Sys2Proof.Machine.execReset k s
  | .resetRelease n => Sys2Proof.Machine.execResetRelease n s
  | .regionCreate k => Sys2Proof.Machine.execRegionCreate k s
  | .regionDestroy k => Sys2Proof.Machine.execRegionDestroy k s
  | .copy k dma => Sys2Proof.Machine.execCopy k dma s
  | .fill k => Sys2Proof.Machine.execFill k s
  | .regionProtect k => Sys2Proof.Machine.execRegionProtect k s
  | .jobOpen k => Sys2Proof.Machine.execJobOpen k s
  | .jobClose k => Sys2Proof.Machine.execJobClose k s
  | .jobPreempt k => Sys2Proof.Machine.execJobPreempt k s
  | .jobQuery k => Sys2Proof.Machine.execJobQuery k s
  | .sectionLoad k sigOk => Sys2Proof.Machine.execSectionLoad k sigOk s
  | .loadDrainDone => Sys2Proof.Machine.execLoadDrainDone s
  | .loadDrainTimeout => Sys2Proof.Machine.execLoadDrainTimeout s
  | .frameRecord => Sys2Proof.Machine.execFrameRecord s
  | .commandRecordWrite => Sys2Proof.Machine.execCommandRecordWrite s
  | .commandRecordBcast => Sys2Proof.Machine.execCommandRecordBcast s
  | .commandRecordWait => Sys2Proof.Machine.execCommandRecordWait s
  | .loadWaitTimeout => Sys2Proof.Machine.execLoadWaitTimeout s
  | .sectionLaunch k => Sys2Proof.Machine.execSectionLaunch k s
  | .sectionStart k => Sys2Proof.Machine.execSectionStart k s
  | .sectionStop k => Sys2Proof.Machine.execSectionStop k s
  | .sectionCommit k => Sys2Proof.Machine.execSectionCommit k s
  | .sectionSave k => Sys2Proof.Machine.execSectionSave k s
  | .sectionRestore k => Sys2Proof.Machine.execSectionRestore k s
  | .tallyMap k => Sys2Proof.Machine.execTallyMap k s
  | .tallySignal k => Sys2Proof.Machine.execTallySignal k s
  | .tallyWait k => Sys2Proof.Machine.execTallyWait k s
  | .barrierDefine k => Sys2Proof.Machine.execBarrierDefine k s
  | .streamSubmit k => Sys2Proof.Machine.execStreamSubmit k s
  | .hostfifoConfig k => Sys2Proof.Machine.execHostfifoConfig k s
  | .cascadeConfig k => Sys2Proof.Machine.execCascadeConfig k s
  | .cascadeForward k replies => Sys2Proof.Machine.execCascadeForward k replies s
  | .collective k others => Sys2Proof.Machine.execCollective k others s
  | .powerCeiling k => Sys2Proof.Machine.execPowerCeiling k s
  | .powerQuery k watts => Sys2Proof.Machine.execPowerQuery k watts s
  | .meterRead k => Sys2Proof.Machine.execMeterRead k s
  | .meterRecords k => Sys2Proof.Machine.execMeterRecords k s
  | .updateComponent k pkg psigOk osigOk => Sys2Proof.Machine.execUpdateComponent k pkg psigOk osigOk s
  | .componentSwap => Sys2Proof.Machine.execComponentSwap s
  | .flashRewriteDone => Sys2Proof.Machine.execFlashRewriteDone s
  | .attest k => Sys2Proof.Machine.execAttest k s
  | .debugUnlock k token sigOk => Sys2Proof.Machine.execDebugUnlock k token sigOk s
  | .telemetry k => Sys2Proof.Machine.execTelemetry k s
  | .errlogRead k => Sys2Proof.Machine.execErrlogRead k s
  | .selftest k failed => Sys2Proof.Machine.execSelftest k failed s
  | .tileRetire k => Sys2Proof.Machine.execTileRetire k s
  | .retrain k => Sys2Proof.Machine.execRetrain k s
  | .forcedSwitch => Sys2Proof.Machine.execForcedSwitch s
  | .switchDrainEnd => Sys2Proof.Machine.execSwitchDrainEnd s
  | .switchDrainTimeout => Sys2Proof.Machine.execSwitchDrainTimeout s
  | .switchScanEnd => Sys2Proof.Machine.execSwitchScanEnd s
  | .boundarySwitch => Sys2Proof.Machine.execBoundarySwitch s
  | .preemptWaitTimeout => Sys2Proof.Machine.execPreemptWaitTimeout s
  | .jobRestore => Sys2Proof.Machine.execJobRestore s
  | .restoreEnd => Sys2Proof.Machine.execRestoreEnd s
  | .rampWindow => Sys2Proof.Machine.execRampWindow s
  | .leaveTimeout k => Sys2Proof.Machine.execLeaveTimeout k s
  | .supplySample v => Sys2Proof.Machine.execSupplySample v s
  | .brownoutEnd => Sys2Proof.Machine.execBrownoutEnd s
  | .thermalSample die temp => Sys2Proof.Machine.execThermalSample die temp s
  | .thermalRestoreStep => Sys2Proof.Machine.execThermalRestoreStep s
  | .cascadeDemand d w => Sys2Proof.Machine.execCascadeDemand d w s
  | .cascadeShare w => Sys2Proof.Machine.execCascadeShare w s
  | .shareTimeout => Sys2Proof.Machine.execShareTimeout s
  | .resetCascade => Sys2Proof.Machine.execResetCascade s
  | .shcmdHalt => Sys2Proof.Machine.execShcmdHalt s
  | .throttle => Sys2Proof.Machine.execThrottle s
  | .freezeLog => Sys2Proof.Machine.execFreezeLog s
  | .shcmdBarrierRelease lines => Sys2Proof.Machine.execShcmdBarrierRelease lines s
  | .resume => Sys2Proof.Machine.execResume s
  | .shcmdMark => Sys2Proof.Machine.execShcmdMark s
  | .shbarReleased line => Sys2Proof.Machine.execShbarReleased line s
  | .shfltAsserted => Sys2Proof.Machine.execShfltAsserted s
  | .shackReleased => Sys2Proof.Machine.execShackReleased s
  | .shaftTick => Sys2Proof.Machine.execShaftTick s
  | .shaftRefEdge interval => Sys2Proof.Machine.execShaftRefEdge interval s
  | .shaftRefTimeout => Sys2Proof.Machine.execShaftRefTimeout s
  | .shclkLoss => Sys2Proof.Machine.execShclkLoss s
  | .cascadeReady => Sys2Proof.Machine.execCascadeReady s
  | .deviceLoss d => Sys2Proof.Machine.execDeviceLoss d s
  | .deviceJoin d => Sys2Proof.Machine.execDeviceJoin d s
  | .jorzinFrame p f crcOk => Sys2Proof.Machine.execJorzinFrame p f crcOk s
  | .jorzinAck p aseq => Sys2Proof.Machine.execJorzinAck p aseq s
  | .jorzinNack p aseq => Sys2Proof.Machine.execJorzinNack p aseq s
  | .jorzinCredit p c0 c1 c2 => Sys2Proof.Machine.execJorzinCredit p c0 c1 c2 s
  | .jorzinAckTimeout p => Sys2Proof.Machine.execJorzinAckTimeout p s
  | .portRetrainEnd p ok => Sys2Proof.Machine.execPortRetrainEnd p ok s
  | .jorzinRouteHoldRelease d => Sys2Proof.Machine.execJorzinRouteHoldRelease d s
  | .errorEvent e => Sys2Proof.Machine.execErrorEvent e s
  | .replayTimeout => Sys2Proof.Machine.execReplayTimeout s
  | .summaryRecord u => Sys2Proof.Machine.execSummaryRecord u s
  | .flashCountWrite => Sys2Proof.Machine.execFlashCountWrite s
  | .configScrub t off r => Sys2Proof.Machine.execConfigScrub t off r s
  | .scrubberCrcCheck n ok => Sys2Proof.Machine.execScrubberCrcCheck n ok s
  | .lockstepMismatch n => Sys2Proof.Machine.execLockstepMismatch n s
  | .lcHeartbeat n seen => Sys2Proof.Machine.execLcHeartbeat n seen s
  | .lcReloadWatchdog n => Sys2Proof.Machine.execLcReloadWatchdog n s
  | .hubWatchdogExpiry => Sys2Proof.Machine.execHubWatchdogExpiry s
  | .enterA1 u => Sys2Proof.Machine.execEnterA1 u s
  | .enterS1 t => Sys2Proof.Machine.execEnterS1 t s
  | .enterS2 n => Sys2Proof.Machine.execEnterS2 n s
  | .enterS3 => Sys2Proof.Machine.execEnterS3 s
  | .wakeComplete u => Sys2Proof.Machine.execWakeComplete u s
  | .por b => Sys2Proof.Machine.execPor b s
  | .mrst ns => Sys2Proof.Machine.execMrst ns s
  | .powerOff c => Sys2Proof.Machine.execPowerOff c s
  | .perstAssert p => Sys2Proof.Machine.execPerstAssert p s
  | .perstRelease p refclk => Sys2Proof.Machine.execPerstRelease p refclk s
  | .hotReset p => Sys2Proof.Machine.execHotReset p s
  | .flrPf0 p => Sys2Proof.Machine.execFlrPf0 p s
  | .flrPf1 p => Sys2Proof.Machine.execFlrPf1 p s
  | .linkDown p => Sys2Proof.Machine.execLinkDown p s
  | .linkUp p => Sys2Proof.Machine.execLinkUp p s
  | .failoverTimeout p => Sys2Proof.Machine.execFailoverTimeout p s
  | .getChallenge => Sys2Proof.Machine.execGetChallenge s
  | .takeOwnership m owner => Sys2Proof.Machine.execTakeOwnership m owner s
  | .setPolicy m cosign keys => Sys2Proof.Machine.execSetPolicy m cosign keys s
  | .setFloor m floors => Sys2Proof.Machine.execSetFloor m floors s
  | .releaseOwnership m => Sys2Proof.Machine.execReleaseOwnership m s
  | .deliverImage img psigOk osigOk => Sys2Proof.Machine.execDeliverImage img psigOk osigOk s
  | .getVersion tr => Sys2Proof.Machine.execGetVersion tr s
  | .getCapabilities tr => Sys2Proof.Machine.execGetCapabilities tr s
  | .negotiateAlgorithms tr offered => Sys2Proof.Machine.execNegotiateAlgorithms tr offered s
  | .getDigests tr => Sys2Proof.Machine.execGetDigests tr s
  | .getCertificate tr slot => Sys2Proof.Machine.execGetCertificate tr slot s
  | .challenge tr slot nonce => Sys2Proof.Machine.execChallenge tr slot nonce s
  | .getMeasurements tr index => Sys2Proof.Machine.execGetMeasurements tr index s
  | .keyExchange tr => Sys2Proof.Machine.execKeyExchange tr s
  | .finish tr sess macOk => Sys2Proof.Machine.execFinish tr sess macOk s
  | .heartbeat tr sess => Sys2Proof.Machine.execHeartbeat tr sess s
  | .keyUpdate tr sess => Sys2Proof.Machine.execKeyUpdate tr sess s
  | .endSession tr sess => Sys2Proof.Machine.execEndSession tr sess s
  | .unsupportedRequest tr code => Sys2Proof.Machine.execUnsupportedRequest tr code s
  | .ideKm p sess stream key => Sys2Proof.Machine.execIdeKm p sess stream key s
  | .rngReseed => Sys2Proof.Machine.execRngReseed s
  | .rngHealthFailure => Sys2Proof.Machine.execRngHealthFailure s
  | .assaySample uj mv => Sys2Proof.Machine.execAssaySample uj mv s
  | .own => Sys2Proof.Machine.execOwn s
  | .switch => Sys2Proof.Machine.execSwitch s
  | .restore => Sys2Proof.Machine.execRestore s
  | .free => Sys2Proof.Machine.execFree s
  | .close => Sys2Proof.Machine.execClose s
  | .interval => Sys2Proof.Machine.execInterval s
  | .brown => Sys2Proof.Machine.execBrown s
  | .read first count => Sys2Proof.Machine.execRead first count s
  | .beat => Sys2Proof.Machine.execBeat s
  | .assayLinkLost => Sys2Proof.Machine.execAssayLinkLost s
  | .assayPowerLoss => Sys2Proof.Machine.execAssayPowerLoss s
  | .sealOpen => Sys2Proof.Machine.execSealOpen s
  | .calibrationConstantWrite n v authOk => Sys2Proof.Machine.execCalibrationConstantWrite n v authOk s
  | .afReplace digest authOk => Sys2Proof.Machine.execAfReplace digest authOk s
  | .reseal authOk => Sys2Proof.Machine.execReseal authOk s
  | .powerOn => Sys2Proof.Machine.execPowerOn s
  | .mrstRelease b => Sys2Proof.Machine.execMrstRelease b s
  | .shfltReleased => Sys2Proof.Machine.execShfltReleased s
  | .shclkReturn => Sys2Proof.Machine.execShclkReturn s
  | .coolantInletTemperature above30 => Sys2Proof.Machine.execCoolantInletTemperature above30 s
  | .sealSwitchClosed => Sys2Proof.Machine.execSealSwitchClosed s
  | .assayDieStarted => Sys2Proof.Machine.execAssayDieStarted s
  | .messageToRetiredTile n => Sys2Proof.Machine.execMessageToRetiredTile n s
  | .gatePortMessage n => Sys2Proof.Machine.execGatePortMessage n s
  | .jorzinPortTrained p dev fport pith => Sys2Proof.Machine.execJorzinPortTrained p dev fport pith s
  | .configurationRequest p pf reg w => Sys2Proof.Machine.execConfigurationRequest p pf reg w s
  | .alertStatusRead => Sys2Proof.Machine.execAlertStatusRead s

end Sys2Proof.Machine
end

