-- ==== Sys2Proof/Machine/Tick.lean ====
section
/-! DEFINITION. The passing of one A-cycle, which is what the device does while no command waits (log 7): the stall counters of
06 R163, the M-cycle counts of 08 R190, R214 and 10 R270, R272, R274, and the hub-cycle count of 17 R406. -/

namespace Sys2Proof.Machine

/-! ### The A-clock of a tile -/

/-- The job of the running section that tile t belongs to. -/
def sectionJob (s : State) (t : Nat) : Option Job :=
  (s.launches.find? fun l => l.stage = .running && s.comp = some l.job && l.started.any fun u => substT s u = t).bind fun l => jobOf s l.job

/-- The lowest e that a source gives tile t (16 R394): a brownout hold and a lowered ceiling stretch the tiles of BE grants, THROTTLE
every tile, heat the tiles of its Level. -/
def tileE (s : State) (t : Nat) : Nat :=
  let p := s.power
  let every := min (if p.throt then 1 else p.eThrot) (p.eHeat.getD (levelOf t) 16)
  match sectionJob s t with
  | some j =>
    if j.lc then every
    else min every (min (if p.brown then holdE p else p.eBrown) (min (ceilE p) p.eCeil))
  | none => every

/-- The tile's A-clock edge of this A-cycle is delivered: e of each 16, which of them being free (16 R391, log 7). -/
def edgeDelivered (s : State) (t : Nat) : Bool :=
  decide (16 ≤ tileE s t) || decide ((s.clock + Config.choice (s.clock / 16)) % 16 < tileE s t)

/-! ### A-cycle counts -/

/-- The counter that unit queue k of the tile adds to when nothing completes (06 R163). -/
def queueStall (s : State) (t : Nat) (tl : Tile) (k : Nat) : Option Nat :=
  if (qGet tl.q k).isEmpty then some 14
  else headCause s t tl k

/-- The five unit queues count one A-cycle. -/
def countStalls (s : State) (t : Nat) (tl : Tile) : Tile :=
  { tl with
    sq := (List.range 5).foldl (fun q k => match queueStall s t tl k with | some c => bumpStall q (16 * k + c) | none => q) tl.sq }

/-! ### M-cycle counts -/

/-- A message for queue qn waits at tile t's ejection port. -/
def portWaiting (s : State) (t qn : Nat) : Bool :=
  s.net.any fun n => n.waiting && n.msg.ddev = deviceId s && n.msg.dtile = t && n.msg.dq = qn

/-- The receive queue's stall counter of an M-cycle in which a message waits for it (10 R274): the NXQ head's cause, EMPTY, or UNIT. -/
def recvStall (s : State) (t : Nat) (tl : Tile) : Nat := (queueStall s t tl 3).getD 6

/-- Add 1 to the chosen counter and to HELD (10 R274). -/
def countHeld (q : RecvQueue) (c : Nat) : RecvQueue :=
  let a := arrSet q.stall c (arrGet q.stall c 0 + 1) 0
  { q with stall := arrSet a 15 (arrGet a 15 0 + 1) 0 }

/-- The no-progress timer runs: the tile is RUNNING or HALTED and a head, or a stream, waits under MESH, MESSAGE or SLOT_TAG (10 R272). -/
def timerRuns (s : State) (t : Nat) (tl : Tile) : Bool := tileLive tl && !tilePaused s t && (deadlockWait s t tl).isSome

/-- One M-cycle of a tile's base half. -/
def countM (s : State) (t : Nat) (tl : Tile) : Tile :=
  let pad := { tl.pad with
    slots := tl.pad.slots.map fun x => if x.tagw then { x with tagwait := x.tagwait + 1 } else x
    wgb := tl.pad.wgb.map fun w => { w with idle := w.idle + 1 } }
  let held := (List.range 16).filter fun qn => portWaiting s t qn
  let net := held.foldl (fun n qn => modQueue n qn fun q => countHeld q (recvStall s t tl)) tl.net
  { tl with
    pad := pad
    net := if timerRuns s t tl then { net with npCount := net.npCount + 1 } else net }

/-- A message at its destination's ejection port has waited one M-cycle more (10 R270). -/
def ageNet (s : State) : State := { s with net := s.net.map fun n => if n.waiting then { n with age := n.age + 1 } else n }

/-! ### Hub-cycle counts -/

/-- Hub cycles in which a Jorzin port withholds credits, a queue of its being HIGH (17 R403, R406). -/
def countHub (s : State) : State :=
  { s with
    casc := { s.casc with
      jports := s.casc.jports.map fun j =>
        if j.high.any id then { j with counters := arrSet j.counters 6 (arrGet j.counters 6 0 + 1) 0 } else j } }

/-! ### The tick -/

/-- Tile t in the A-cycle (and the M-cycle, every second one: 01 R25). -/
def tickTile (s : State) (t : Nat) (tl0 : Tile) : Tile :=
  let edge := edgeDelivered s t
  let a := if tileLive tl0 && !tilePaused s t && edge then countStalls s t tl0 else tl0
  let tl := if edge && !tl0.mx.flight.isEmpty then { tl0 with mx := flightTick tl0.mx } else tl0
  if s.clock % 2 = 0 then
    let b := countM s t tl
    { b with sq := a.sq }
  else { tl with sq := a.sq }

/-- A replay's time in A-clock edges delivered to its tiles (18 R439). -/
def countReplay (s : State) : State :=
  match s.errs.recov with
  | none => s
  | some r =>
    if s.launches.any fun l => l.ticket = r.ticket && l.started.all fun t => edgeDelivered s (substT s t) then
      { s with errs := { s.errs with recov := some { r with edges := r.edges + 1 } } }
    else s

/-- One A-cycle of the device (log 7): the actions that were put off are taken as soon as they may be (18 R437), and every
counter that time moves counts. -/
def tick (s0 : State) : State :=
  if s0.module ≠ .on then { s0 with clock := s0.clock + 1 }
  else
    let s := countReplay (actFailover (actFailover (runDeferred s0) 0) 1)
    let s1 := { s with tiles := s.tiles.foldl (fun a p => arrSet a p.1 (tickTile s p.1 p.2) tileReset) s.tiles }
    let s2 := if s.clock % 2 = 0 then ageNet s1 else s1
    let s3 := if s.clock % 3 = 0 then countHub s2 else s2
    { s3 with clock := s3.clock + 1 }

end Sys2Proof.Machine
end

