-- ==== Sys2Proof/Decode.lean ====
section
/-! DEFINITION. Decoding of table words. The table of operations and events gives no row any bits (log 8): a command reaches the
block as a command, so no word spells one. -/

namespace Sys2Proof

/-- The command that a word of nbits bits spells: none does. -/
def decodeTableWord (_nbits _w : Nat) : Option Instr := none

end Sys2Proof
end

