-- ==== Sys2Proof/WellFormed.lean ====
section
/-! DEFINITION. Well-formed commands: every unit that a command names exists on the module. A command that is not well formed is
answered by the fault of the check it fails (Machine/Ops.lean). -/

namespace Sys2Proof.WellFormed

open Sys2Proof.Machine (unitExists eventExists)

/-- A tile number (01 R11, R12). -/
def isTile (t : Nat) : Bool := decide (t < 2304)

/-- A unit queue code (06 R135). -/
def isUnitQueue (q : Nat) : Bool := decide (q ≤ 4)

/-- A stream slot (08 R192). -/
def isSlot (sl : Nat) : Bool := decide (sl ≤ 5)

/-- A receive queue of a tile (10 R253). -/
def isRecvQueue (q : Nat) : Bool := decide (q ≤ 15)

/-- A PCIe port (14 R321). -/
def isPort (p : Nat) : Bool := decide (p ≤ 1)

/-- A submission or completion queue of a port: 0 to 15 of PF0, 16 of PF1 (14 R322). -/
def isPortQueue (q : Nat) : Bool := decide (q ≤ 16)

/-- A Jorzin port (17 R398). -/
def isJorzinPort (p : Nat) : Bool := decide (p ≤ 11)

/-- A Level (01 R11). -/
def isLevel (n : Nat) : Bool := decide (n ≤ 3)

/-- A barrier number: 64 device barriers and 4 cascade barriers (06 R160). -/
def isBarrier (b : Nat) : Bool := decide (b < 68)

/-- A die that reports a temperature (18 R444). -/
def isDie (d : Nat) : Bool := decide (d ≤ 8)

/-- An SPDM transport: two DOE mailboxes of each port, and the I3C endpoint (20 R469). -/
def isTransport (tr : Nat) : Bool := decide (tr ≤ 4)

/-- A queue with twin pointers (10 R259). -/
def isQueueRef (u : QueueRef) : Bool :=
  match u with
  | .tileQ t q => isTile t && isRecvQueue q
  | .hostFifo p => isPort p
  | .jorzinIn p lvc => isJorzinPort p && decide (lvc ≤ 2)
  | .combiner _ => true

/-- A unit that changes its power state (19 R449). -/
def isPowerUnit (u : PowerUnit) : Bool :=
  match u with
  | .tile t => isTile t
  | .level n => isLevel n
  | .device => true

end Sys2Proof.WellFormed

namespace Sys2Proof

open Sys2Proof.Machine (unitExists eventExists)
open Sys2Proof.WellFormed

/-- Every unit the command names exists. -/
def Instr.wf (i : Instr) : Bool :=
  match i with
  | .dispatch t => isTile t
  | .pointerEntryRead t => isTile t
  | .mark t q => isUnitQueue q && isTile t
  | .cset t q => isUnitQueue q && isTile t
  | .cget t q => isUnitQueue q && isTile t
  | .mma t => isTile t
  | .mmaz t => isTile t
  | .mmaComplete t => isTile t
  | .accsw t => isTile t
  | .vrun t => isTile t
  | .vscan t => isTile t
  | .runComplete t => isTile t
  | .strm t => isTile t
  | .descriptorFetch t sl => isSlot sl && isTile t
  | .descriptorComplete t sl => isSlot sl && isTile t
  | .tagWaitResume t sl => isSlot sl && isTile t
  | .deadlineMiss t sl => isSlot sl && isTile t
  | .strw t => isTile t
  | .wgbIdleFlush t _ => isTile t
  | .send t => isTile t
  | .comb t => isTile t
  | .recv t => isTile t
  | .recvPair t => isTile t
  | .recvFree t => isTile t
  | .tadd t q => isUnitQueue q && isTile t
  | .tdec t q => isUnitQueue q && isTile t
  | .twait t q => isUnitQueue q && isTile t
  | .barr t q => isUnitQueue q && isTile t
  | .bwait t q => isUnitQueue q && isTile t
  | .wfetch t => isTile t
  | .tileFinished t => isTile t
  | .dataMessage _ => true
  | .contribution _ => true
  | .sendNotice _ => true
  | .queuePointerReset u => isQueueRef u
  | .spill t q => isRecvQueue q && isTile t
  | .noProgressTimeout t => isTile t
  | .routeHoldRelease src dst => isTile src && isTile dst
  | .tallyOperation _ => true
  | .twaitSatisfied _ => true
  | .barrierArrival _ => true
  | .barrierRelease _ => true
  | .barrierTimeout bid => isBarrier bid
  | .workFetch _ => true
  | .workFetchReply _ => true
  | .sqTailDoorbell p q _ => isPort p && isPortQueue q
  | .cqHeadDoorbell p q _ => isPort p && isPortQueue q
  | .sqCfgWrite p q _ _ => isPort p && isPortQueue q
  | .cqCfgWrite p q _ _ => isPort p && isPortQueue q
  | .packetTake p q _ => isPort p && isPortQueue q
  | .cqReplyWrite p q => isPort p && isPortQueue q
  | .cqCoalesceTimeout p q => isPort p && isPortQueue q
  | .registerWrite p pf _ _ _ => isPort p && decide (pf ≤ 3)
  | .bar2Access p _ _ => isPort p
  | .bar0LevelUnitAccess p _ _ => isPort p
  | .hostFifoWrite p _ => isPort p
  | .nop _ => true
  | .identify _ => true
  | .getStatus _ => true
  | .setFeature _ => true
  | .getFeature _ => true
  | .reset _ => true
  | .resetRelease _ => true
  | .regionCreate _ => true
  | .regionDestroy _ => true
  | .copy _ _ => true
  | .fill _ => true
  | .regionProtect _ => true
  | .jobOpen _ => true
  | .jobClose _ => true
  | .jobPreempt _ => true
  | .jobQuery _ => true
  | .sectionLoad _ _ => true
  | .loadDrainDone => true
  | .loadDrainTimeout => true
  | .frameRecord => true
  | .commandRecordWrite => true
  | .commandRecordBcast => true
  | .commandRecordWait => true
  | .loadWaitTimeout => true
  | .sectionLaunch _ => true
  | .sectionStart _ => true
  | .sectionStop _ => true
  | .sectionCommit _ => true
  | .sectionSave _ => true
  | .sectionRestore _ => true
  | .tallyMap _ => true
  | .tallySignal _ => true
  | .tallyWait _ => true
  | .barrierDefine _ => true
  | .streamSubmit _ => true
  | .hostfifoConfig _ => true
  | .cascadeConfig _ => true
  | .cascadeForward _ _ => true
  | .collective _ _ => true
  | .powerCeiling _ => true
  | .powerQuery _ _ => true
  | .meterRead _ => true
  | .meterRecords _ => true
  | .updateComponent _ _ _ _ => true
  | .componentSwap => true
  | .flashRewriteDone => true
  | .attest _ => true
  | .debugUnlock _ _ _ => true
  | .telemetry _ => true
  | .errlogRead _ => true
  | .selftest _ _ => true
  | .tileRetire _ => true
  | .retrain _ => true
  | .forcedSwitch => true
  | .switchDrainEnd => true
  | .switchDrainTimeout => true
  | .switchScanEnd => true
  | .boundarySwitch => true
  | .preemptWaitTimeout => true
  | .jobRestore => true
  | .restoreEnd => true
  | .rampWindow => true
  | .leaveTimeout _ => true
  | .supplySample _ => true
  | .brownoutEnd => true
  | .thermalSample die _ => isDie die
  | .thermalRestoreStep => true
  | .cascadeDemand _ _ => true
  | .cascadeShare _ => true
  | .shareTimeout => true
  | .resetCascade => true
  | .shcmdHalt => true
  | .throttle => true
  | .freezeLog => true
  | .shcmdBarrierRelease _ => true
  | .resume => true
  | .shcmdMark => true
  | .shbarReleased line => decide (line ≤ 3)
  | .shfltAsserted => true
  | .shackReleased => true
  | .shaftTick => true
  | .shaftRefEdge _ => true
  | .shaftRefTimeout => true
  | .shclkLoss => true
  | .cascadeReady => true
  | .deviceLoss _ => true
  | .deviceJoin _ => true
  | .jorzinFrame p _ _ => isJorzinPort p
  | .jorzinAck p _ => isJorzinPort p
  | .jorzinNack p _ => isJorzinPort p
  | .jorzinCredit p _ _ _ => isJorzinPort p
  | .jorzinAckTimeout p => isJorzinPort p
  | .portRetrainEnd p _ => isJorzinPort p
  | .jorzinRouteHoldRelease _ => true
  | .errorEvent e => eventExists e
  | .replayTimeout => true
  | .summaryRecord u => unitExists u
  | .flashCountWrite => true
  | .configScrub t _ _ => isTile t
  | .scrubberCrcCheck n _ => isLevel n
  | .lockstepMismatch n => isLevel n
  | .lcHeartbeat n _ => isLevel n
  | .lcReloadWatchdog n => isLevel n
  | .hubWatchdogExpiry => true
  | .enterA1 u => isPowerUnit u
  | .enterS1 t => isTile t
  | .enterS2 n => isLevel n
  | .enterS3 => true
  | .wakeComplete u => isPowerUnit u
  | .por _ => true
  | .mrst _ => true
  | .powerOff _ => true
  | .perstAssert p => isPort p
  | .perstRelease p _ => isPort p
  | .hotReset p => isPort p
  | .flrPf0 p => isPort p
  | .flrPf1 p => isPort p
  | .linkDown p => isPort p
  | .linkUp p => isPort p
  | .failoverTimeout p => isPort p
  | .getChallenge => true
  | .takeOwnership _ _ => true
  | .setPolicy _ _ _ => true
  | .setFloor _ _ => true
  | .releaseOwnership _ => true
  | .deliverImage _ _ _ => true
  | .getVersion tr => isTransport tr
  | .getCapabilities tr => isTransport tr
  | .negotiateAlgorithms tr _ => isTransport tr
  | .getDigests tr => isTransport tr
  | .getCertificate tr _ => isTransport tr
  | .challenge tr _ _ => isTransport tr
  | .getMeasurements tr _ => isTransport tr
  | .keyExchange tr => isTransport tr
  | .finish tr _ _ => isTransport tr
  | .heartbeat tr _ => isTransport tr
  | .keyUpdate tr _ => isTransport tr
  | .endSession tr _ => isTransport tr
  | .unsupportedRequest tr _ => isTransport tr
  | .ideKm p _ _ _ => isPort p
  | .rngReseed => true
  | .rngHealthFailure => true
  | .assaySample _ _ => true
  | .own => true
  | .switch => true
  | .restore => true
  | .free => true
  | .close => true
  | .interval => true
  | .brown => true
  | .read _ _ => true
  | .beat => true
  | .assayLinkLost => true
  | .assayPowerLoss => true
  | .sealOpen => true
  | .calibrationConstantWrite _ _ _ => true
  | .afReplace _ _ => true
  | .reseal _ => true
  | .powerOn => true
  | .mrstRelease _ => true
  | .shfltReleased => true
  | .shclkReturn => true
  | .coolantInletTemperature _ => true
  | .sealSwitchClosed => true
  | .assayDieStarted => true
  | .messageToRetiredTile _ => true
  | .gatePortMessage _ => true
  | .jorzinPortTrained p _ _ _ => isJorzinPort p
  | .configurationRequest p pf reg _ => isPort p && decide (pf ≤ 1) && decide (reg ≤ 1023)
  | .alertStatusRead => true

end Sys2Proof
end

