-- ==== Sys2Proof/Safety.lean ====
section
/-! DEFINITION. The terms that statements use: when an instruction stands at the head of its queue with nothing to hold it, when a
sequencer runs, and when a packet's command may act. -/

namespace Sys2Proof.Machine

/-- The instruction with opcode op stands at the head of unit queue k of a live tile, and nothing holds the tile back (06 R135,
R139, R165; 16 R378). -/
abbrev AtHead (s : State) (t k op : Nat) (e : QEntry) : Prop :=
  t < 2304 ∧ tileLive (tileAt s t) = true ∧ tilePaused s t = false ∧ leaveWait s t = false ∧ headIs (tileAt s t) k op = some e

/-- The tile's sequencer runs and nothing holds it back (06 R135). -/
abbrev SeqRuns (s : State) (t : Nat) : Prop :=
  t < 2304 ∧ (tileAt s t).sq.st = .running ∧ (tileAt s t).sq.fault = false ∧ tilePaused s t = false

/-- Packet k is outstanding with this opcode, nothing fences it, and the device serves commands (14 R325, R332). -/
abbrev Taken (s : State) (k op : Nat) (x : Packet) : Prop :=
  packetN s k = some x ∧ pOpcode x = op ∧ fenced s x = false ∧ x.away = false ∧ s.module = .on ∧ s.s3 = false

/-- The same for a command of an open job (14 R336). -/
abbrev TakenJob (s : State) (k op : Nat) (x : Packet) (j : Job) : Prop := Taken s k op x ∧ jobOf s (pJob x) = some j

end Sys2Proof.Machine
end

