-- ==== Sys2Proof/Certificates/Slice0/Obligations.lean ====
section
/-! DEFINITION. The statements about the model, one proposition each. -/

open Sys2Proof Sys2Proof.Machine

/-- For every command c, queue rest and state s, step of s with c in front of rest is exec of c on s with the rest as its queue; on an empty queue step answers the state after one A-cycle (the model's choice, log 7). -/
def Obligations.StepTakesTheFrontCommand : Prop :=
  (∀ (c : Instr) (rest : List Instr) (s : State), step { s with pending := c :: rest } = exec c { s with pending := rest }) ∧
  (∀ s : State, s.pending = [] → step s = .next (tick s))

/-- For every command c and states s and u: if exec of c on s answers u, then u holds the same queue of waiting commands as s. -/
def Obligations.CommandsLeaveTheQueueAlone : Prop :=
  ∀ (c : Instr) (s u : State), exec c s = .next u → u.pending = s.pending

/-- For every command c and state s: exec of c on s answers a next state if and only if c is well formed (every tile, queue, slot, port, Level, die or barrier it names exists on the module); otherwise it answers a fault. No command is refused. Where the spec leaves a point of it open, the clause is the model's choice or reading: log 4. -/
def Obligations.WellFormedCommandsComplete : Prop :=
  ∀ (c : Instr) (s : State),
    ((∃ u, exec c s = .next u) ↔ c.wf = true) ∧ (c.wf = false → ∃ f, exec c s = .fault f) ∧ ∀ r, exec c s ≠ .refused r

/-- For every state s whose device memory is canonical (addresses strictly rising, no entry that an unlisted address reads as), if step of s answers u, then the memory of u is canonical. Where the spec leaves a point of it open, the clause is the model's choice or reading: log 12. -/
def Obligations.MemoryStaysCanonical : Prop :=
  ∀ s u : State, memWf s = true → step s = .next u → memWf u = true

/-- At reset: memory is canonical and every scratchpad byte reads 0; every tile is IDLE with ACC0 in FILL, ACC1 in IDLE, NPTIMER 0x0001_0000 and EPOCH 0; POWER_CEILING is 3,000 W; the reserve is 32 tiles, 8 of the highest numbers of each Level; every Jorzin port holds its initial credits (log rows name the values that are choices of the model); the ore bins, the error ring and the queue of commands are empty. Where the spec leaves a point of it open, the clause is the model's choice or reading: logs 2, 3, 5, 51. -/
def Obligations.ResetState : Prop :=
  memWf State.reset = true ∧
  (∀ t o, t < 2304 → o < 0x200000 → memByte State.reset (padBase t + o) = 0) ∧
  (∀ t, (tileAt State.reset t).sq.st = .idle ∧ (tileAt State.reset t).mx.st0 = .fill ∧ (tileAt State.reset t).mx.st1 = .idle ∧
    (tileAt State.reset t).net.npLimit = 0x10000 ∧ (tileAt State.reset t).net.epoch = 0) ∧
  State.reset.power.ceil = 3000 ∧
  (∀ l, l < 4 → State.reset.reserve.filter (fun t => levelOf t = l) = reserveOf [] 8 l) ∧
  (∀ p, p < 12 → (jportN State.reset p).credits = [512, 8192, 8192]) ∧
  State.reset.bins = List.replicate 4 { lines := [], hits := 0, misses := 0 } ∧ State.reset.errs.ring = [] ∧ State.reset.pending = []

/-- On a running tile with w the instruction at PC: a full unit queue adds 1 to QFULL of that queue; otherwise a pending register that w reads or writes adds 1 to REG; otherwise a pointer entry that its slot tag holds back adds 1 to PTAG. With no entry to wait for, w goes to the end of its unit queue with the captured registers and loops, its destination registers become pending and PC advances; HALT makes the tile HALTED; JMP and a JNZ whose tested bits are not zero set PC to TGT (JNZ with DEC first subtracts 1) and count BRANCH; a JNZ whose tested bits are zero advances PC. Nothing but the tile changes (and gathered lines under the pointer lists are written back). Where the spec leaves a point of it open, the clause is the model's choice or reading: logs 4, 20. -/
def Obligations.DispatchExecutesOrEnqueues : Prop :=
  ∀ (s : State) (t : Nat), SeqRuns s t →
    let tl0 := tileAt s t
    let w := instrAt tl0.sq tl0.sq.pc
    let blocked := (regsRead w ++ regsWritten w).any fun r => bitAt tl0.sq.pend r
    let counts := fun (i : Nat) => exec (.dispatch t) s = .next (setTile s t { tl0 with sq := bumpStall tl0.sq i })
    (∀ k, queueOf w = some k → 16 ≤ (qGet tl0.q k).length → counts (0x50 + k)) ∧
    (∀ k, queueOf w = some k → (qGet tl0.q k).length < 16 → blocked = true → counts 0x55) ∧
    (queueOf w = none → blocked = true → counts 0x55) ∧
    (blocked = false → (∀ k, queueOf w = some k → (qGet tl0.q k).length < 16) → ∀ (ls : List ActiveLoop) (wait : Bool),
      refreshLoops (flushPtr s t) t (tileAt (flushPtr s t) t).sq.loops = .ok (ls, wait) →
      let u := flushPtr s t
      let tl : Tile := { tileAt u t with sq := { (tileAt u t).sq with loops := ls } }
      let q := tl.sq
      let gives := fun (q2 : Sequencer) => exec (.dispatch t) s = .next (setTile u t { tl with sq := q2 })
      (wait = true → gives (bumpStall q 0x56)) ∧
      (wait = false →
        (∀ k, queueOf w = some k → q.pc < 4095 →
          exec (.dispatch t) s = .next (setTile u t { tl with
            q := qSet tl.q k (qGet tl.q k ++ [{ idx := q.pc, seq := q.count, word := w, a := captureA tl w, b := captureB tl w,
                                                loops := ls, sent := false, ready := false }])
            sq := { bumpDispatched q with count := q.count + 1, pend := setPend q.pend (regsWritten w) true, pc := q.pc + 1 } })) ∧
        (opc w = 0x00 → gives { bumpDispatched q with st := .halted }) ∧
        (opc w = 0x01 → gives { bumpStall (bumpDispatched q) 0x57 with pc := fld w 11 0 }) ∧
        (opc w = 0x02 →
          let r := fld w 55 52
          let v := arrGet q.s r 0
          let tested := if bitAt w 50 then fld v 15 0 else v.toNat
          (tested = 0 → q.pc < 4095 → gives { bumpDispatched q with pc := q.pc + 1 }) ∧
          (tested ≠ 0 → gives { bumpStall (bumpDispatched (if bitAt w 51 then { q with s := arrSet q.s r (v - 1) 0 } else q)) 0x57 with
            pc := fld w 11 0 }))))

/-- On a running tile whose instruction no full queue and no pending register holds, and whose innermost loop still needs the entry of one pointer level l, whose slot is not empty: with bits [62:48] of the 64-bit entry at the list address plus 8 times the level's index all zero, the loop holds that entry afterwards and nothing but the tile changes; otherwise the tile ends with a job-fatal BAD_PARAM. Where the spec leaves a point of it open, the clause is the model's choice or reading: log 15. -/
def Obligations.PointerEntryIsReadOnce : Prop :=
  ∀ (s : State) (t l : Nat) (lp : ActiveLoop) (rest : List ActiveLoop), SeqRuns s t →
    let u := flushPtr s t
    let tl := tileAt u t
    let v : W64 := BitVec.ofNat 64 (leNat (padBytes u t (ptrAddr lp l) 8))
    dispatchStall (tileAt s t) (instrAt (tileAt s t).sq (tileAt s t).sq.pc) = none → tl.sq.loops = lp :: rest → ptrNeeded lp = some l → slotEmptyAt u t (ptrAddr lp l / 512) = false →
    (fld v 62 48 = 0 → ptrNeeded { lp with entries := lp.entries.set l (some v) } = none →
      exec (.pointerEntryRead t) s = .next (setTile u t { tl with
        sq := { tl.sq with loops := { lp with entries := lp.entries.set l (some v) } :: rest } })) ∧
    (fld v 62 48 ≠ 0 → exec (.pointerEntryRead t) s = .next (tileFatal u t 8 tl.sq.pc (badCond 1 [lp.ld])))

/-- On a running tile with PC 4,095 whose loops need no further entry, an instruction that is not held back and would advance PC (one for a unit queue with room, a JNZ not taken, a LEND that ends its loop, a PLIST of a level 0 to 5 whose list lies in the scratchpad) is a job-fatal BAD_PARAM of the sequencer at index 4,095. No DISPATCH moves the PC of any tile past 4,095. -/
def Obligations.DispatchPastTheLastIndexIsFatal : Prop :=
  (∀ (s : State) (t : Nat) (ls : List ActiveLoop), SeqRuns s t →
    refreshLoops (flushPtr s t) t (tileAt (flushPtr s t) t).sq.loops = .ok (ls, false) →
    let u := flushPtr s t
    let tl : Tile := { tileAt u t with sq := { (tileAt u t).sq with loops := ls } }
    let w := instrAt tl.sq 4095
    tl.sq.pc = 4095 → ((regsRead w ++ regsWritten w).any fun r => bitAt tl.sq.pend r) = false →
    ((∃ k, queueOf w = some k ∧ (qGet tl.q k).length < 16) ∨
      (opc w = 0x02 ∧ (if bitAt w 50 then fld (arrGet tl.sq.s (fld w 55 52) 0) 15 0 else (arrGet tl.sq.s (fld w 55 52) 0).toNat) = 0) ∨
      (opc w = 0x09 ∧ ∃ lp rest, ls = lp :: rest ∧ lp.ld = fld w 55 52 ∧ ldAdvance lp.desc (ldLevels lp.desc) lp.idx = none) ∨
      (opc w = 0x0A ∧ 8 * fld w 47 30 + 8 * (fld w 11 0 + 1) ≤ 0x200000 ∧ fld w 51 49 ≤ 5)) →
    exec (.dispatch t) s = .next (tileFatal u t 8 4095 { status := stBadParam, detail := [1] })) ∧
  (∀ (s u : State) (t : Nat), (∀ x, (tileAt s x).sq.pc ≤ 4095) → exec (.dispatch t) s = .next u → ∀ x, (tileAt u x).sq.pc ≤ 4095)

/-- For a MARK at the head of a unit queue with target s[SA] + IMM modulo 2^64 (RS = 1) or IMM (RS = 0): below the target it stays at the head and nothing else changes; at the target it leaves; above it, it leaves, and MARK_LATE gains 1, saturating, unless it had waited at the head. Only the tile changes. Where the spec leaves a point of it open, the clause is the model's choice or reading: log 26. -/
def Obligations.MarkWaitsForTheShaftCount : Prop :=
  ∀ (s : State) (t q : Nat) (e : QEntry), q ≤ 4 → AtHead s t q 0x03 e →
    let tl := tileAt s t
    let target := if bitAt e.word 48 then (e.a.toNat + fld e.word 31 0) % 2 ^ 64 else fld e.word 31 0
    (shaftCount s < target → exec (.mark t q) s = .next (setTile s t (setHead tl q { e with sent := true }))) ∧
    (target = shaftCount s ∨ (target ≤ shaftCount s ∧ e.sent = true) →
      exec (.mark t q) s = .next (setTile s t (popHead tl q))) ∧
    (target < shaftCount s → e.sent = false →
      exec (.mark t q) s = .next (setTile s t { popHead tl q with
        sq := { (popHead tl q).sq with
          markLate := if tl.sq.markLate.toNat < 2 ^ 32 - 1 then tl.sq.markLate + 1 else tl.sq.markLate } }))

/-- For a CSET at the head whose target does not hold it: the tile after the control write with the head gone and a targeted sequencer register no longer pending, or the job-fatal error of the write. For a CGET at the head: s[SD] holds the control register read (of s0 to s15, what it captured at dispatch), is no longer pending, and the head is gone. Only the tile changes when the write is accepted. Where the spec leaves a point of it open, the clause is the model's choice or reading: log 20. -/
def Obligations.CsetWritesAndCgetReadsTheControlSpace : Prop :=
  ∀ (s : State) (t q : Nat) (e : QEntry), q ≤ 4 →
    (AtHead s t q 0x0C e → csetHeld (tileAt s t) e = false →
      let v : W64 := if bitAt e.word 51 then e.a else BitVec.ofNat 64 (fld e.word 31 0)
      (∀ t2, ctlWrite .cset (tileAt s t) (jobSplit s) (4 * fld e.word 46 33) (bitAt e.word 52) v = .ok t2 →
        exec (.cset t q) s = .next (setTile s t { popHead t2 q with
          sq := { (popHead t2 q).sq with pend := setPend (popHead t2 q).sq.pend (csetReg e.word).toList false } })) ∧
      (∀ x, ctlWrite .cset (tileAt s t) (jobSplit s) (4 * fld e.word 46 33) (bitAt e.word 52) v = .error x →
        exec (.cset t q) s = .next (tileFatal s t 8 e.idx x))) ∧
    (AtHead s t q 0x0D e →
      (csetReg e.word = none → exec (.cget t q) s = .next (setTile s t (writeReg (popHead (tileAt s t) q) (fld e.word 51 48)
        (ctlRead (tileAt s t) (jobSplit s) (4 * fld e.word 46 33) (bitAt e.word 52))))) ∧
      (csetReg e.word ≠ none → bitAt e.word 52 = true →
        exec (.cget t q) s = .next (setTile s t (writeReg (popHead (tileAt s t) q) (fld e.word 51 48) e.a))) ∧
      (csetReg e.word ≠ none → bitAt e.word 52 = false →
        exec (.cget t q) s = .next (setTile s t (writeReg (popHead (tileAt s t) q) (fld e.word 51 48)
          (BitVec.ofNat 64 (e.a.toNat / 2 ^ (4 * fld e.word 46 33 % 8 * 8) % 2 ^ 32))))))

/-- For an MMA or MMAZ at the head of MXQ, not yet issued, with no instruction issuing products, no result of R68 to wait for and nothing of R82 holding the bank: if the checks of its descriptor pass, its products issue into the bank in FILL with the descriptor read now, MMAZ sets the scale of that bank, no sum of a bank changes yet, and the instruction stays at the head as issued; if they fail, the job-fatal error. Only the tile changes. Where the spec leaves a point of it open, the clause is the model's choice or reading: logs 53, 61. -/
def Obligations.ProductsFillTheBank : Prop :=
  ∀ (s : State) (t : Nat) (e : QEntry) (zero : Bool), AtHead s t 0 (if zero then 0x11 else 0x10) e → e.sent = false →
    let m := (tileAt s t).mx
    m.busy = none → flightHolds m (fillBank m) = false → mmaHeld s t (tileAt s t) (fillBank m) e.seq = false →
    let c := if zero then Instr.mmaz t else Instr.mma t
    (∀ t2, mmaStart zero (tileAt s t) (fld e.word 2 0) = .ok t2 →
      exec c s = .next (setTile s t (setHead t2 0 { e with sent := true })) ∧
      (∃ r, t2.mx.busy = some r ∧ r.bank = fillBank m ∧ r.zero = zero ∧ mmaDesc r = mdesc m (fld e.word 2 0)) ∧
      (∀ b, bankArr t2.mx b = bankArr m b) ∧
      (zero = false → (coarseOf m (mdesc m (fld e.word 2 0))).1 = bankScale m (fillBank m)) ∧
      (zero = true → bankScale t2.mx (fillBank m) = (coarseOf m (mdesc m (fld e.word 2 0))).1)) ∧
    (∀ x, mmaStart zero (tileAt s t) (fld e.word 2 0) = .error x → exec c s = .next (tileFatal s t 8 e.idx x))

/-- On a live tile whose MXQ head issues its products: MMA_COMPLETE removes the head; the instruction issues no more, its results are in flight, the bank it started on holds the sums of the M x N cells (each over the K products, from the old element unless MMAZ, every byte as the instruction may see it) and its other elements and the other bank stay; nothing but the tile changes (and the counter of free values). -/
def Obligations.ProductCompletes : Prop :=
  ∀ (s : State) (t : Nat) (r : MmaRun) (e : QEntry), t < 2304 → tileLive (tileAt s t) = true → headOf (tileAt s t) 0 = some e →
    e.sent = true → (tileAt s t).mx.busy = some r → arrSorted (bankArr (tileAt s t).mx r.bank) = true → r.bank < 2 →
    let m := (tileAt s t).mx
    let d := mmaDesc r
    ∃ x : Tile, exec (.mmaComplete t) s = .next (bumpFresh (setTile s t x)) ∧ x.q = (popHead (tileAt s t) 0).q ∧ x.vx = (tileAt s t).vx ∧
      x.pad = (tileAt s t).pad ∧ x.mx.busy = none ∧ x.mx.flight = m.flight ++ [mmaTail r d] ∧
      (∀ b, b < 2 → b ≠ r.bank → bankArr x.mx b = bankArr m b) ∧
      (∀ mi ni, mi < d.m → ni < d.n → arrGet (bankArr x.mx r.bank) (128 * mi + ni) 0 =
        BitVec.ofNat 32 (mmaResult (jobSeed s) r.touch (mixedByte m r s.fresh (128 * mi + ni)) d r.bad mi ni
          (if r.zero then none else some (arrGet (bankArr m r.bank) (128 * mi + ni) 0).toNat)).1) ∧
      (∀ k, (k % 128 ≥ d.n ∨ k / 128 ≥ d.m) → arrGet (bankArr x.mx r.bank) k 0 = arrGet (bankArr m r.bank) k 0)

/-- For an ACCSW at the head of MXQ: while the bank that is not in FILL is not IDLE nothing changes; when it is IDLE, the head leaves, the FILL bank becomes DRAIN and the other one FILL; sums, scales and everything else stay. -/
def Obligations.AccswSwapsTheBanks : Prop :=
  ∀ (s : State) (t : Nat) (e : QEntry), AtHead s t 0 0x12 e →
    let m := (tileAt s t).mx
    (bankSt m (1 - fillBank m) ≠ .idle → exec (.accsw t) s = .next s) ∧
    (bankSt m (1 - fillBank m) = .idle → m.st0 = .fill →
      exec (.accsw t) s = .next (setTile s t (popHead { tileAt s t with mx := { m with st0 := .drain, st1 := .fill } } 0))) ∧
    (bankSt m (1 - fillBank m) = .idle → m.st0 ≠ .fill →
      exec (.accsw t) s = .next (setTile s t (popHead { tileAt s t with mx := { m with st1 := .drain, st0 := .fill } } 0)))

/-- For a VRUN or VSCAN at the head of VXQ, not started and held by nothing: if its checks pass the run is in progress and the instruction stays at the head; if they fail, the job-fatal error. RUN_COMPLETE of a run that writes no row-state record removes the head and leaves no run in progress; nothing but the tile (and its gathered records) changes. Where the spec leaves a point of it open, the clause is the model's choice or reading: logs 10, 15, 21, 61. -/
def Obligations.RunsStartAndComplete : Prop :=
  (∀ (s : State) (t : Nat) (e : QEntry) (scan : Bool), AtHead s t 1 (if scan then 0x19 else 0x18) e → e.sent = false →
    runHeld (tileAt s t) e = false →
    let c := if scan then Instr.vscan t else Instr.vrun t
    (runRefused (tileAt s t) e scan = none →
      exec c s = .next (setTile s t (setHead (runStart (jobSeed s) scan (tileAt s t) e) 1 { e with sent := true }))) ∧
    (∀ x, runRefused (tileAt s t) e scan = some x → exec c s = .next (tileFatal s t 8 e.idx x))) ∧
  (∀ (s : State) (t : Nat) (r : VxRun), t < 2304 → tileLive (tileAt s t) = true → (tileAt s t).vx.run = some r → r.recPorts = [] →
    let u := flushRunLines (setTile s t (rowCommit (tileAt s t) r)) t
    exec (.runComplete t) s = .next (modTile u t fun x => popHead (runFinish x { r with committed := true }) 1) ∧
    ∀ x, (popHead (runFinish x { r with committed := true }) 1).vx.run = none)

/-- For a STRM at the head of SXQ naming a free stream slot up to 5: the slot holds a chain whose next descriptor is at 64 times ADDR, with the release flag, and the instruction stays at the head until its first burst. For a chain with no descriptor left, whose STRM does not stand at a head that waits for leave: while the tag of the next burst's slot is empty the stream slot waits on the tag; otherwise a burst that passes its checks and keeps the chain within 32,768 descriptors is held by the slot, and the first burst frees the head of SXQ. Where the spec leaves a point of it open, the clause is the model's choice or reading: log 25. -/
def Obligations.ChainsStartAndFetch : Prop :=
  (∀ (s : State) (t : Nat) (e : QEntry), AtHead s t 2 0x20 e → e.sent = false →
    let sl := fld e.word 55 53
    sl ≤ 5 → (slotN (tileAt s t).pad sl).chain = none →
    let c : Chain :=
      { rel := bitAt e.word 52, strm := e.idx, seq := e.seq, loops := e.loops, next := fld e.word 14 0, burst := [], fetched := 0,
        attr := none, row := 0, count0 := 0, hdr := false, missed := false }
    exec (.strm t) s = .next (setTile s t
      (setHead (setSlot (tileAt s t) sl fun x => { x with chain := some c, tagw := false, daddr := c.next }) 2 { e with sent := true }))) ∧
  (∀ (s : State) (t sl : Nat) (c : Chain), t < 2304 → sl ≤ 5 → tileLive (tileAt s t) = true → tilePaused s t = false →
    (slotN (tileAt s t).pad sl).chain = some c → c.burst = [] → headWaits s t c = false →
    (slotEmptyAt s t (c.next / 8) = true →
      exec (.descriptorFetch t sl) s =
        .next (setTile s t (setSlot (tileAt s t) sl fun x => { x with tagw := true, daddr := c.next % 2 ^ 15 }))) ∧
    (slotEmptyAt s t (c.next / 8) = false →
      let u := flushPad s t (64 * c.next) 512
      let ds := fixDeadlines (shaftCount s) (fetchBurst u t (8 - c.next % 8) c.next)
      let nxt := match ds.getLast? with
        | some d => if descKind d = 3 then dwf d 0 14 0 else (c.next / 8 + 1) * 8 % 2 ^ 15
        | none => c.next
      c.fetched + ds.length ≤ 32768 →
      burstCheck c.loops sl ds (c.attr.map attrOf) c.row (if c.row = 0 then none else some c.count0) = none →
      exec (.descriptorFetch t sl) s = .next (modTile u t fun x =>
        let y := setSlot x sl fun z =>
          { z with
            chain := some { c with burst := ds, fetched := c.fetched + ds.length, next := nxt }, tagw := false, daddr := c.next % 2 ^ 15 }
        if c.fetched = 0 then popHead y 2 else y)))

/-- For a chain whose next transfer descriptor may use its bank and whose slot tags let it go: DESCRIPTOR_COMPLETE moves every element and, when the move meets no error, finishes the descriptor (signal, tags, end of chain, release flag), the lines it has read from external memory now standing in the ore bins; held by a bank or a tag, the slot keeps the descriptor. For a slot that waits on a tag, once its tags let it go and no access of an earlier place that could proceed waits on the same slots, TAG_WAIT_RESUME does the same. Where the spec leaves a point of it open, the clause is the model's choice or reading: log 25. -/
def Obligations.TransferDescriptorsComplete : Prop :=
  ∀ (s : State) (t sl : Nat) (c0 : Chain) (d ad : Desc) (ds : List Desc) (resume : Bool), t < 2304 → sl ≤ 5 →
    tileLive (tileAt s t) = true → tilePaused s t = false → (slotN (tileAt s t).pad sl).chain = some c0 → c0.burst ≠ [] →
    (slotN (tileAt s t).pad sl).tagw = resume →
    (resume = true → headWaits s t c0 = false ∧ resumeReady s t sl c0 = true ∧
      goesFirst s { tile := t, place := sl, slots := waitedSlots s t sl c0 } = false) →
    let c := skipAttrs c0 8
    let a := attrOf ad
    let m := moveOf s t sl c a d
    let keep := fun (w : Bool) =>
      setTile s t (setSlot (tileAt s t) sl fun x => { x with chain := some c, tagw := w, daddr := d.addr % 2 ^ 15 })
    let row := if resume then Instr.tagWaitResume t sl else Instr.descriptorComplete t sl
    c.burst = d :: ds → c.attr = some ad →
    (moveBankFree (tileAt s t) c a = false → exec row s = .next (keep false)) ∧
    (moveBankFree (tileAt s t) c a = true → tagsLet s m = false → exec row s = .next (keep true)) ∧
    (moveBankFree (tileAt s t) c a = true → tagsLet s m = true →
      let u0 := progress (keep false) t
      let u1 := if m.a.dir && m.a.lkind = 0 && decide (m.a.laddr < 0x200000) then
        flushPad u0 t m.a.laddr (localExtent a (c.row + xferRows m.x) (m.x.count.getD 0 0)) else u0
      let u2 := if m.a.dir then u1 else flushWalked u1 ((walkedSlots m).map fun k => (k.1, k.2))
      let r := runMove u2 m c.hdr
      let v := modTile r.s t fun x => raiseFlags x r.fl
      r.err = none → exec row s = .next (finishDesc (if m.a.dir then v else (walkedLines m).foldl binRead v) t sl c m r.nib))

/-- For a stream slot whose attribute descriptor in force has deadline D, not yet missed: once the shaft count reaches D while an in-bounds element of the descriptors it governs is unwritten, DEADLINE_MISS adds 1 to DLMISS, marks the chain as late (substituting, and no longer waiting on a tag, when DLACT says so) and writes a contained record with the descriptor's address and D. Before D, after one miss, or with every remaining element out of bounds or written, and with no other attribute descriptor fetched behind it, nothing changes. Where the spec leaves a point of it open, the clause is the model's choice or reading: log 25. -/
def Obligations.DeadlineMissIsRecordedOnce : Prop :=
  ∀ (s : State) (t sl d : Nat) (c0 : Chain) (ad : Desc), t < 2304 → sl ≤ 5 → (slotN (tileAt s t).pad sl).chain = some c0 →
    let c := skipAttrs c0 8
    let left := governedLeft s t sl c.loops (attrOf ad) 32768 c.burst c.next
    c.attr = some ad → ad.dl = some d →
    (shaftCount s < d ∨ c.missed = true ∨ left = false → (∀ x ∈ c.burst, descKind x ≠ 2) → exec (.deadlineMiss t sl) s = .next s) ∧
    (tilePaused s t = false → d ≤ shaftCount s → c.missed = false → left = true →
      exec (.deadlineMiss t sl) s = .next (jobRecord (setTile s t (setSlot (tileAt s t) sl fun x =>
        { x with chain := some { c with missed := true }, dlmiss := x.dlmiss + 1, tagw := x.tagw && !(attrOf ad).dlact }))
        1 stDeadlineMissed 1 t (7 + 2 ^ 8 * sl) [ad.addr, d % 2 ^ 32, d / 2 ^ 32]))

/-- For a STRW at the head of SXQ: while its scratchpad slot is tagged and empty it waits at the head; with the slot free for it, and no access of an earlier place that could proceed waiting on the slot, a word that would hold a reserved code is a job-fatal BAD_PARAM; otherwise the word s[SA] or IMM reaches byte 4 times WOFF of the descriptor, its gather line is written back and the head leaves. WGB_IDLE_FLUSH writes back the line's entry when it has been idle for 64 M-cycles, else changes nothing. -/
def Obligations.StrwWritesOneWord : Prop :=
  (∀ (s : State) (t : Nat) (e : QEntry), AtHead s t 2 0x21 e →
    let a := 64 * fld e.word 55 41
    let o := fld e.word 40 37
    let v := if bitAt e.word 36 then e.a.toNat % 2 ^ 32 else fld e.word 31 0
    let first := e.sent = true → goesFirst s { tile := t, place := 7, slots := [(t, a / 512)] } = false
    (slotEmptyAt s t (a / 512) = true → exec (.strw t) s = .next (setTile s t (setHead (tileAt s t) 2 { e with sent := true }))) ∧
    (slotEmptyAt s t (a / 512) = false → first → strwReserved (padBytes s t a 64) o v = true →
      exec (.strw t) s = .next (tileFatal s t 8 e.idx { status := stBadParam, detail := [1] })) ∧
    (slotEmptyAt s t (a / 512) = false → first → strwReserved (padBytes s t a 64) o v = false →
      exec (.strw t) s =
        .next (modTile (flushPad (wgbWrite s t (a + 4 * o) (leBytes 4 v) false) t (a + 4 * o) 4) t fun x => popHead x 2))) ∧
  (∀ (s : State) (t line : Nat), t < 2304 →
    let due := (tileAt s t).pad.wgb.any fun w => w.line = line && decide (64 ≤ w.idle)
    (due = true → exec (.wgbIdleFlush t line) s = .next (flushPad s t (128 * line) 128)) ∧
    (due = false → exec (.wgbIdleFlush t line) s = .next s))

/-- For a SEND or COMB at the head of NXQ: a destination word or payload that R156 refuses is job-fatal BAD_PARAM; while the injection port has no room nothing changes; a head whose message is in the mesh already leaves once there is room; otherwise a message with the destination, tag, kind, rank, the sender's identity and epoch, the generation that the table holds for the destination and the payload read from the scratchpad is in the mesh (held at its router while one of the same two routers is still on the old path of a route update) and gathered lines under the payload are written back first, and the head leaves unless the last flits of the message still stand at the port. How many flits a path holds is the model's reading (log 24). -/
def Obligations.SendInjectsOneMessage : Prop :=
  ∀ (s : State) (t : Nat) (e : QEntry) (comb : Bool), AtHead s t 3 (if comb then 0x2A else 0x28) e →
    let c := if comb then Instr.comb t else Instr.send t
    (∀ x, sendRefused comb e = some x → exec c s = .next (tileFatal s t 8 e.idx { status := stBadParam, detail := [x] })) ∧
    (sendRefused comb e = none → injectionFull s t = true → exec c s = .next s) ∧
    (sendRefused comb e = none → injectionFull s t = false → e.sent = true →
      exec c s = .next (modTile (progress s t) t fun x => popHead x 3)) ∧
    (sendRefused comb e = none → injectionFull s t = false → e.sent = false →
      let p := sendSource e
      let u := flushPad s t (32 * p.1) (32 * p.2)
      let d := fld e.a 37 32
      let y := if d = deviceId s then substT s (fld e.a 31 20) else fld e.a 31 20
      let m : Msg :=
        { ddev := d, dtile := y, dq := fld e.a 19 16, tag := fld e.a 15 0, kind := if comb then 1 else 0,
          rank := if comb then fld e.a 49 38 else 0, sdev := deviceId s, stile := t, epoch := (tileAt s t).net.epoch.toNat,
          dgen := if d = deviceId s then (arrGet s.genTab y 0).toNat else farGeneration s d y, payload := padBytes u t (32 * p.1) (32 * p.2) }
      let v : State := { u with
        net := u.net ++ [{ msg := m, waiting := false, age := 0, held := heldBehindOld u m, old := false, hub := decide (d ≠ deviceId s) }] }
      exec c s = .next (if injectionFull v t = true then modTile v t fun x => setHead x 3 { e with sent := true }
        else modTile (progress v t) t fun x => popHead x 3))

/-- For a RECV at the head of NXQ: with no visible message nothing changes; with 127 messages acquired it is job-fatal BAD_PARAM and nothing is acquired; otherwise the first visible message becomes acquired, its header is in s[SD] and the head leaves. A paired RECV needs a visible message in both queues and writes s[SD] and s[SD + 1 mod 16]. FREE with acquisitions lost to a pointer reset absorbs one of them; with none acquired it is job-fatal BAD_PARAM; otherwise the oldest acquired message leaves, spilled messages move in, and the head leaves. -/
def Obligations.RecvAcquiresAndFrees : Prop :=
  (∀ (s : State) (t : Nat) (e : QEntry), AtHead s t 3 0x29 e → bitAt e.word 42 = false → bitAt e.word 47 = false →
    let n := fld e.word 51 48
    let q := queueN (tileAt s t).net n
    (visibleHead q = none → exec (.recv t) s = .next s) ∧
    (∀ i, visibleHead q = some i → 127 ≤ queueAcq q →
      exec (.recv t) s = .next (tileFatal s t 8 e.idx { status := stBadParam, detail := [1, n] })) ∧
    (∀ i, visibleHead q = some i → queueAcq q < 127 →
      exec (.recv t) s = .next (setTile s t (writeReg (popHead (acquireIn (tileAt s t) n) 3) (fld e.word 55 52) (recvHeader q i))))) ∧
  (∀ (s : State) (t : Nat) (e : QEntry) (i j : QItem), AtHead s t 3 0x29 e → bitAt e.word 42 = false → bitAt e.word 47 = true →
    let n := fld e.word 51 48
    let k := fld e.word 46 43
    let d := fld e.word 55 52
    let a := queueN (tileAt s t).net n
    let b := queueN (tileAt s t).net k
    visibleHead a = some i → visibleHead b = some j → queueAcq a < 127 → queueAcq b < 127 →
    exec (.recvPair t) s = .next (setTile s t (writeReg (writeReg (popHead (acquireIn (acquireIn (tileAt s t) n) k) 3) d (recvHeader a i))
      ((d + 1) % 16) (recvHeader b j)))) ∧
  (∀ (s : State) (t : Nat) (e : QEntry), AtHead s t 3 0x29 e → bitAt e.word 42 = true →
    let n := fld e.word 51 48
    let tl := tileAt s t
    let q := queueN tl.net n
    (0 < q.lost → exec (.recvFree t) s = .next (setTile s t (popHead
      { tl with net := modQueue tl.net n fun q => { q with lost := q.lost - 1 } } 3))) ∧
    (q.lost = 0 → queueAcq q = 0 → exec (.recvFree t) s = .next (tileFatal s t 8 e.idx { status := stBadParam, detail := [1, n] })) ∧
    (q.lost = 0 → queueAcq q ≠ 0 → exec (.recvFree t) s = .next (unspill t n (q.spill.length + 1)
      (setTile s t (popHead { tl with net := modQueue tl.net n fun q => markHigh { q with items := freeFirst q.items } } 3)))))

/-- For message i of the mesh that may leave it (first of its path, its way clear, not held by a route update), at a tile of this device that is neither retired nor stopped and drains for no load: a wrong epoch, a wrong generation, a closed queue or an over-long message discards it, adds 1 to the spoil counter of that cause and, for the last two, sends a notice; a kind or rank its queue does not take is job-fatal BAD_PARAM; an accepted message is stored in the queue or waits at the ejection port, an accepted contribution is combined. Where the spec leaves a point of it open, the clause is the model's choice or reading: logs 18, 24, 25. -/
def Obligations.ArrivingMessagesAreTested : Prop :=
  ∀ (s : State) (i : Nat) (n : NetMsg) (contrib : Bool), s.net[i]? = some n → n.hub = false → mayLeave s i n = true →
    n.msg.ddev = deviceId s → (n.msg.kind = 1 ↔ contrib = true) → tileRetired s n.msg.dtile = false →
    tilePaused s n.msg.dtile = false → drainingOut s n.msg = false →
    let c := if contrib then Instr.contribution i else Instr.dataMessage i
    let m := n.msg
    let tl := tileAt s m.dtile
    let q := queueN tl.net m.dq
    let gone : State := { s with net := dropAt s.net i }
    (epochOk tl.net m.epoch = false → exec c s = .next (bumpSpoil gone m.dtile 3 1)) ∧
    (epochOk tl.net m.epoch = true → m.dgen ≠ tl.net.gen.toNat → exec c s = .next (bumpSpoil gone m.dtile 4 1)) ∧
    (epochOk tl.net m.epoch = true → m.dgen = tl.net.gen.toNat →
      (q.opened = false ∨ qDeclared q = false → exec c s = .next (pushCtl (bumpSpoil gone m.dtile 0 1) (noticeOf m 0))) ∧
      (q.opened = true → qDeclared q = true →
        (qMaxFlits q < msgFlits m → exec c s = .next (pushCtl (bumpSpoil gone m.dtile 2 1) (noticeOf m 2))) ∧
        (msgFlits m ≤ qMaxFlits q → kindBad q m = true → exec c s = .next (kindFatal gone m.dtile m)) ∧
        (msgFlits m ≤ qMaxFlits q → kindBad q m = false →
          exec c s = .next (if contrib then acceptContribution s i n else acceptPlain s i n))))

/-- For message i that arrives and passes its tests, its queue not spilling and with room for head flit and payload: DATA_MESSAGE removes it from the mesh, MSGS gains 1, and the queue holds one item more, the last, with the message's tag, sender and flit count, at the write position or at position 0 with the skipped positions counted. For a contribution that arrives and passes its tests, its tag in progress or a tag place free: one that does not complete its tag leaves the mesh, counts in MSGS and stays in the tag's accumulator, the other tags and the stored messages as before; one that completes it, with room for the sum, ends the tag, and the sum stands last in the queue under the same tag. (The arrays of tiles and queues are canonical.) -/
def Obligations.AcceptedMessageIsStoredWhole : Prop :=
  ∀ (s : State) (i : Nat) (n : NetMsg), arrSorted s.tiles = true →
    let m := n.msg
    let tl := tileAt s m.dtile
    let q := queueN tl.net m.dq
    let comes := s.net[i]? = some n ∧ n.hub = false ∧ mayLeave s i n = true ∧ m.ddev = deviceId s ∧ tileRetired s m.dtile = false ∧
      tilePaused s m.dtile = false ∧ drainingOut s m = false ∧ epochOk tl.net m.epoch = true ∧ m.dgen = tl.net.gen.toNat ∧
      q.opened = true ∧ qDeclared q = true ∧ msgFlits m ≤ qMaxFlits q ∧ kindBad q m = false
    arrSorted tl.net.queues = true →
    (q.spilling = false → roomFor q (msgFlits m + 1) = true →
      let u := acceptPlain s i n
      let q2 := queueN (tileAt u m.dtile).net m.dq
      (comes → m.kind ≠ 1 → exec (.dataMessage i) s = .next u) ∧
      u.net = dropAt s.net i ∧ q2.msgs = q.msgs + 1 ∧
        q2.items = q.items ++ [{ pos := (placeFor q (msgFlits m + 1)).1, flits := msgFlits m + 1, skip := (placeFor q (msgFlits m + 1)).2,
                                 tag := m.tag, stile := m.stile, sdev := m.sdev, acq := false }] ∧
        q2.wr = (placeFor q (msgFlits m + 1)).1 + (msgFlits m + 1)) ∧
    (let g := q.tags.find? fun g => g.tag = m.tag
     let r := takeContribution q
      (g.getD { tag := m.tag, flits := msgFlits m, count := 0, next := 0, ranks := [], held := [], acc := [] }) m
     let others := q.tags.filter (·.tag ≠ m.tag)
     let u := acceptContribution s i n
     let q2 := queueN (tileAt u m.dtile).net m.dq
     (comes → m.kind = 1 → exec (.contribution i) s = .next u) ∧
     (g.isSome = true ∨ q.tags.length < qTags q →
      (r.1.count ≠ qContribs q → u.net = dropAt s.net i ∧ q2.msgs = q.msgs + 1 ∧ q2.items = q.items ∧ q2.tags = others ++ [r.1]) ∧
      (r.1.count = qContribs q → roomFor q (msgFlits m + 1) = true →
        u.net = dropAt s.net i ∧ q2.msgs = q.msgs + 1 ∧ q2.tags = others ∧
        ∃ it : QItem, q2.items = q.items ++ [it] ∧ it.tag = m.tag ∧ it.stile = m.dtile ∧ it.acq = false)))

/-- SEND_NOTICE for a tile of this device removes the notice, adds 1 to that tile's NOTICE counter and writes a contained SEND_TO_CLOSED record with cause, destination and tag; one for another device's tile leaves as a control frame with the fields of R247. A message for a retired tile, not held, is discarded at the last live router of its path, counted RETIRED there, with a notice of cause 1. A message for another device that may leave the mesh is discarded at the hub with a notice of cause 3 when its destination is not present, or not a member; one for a present member is framed for its Jorzin port. A route hold ends when no message between the two routers is left on the old path. Where the spec leaves a point of it open, the clause is the model's choice or reading: logs 47, 49. -/
def Obligations.RefusedMessagesNotifyTheirSender : Prop :=
  (∀ (s : State) (i sd st ca dd dt dq tag : Nat), s.ctl[i]? = some (.notice sd st ca dd dt dq tag) →
    (sd = deviceId s → exec (.sendNotice i) s =
      .next (jobRecord (bumpSpoil { s with ctl := dropAt s.ctl i } st 7 1) 1 stSendToClosed 1 st 5 [ca, dd, dt, dq, tag])) ∧
    (sd ≠ deviceId s → exec (.sendNotice i) s = .next (sendTo { s with ctl := dropAt s.ctl i } sd 0
      { ftype := 1, lvc := 0, seq := 0, sdev := deviceId s, body := leBytes 32 (sd + st * 2 ^ 6 + 0x01 * 2 ^ 18 + ca * 2 ^ 24 +
        dd * 2 ^ 28 + dt * 2 ^ 34 + dq * 2 ^ 46 + tag * 2 ^ 50) }))) ∧
  (∀ (s : State) (i : Nat) (n : NetMsg), s.net[i]? = some n → n.hub = false → n.held = false → n.msg.ddev = deviceId s →
    tileRetired s n.msg.dtile = true →
    exec (.messageToRetiredTile i) s = .next (pushCtl
      (bumpSpoil { s with net := dropAt s.net i } (lastLiveRouter s n.msg) 1 1) (noticeOf n.msg 1))) ∧
  (∀ (s : State) (i : Nat) (n : NetMsg), s.net[i]? = some n → n.hub = true → n.msg.sdev = deviceId s → n.msg.ddev ≠ deviceId s →
    mayLeave s i n = true → s.casc.heldFor.contains n.msg.ddev = false →
    let c := countOutbound (progress { s with net := dropAt s.net i } n.msg.stile) n.msg
    (c.2 = false → exec (.gatePortMessage i) s = .next c.1) ∧
    (c.2 = true → deviceReady s = false ∨ inMembers s n.msg.ddev = false ∨ s.casc.present.contains n.msg.ddev = false →
      exec (.gatePortMessage i) s = .next (pushCtl { c.1 with casc := { c.1.casc with discarded := c.1.casc.discarded + 1 } } (noticeOf n.msg 3))) ∧
    (c.2 = true → deviceReady s = true → inMembers s n.msg.ddev = true → s.casc.present.contains n.msg.ddev = true →
      exec (.gatePortMessage i) s = .next (sendTo c.1 n.msg.ddev (flowHash n.msg)
        { ftype := 0, lvc := 1, seq := 0, sdev := deviceId s, body := headFlit n.msg ++ n.msg.payload }))) ∧
  (∀ (s : State) (src dst : Nat), src < 2304 → dst < 2304 →
    let pair := fun (n : NetMsg) => startRouter s n.msg = src && endRouter s n.msg = dst
    (∀ n ∈ s.net, pair n = true → n.old = false) →
    exec (.routeHoldRelease src dst) s = .next { s with net := s.net.map fun n => if pair n then { n with held := false } else n })

/-- SPILL sets SPILL of a plain queue with a spill area that is HIGH or has HWM 0 when a message has waited SPTHR M-cycles, and changes nothing else. A pointer reset of host FIFO p empties it, adds its flits to OVF, drops HIGH and is counted and recorded as a contained event of hub queue p; one of a Jorzin inbound queue discards its frames in transit and frees its space; one of a queue of a tile in no replayable section empties it, remembers the acquired messages as lost, counts QRESET and the discarded ones, and is recorded. NO_PROGRESS_TIMEOUT of a live tile whose timer has reached a non-zero LIMIT writes the DEADLOCK record naming queue, cause and what is awaited, one further record for each own queue with a message waiting, and the same for every other tile whose timer has reached its LIMIT, and fails the computing job; without such a wait it changes nothing. Where the spec leaves a point of it open, the clause is the model's choice or reading: logs 24, 51. -/
def Obligations.QueuesSpillResetAndTimeOut : Prop :=
  (∀ (s : State) (t n : Nat), t < 2304 → n ≤ 15 →
    let q := queueN (tileAt s t).net n
    qMode q = 0 → fld q.w2 23 12 ≠ 0 → q.spilling = false → (q.high = true ∨ fld q.w1 16 0 = 0) →
    (∃ m ∈ s.net, m.waiting = true ∧ m.msg.ddev = deviceId s ∧ m.msg.dtile = t ∧ m.msg.dq = n ∧ fld q.w2 55 24 ≤ m.age) →
    exec (.spill t n) s = .next (setTile s t { tileAt s t with net := modQueue (tileAt s t).net n fun q => { q with spilling := true } })) ∧
  (∀ (s : State) (p : Nat), p ≤ 1 →
    let f := (portN s p).fifo
    let k := cdiv f.bytes.length 32
    let u := modPort s p fun x => { x with
      fifo := { x.fifo with bytes := [], ovf := x.fifo.ovf + BitVec.ofNat 32 k, high := false, full := false } }
    exec (.queuePointerReset (.hostFifo p)) s = .next (hubQueueReset (if f.high then signal u p 0 1017 else u) p 0 p k)) ∧
  (∀ (s : State) (n : Nat), exec (.queuePointerReset (.combiner n)) s = .next (hubQueueReset s 2 1 n 0)) ∧
  (∀ (s : State) (p v : Nat), p ≤ 11 → v ≤ 2 →
    let lost := (inboundFrames s p v).length
    let u : State := { s with
      casc := { s.casc with
        jports := s.casc.jports.map fun j => { j with waiting := j.waiting.filter fun f => !(f.seq = p + 1 && f.lvc = v) } } }
    exec (.queuePointerReset (.jorzinIn p v)) s = .next (hubQueueReset
      (freeIn (modJPort u p fun j => countJ j 7 lost) p v ((jportN s p).inq.getD v 0)) (16 + 3 * p + v) 2 (3 * p + v) lost)) ∧
  (∀ (s : State) (t n : Nat), t < 2304 → n ≤ 15 →
    let tl := tileAt s t
    let q := queueN tl.net n
    let u := setTile s t { tl with net := addSpoil (modQueue tl.net n fun q => markHigh { q with
      items := [], wr := 0, lost := q.lost + queueAcq q, tags := [], spill := [], spWr := 0, spilling := false, qreset := q.qreset + 1 }) 5 (heldIn q) }
    let v := resetRecord u (.queue t) 1 (if (launchOn s t).isSome then s.comp.getD 0 else 0) t (6 + 2 ^ 8 * n) (q.qreset.toNat + 1)
    overThreshold v (.queue t) = false → ((launchOn s t).all fun x => !imageRpl x.img) = true →
    exec (.queuePointerReset (.tileQ t n)) s = .next v) ∧
  (∀ (s : State) (t : Nat), t < 2304 →
    let due := fun (u : Nat) => tileLive (tileAt s u) && !tilePaused s u && decide ((tileAt s u).net.npLimit ≠ 0) &&
      decide ((tileAt s u).net.npLimit.toNat ≤ (tileAt s u).net.npCount) && (deadlockWait s u (tileAt s u)).isSome
    let one := fun (v : State) (u : Nat) => match deadlockWait s u (tileAt s u) with
      | none => v
      | some (k, c, x, w) =>
        let ports := portWaits s u
        ports.foldl (fun a p => jobRecord a 1 stDeadlock 2 u (6 + 2 ^ 8 * p.1) [p.2.1 + p.2.2 * 2 ^ 12, 0, 0, 0, nextSeq v % 2 ^ 32])
          (tileRecord v u 8 x { status := stDeadlock, detail := [k + c * 2 ^ 8 + ports.length * 2 ^ 16, w] })
    (due t = false → exec (.noProgressTimeout t) s = .next s) ∧
    (due t = true → exec (.noProgressTimeout t) s =
      .next (failComputing ((t :: (s.tiles.map (·.1)).filter fun u => u ≠ t && due u).foldl one s) stDeadlock)))

/-- At the head of its queue: TADD and TDEC, with every earlier instruction of the queue completed, send their operation and leave; TWAIT and WFETCH send theirs once and stay; BARR, when the tile's last arrival at the barrier has been released, sends an arrival and leaves; BWAIT leaves when that arrival has been released, stays when it has not, and is job-fatal BAD_PARAM at a barrier that is not defined, or not this tile's. Each instruction whose request is already sent changes nothing. -/
def Obligations.TallyInstructionsSendOneOperation : Prop :=
  (∀ (s : State) (t q : Nat) (e : QEntry) (dec : Bool), q ≤ 4 → AtHead s t q (if dec then 0x32 else 0x30) e →
    earlierDone (tileAt s t) q e = true →
    exec (if dec then Instr.tdec t q else Instr.tadd t q) s = .next (pushCtl (setTile s t (popHead (tileAt s t) q))
      (.tallyOp t (if dec then 1 else 0) (fld e.word 43 32) (fld e.word 23 0) (tileAt s t).net.wepoch.toNat q))) ∧
  (∀ (s : State) (t q : Nat) (e : QEntry), q ≤ 4 → AtHead s t q 0x31 e →
    (e.sent = true → exec (.twait t q) s = .next s) ∧
    (e.sent = false → exec (.twait t q) s = .next (pushCtl (setTile s t (setHead (tileAt s t) q { e with sent := true }))
      (.tallyOp t 2 (fld e.word 43 32) (fld e.word 23 0) (tileAt s t).net.wepoch.toNat q)))) ∧
  (∀ (s : State) (t : Nat) (e : QEntry), AtHead s t 4 0x38 e →
    (e.sent = true → exec (.wfetch t) s = .next s) ∧
    (e.sent = false → exec (.wfetch t) s = .next (pushCtl (setTile s t (setHead (tileAt s t) 4 { e with sent := true }))
      (.fetch t (fld e.word 47 40) (fld e.word 15 0) (fld e.word 55 52))))) ∧
  (∀ (s : State) (t q : Nat) (e : QEntry), q ≤ 4 → AtHead s t q 0x34 e → earlierDone (tileAt s t) q e = true →
    let tl := tileAt s t
    let b := fld e.word 6 0
    let last := arrGet tl.net.arrived b (0, true)
    (last.2 = false → exec (.barr t q) s = .next s) ∧
    (last.2 = true → exec (.barr t q) s = .next (pushCtl (setTile s t (popHead
      { tl with net := { tl.net with arrived := arrSet tl.net.arrived b (last.1, false) (0, true) } } q)) (.arrival t b q)))) ∧
  (∀ (s : State) (t q : Nat) (e : QEntry), q ≤ 4 → AtHead s t q 0x35 e →
    let b := fld e.word 6 0
    let released := (arrGet (tileAt s t).net.arrived b (0, true)).2
    (barOk s b t = false → exec (.bwait t q) s = .next (barFatal (setTile s t (popHead (tileAt s t) q)) t q b)) ∧
    (barOk s b t = true → released = true → exec (.bwait t q) s = .next (setTile s t (popHead (tileAt s t) q))) ∧
    (barOk s b t = true → released = false → exec (.bwait t q) s = .next s))

/-- For a tile's tally operation, first of that tile and tally: one of another work epoch only adds 1 to STALE of the tally's home Level (of the tile's, for an unmapped ID); a mapped subtraction that the value covers subtracts; an addition within 24 bits and the limit adds and then serves waiters from the oldest as far as the value reaches; a wait within the limit is served, or queued behind the older ones; one that would pass the limit, or fall below zero, sets the tally's FAULT bit and fails the job with TALLY_OVERFLOW, TALLY_UNDERFLOW or BAD_PARAM. The satisfied reply takes the TWAIT from its head, unless the head waits for leave. Where the spec leaves a point of it open, the clause is the model's choice or reading: log 34. -/
def Obligations.TallyOperationsApply : Prop :=
  (∀ (s : State) (i t op v n we q : Nat), s.ctl[i]? = some (.tallyOp t op v n we q) →
    tallyBehind s.ctl i (.tallyOp t op v n we q) = false → op ≤ 3 →
    let u : State := { s with ctl := dropAt s.ctl i }
    (we ≠ workEpoch s → exec (.tallyOperation i) s = .next (modLevel u (homeLevel s v t) fun l => { l with stale := l.stale + 1 })) ∧
    (∀ l p lim, we = workEpoch s → mapEntry s v = some (l, p, lim) →
      let y := tallyAt u l p
      let x := y.value.toNat
      (op = 1 → n ≤ x → exec (.tallyOperation i) s = .next (setTally u l p { y with value := BitVec.ofNat 24 (x - n) })) ∧
      (op = 1 → x < n → exec (.tallyOperation i) s = .next (tallyFatal u stTallyUnderflow l p v n (requester t q false))) ∧
      (op = 0 ∨ op = 3 → x + n ≤ 0xFFFFFF → (lim = 0 ∨ x + n ≤ lim) →
        exec (.tallyOperation i) s = .next ((serveWaiters (x + n) y.waiters).2.2.foldl replyWaiter
          (setTally u l p { y with value := BitVec.ofNat 24 (serveWaiters (x + n) y.waiters).1, waiters := (serveWaiters (x + n) y.waiters).2.1 }))) ∧
      (op = 0 ∨ op = 3 → 0xFFFFFF < x + n ∨ (lim ≠ 0 ∧ lim < x + n) →
        exec (.tallyOperation i) s = .next (tallyFatal u stTallyOverflow l p v n (requester t q (op = 3)))) ∧
      (op = 2 → lim ≠ 0 → lim < n → exec (.tallyOperation i) s = .next (tallyFatal u stBadParam l p v n (requester t q false))) ∧
      (op = 2 → lim = 0 ∨ n ≤ lim →
        let r := serveWaiters x (y.waiters ++ [.tile t q v n])
        exec (.tallyOperation i) s = .next (r.2.2.foldl replyWaiter
          (setTally u l p { y with value := BitVec.ofNat 24 r.1, waiters := r.2.1 }))))) ∧
  (∀ (s : State) (i t q v : Nat) (e : QEntry), s.ctl[i]? = some (.twaitReply t q v) → headIs (tileAt s t) q 0x31 = some e →
    leaveWait s t = false → e.sent = true → fld e.word 43 32 = v →
    exec (.twaitSatisfied i) s = .next (setTile { s with ctl := dropAt s.ctl i } t (popHead (tileAt s t) q)))

/-- For a value v and a list of waiters: the served ones followed by those left are the list; the value left plus the amounts served is v; and if any is left, the oldest of them asks for more than the value left. -/
def Obligations.WaitersAreServedInOrder : Prop :=
  ∀ (v : Nat) (ws : List Waiter),
    let need := fun (w : Waiter) => match w with
      | .tile _ _ _ n => n
      | .host _ n => n
    let r := serveWaiters v ws
    r.2.2 ++ r.2.1 = ws ∧ r.1 + (r.2.2.map need).sum = v ∧ ∀ w, r.2.1.head? = some w → r.1 < need w

/-- For an arrival of a member at a defined barrier: the tile is recorded as arrived; when members are missing nothing more happens; when none is, a device barrier's phase advances with a release sent to every member, and a cascade barrier's output stands released. A release reaching a tile completes its arrival. A barrier whose first arrival is TMO shaft ticks old writes the DEADLOCK records with the missing members and fails the job. Where the spec leaves a point of it open, the clause is the model's choice or reading: logs 13, 34. -/
def Obligations.BarriersCollectAndRelease : Prop :=
  (∀ (s : State) (i t b q : Nat), s.ctl[i]? = some (.arrival t b q) →
    let u : State := { s with ctl := dropAt s.ctl i }
    (barOk s b t = false → exec (.barrierArrival i) s = .next (barFatal u t q b)) ∧
    (barOk s b t = true →
      let x := barrierAt u b
      let x1 := { x with arr := if x.arr.contains t then x.arr else t :: x.arr, first := some (x.first.getD (shaftCount s)) }
      let v := setBarrier u b x1
      (missing x1 ≠ [] → exec (.barrierArrival i) s = .next v) ∧
      (missing x1 = [] → b < 64 → exec (.barrierArrival i) s = .next (completePhase v b)) ∧
      (missing x1 = [] → 64 ≤ b → exec (.barrierArrival i) s = .next v ∧
        (s.subst = [] → arrSorted s.cbar = true → (barrierAt v b).out = true)))) ∧
  (∀ (s : State) (i t b ph : Nat), s.ctl[i]? = some (.release t b ph) →
    exec (.barrierRelease i) s = .next (modTile { s with ctl := dropAt s.ctl i } t fun tl =>
      { tl with net := { tl.net with arrived := arrSet tl.net.arrived b (ph, true) (0, true) } })) ∧
  (∀ (s : State) (b f : Nat), b < 68 → (barrierAt s b).first = some f → (barrierAt s b).en = true → (barrierAt s b).tmo ≠ 0 →
    f + (barrierAt s b).tmo.toNat ≤ shaftCount s →
    let x := barrierAt s b
    let ms := missing x
    let lvl := if b < 64 then b / 16 else 4
    let v := setBarrier (levelRecord s stDeadlock lvl (1 + 4 * b)
      ((x.phase.toNat + ms.length * 2 ^ 16) :: missingWords (ms.take 8))) b { x with first := none }
    exec (.barrierTimeout b) s = .next (failComputing (if ms.length ≤ 8 then v else
      jobRecord v 5 stDeadlock 2 lvl (1 + 4 * b) (nextSeq s % 2 ^ 32 :: missingWords ((ms.drop 8).take 8))) stDeadlock))

/-- For a fetch from a counter that is no task counter: within 32 bits the counter gains INC and the reply carries its old value; past them the job fails with TALLY_OVERFLOW. For a task counter with INC 1 and a home list inside its entries: the reply carries the task that R298 picks, now taken, or 0xFFFF_FFFF when none is left. The reply writes index and epoch to s[SD] and the WFETCH leaves its head. A HALTED tile with every queue empty and no chain, run or product in progress becomes FINISHED with its receive queues closed, and sections whose last tile this was end. Where the spec leaves a point of it open, the clause is the model's choice or reading: logs 34, 51. -/
def Obligations.WorkCountersHandOutIndices : Prop :=
  (∀ (s : State) (i t c n sd : Nat), s.ctl[i]? = some (.fetch t c n sd) →
    let u : State := { s with ctl := dropAt s.ctl i }
    let l := levelOf t
    let x := ctrAt s l c
    (x.task = false → x.value.toNat + n ≤ 0xFFFFFFFF → exec (.workFetch i) s =
      .next (pushCtl (setCtr u l c { x with value := x.value + BitVec.ofNat 32 n }) (.fetchReply t x.value.toNat
        (workEpoch (setCtr u l c { x with value := x.value + BitVec.ofNat 32 n })) sd))) ∧
    (x.task = false → 0xFFFFFFFF < x.value.toNat + n → exec (.workFetch i) s =
      .next (levelFatal u stTallyOverflow l (2 + 4 * c) [requester t 4 false, c, x.value.toNat, n])) ∧
    (x.task = true → n = 1 → homeOk x = true →
      (∀ k, pickTask (substT s) (levelN s l).home x t = some k → exec (.workFetch i) s =
        .next (pushCtl (setCtr u l c { x with taken := k :: x.taken }) (.fetchReply t k
          (workEpoch (setCtr u l c { x with taken := k :: x.taken })) sd))) ∧
      (pickTask (substT s) (levelN s l).home x t = none → exec (.workFetch i) s =
        .next (pushCtl u (.fetchReply t 0xFFFFFFFF (workEpoch u) sd))))) ∧
  (∀ (s : State) (i t n ep sd : Nat) (e : QEntry), s.ctl[i]? = some (.fetchReply t n ep sd) → headIs (tileAt s t) 4 0x38 = some e →
    leaveWait s t = false → e.sent = true → exec (.workFetchReply i) s = .next (setTile { s with ctl := dropAt s.ctl i } t
      (writeReg (popHead (tileAt s t) 4) sd (BitVec.ofNat 64 (n % 2 ^ 32 + ep % 2 ^ 16 * 2 ^ 32))))) ∧
  (∀ (s : State) (t : Nat), t < 2304 → (tileAt s t).sq.st = .halted → (tileAt s t).sq.fault = false → tileDrained (tileAt s t) = true →
    tilePaused s t = false →
    exec (.tileFinished t) s = .next (endSections (setTile s t { tileAt s t with
      sq := { (tileAt s t).sq with st := .finished }, net := addSpoil (closeQueues (tileAt s t).net) 0 (netHeld (tileAt s t).net) })))

/-- For a queue of a port that the host reaches. Doorbells of an enabled queue without ERR: an index below SIZE is the new tail, or the new head with held entries written; another sets ERR with the contained record. A CFG write: only EN while EN is 1, else every field, bytes enabled; setting EN starts the queue at index 0 (a CQ with PHASE 1), clearing EN of an SQ drops what was not taken. A held reply is written when the CQ takes it. The coalescing limit signals the vector of a CQ with unsignalled entries. Where the spec leaves a point of it open, the clause is the model's choice or reading: logs 23, 58. -/
def Obligations.QueueRegistersFollowTheirWrites : Prop :=
  (∀ (s : State) (p q v : Nat), p ≤ 1 → q ≤ 16 → hostReaches s p (queuePf q) = true →
    (sqEn (sqN (portN s p) q) = true → (sqN (portN s p) q).err = false →
      (v % 4096 < sqSize (sqN (portN s p) q) →
        exec (.sqTailDoorbell p q v) s = .next (modSq s p q fun y => { y with tail := v % 4096 })) ∧
      (sqSize (sqN (portN s p) q) ≤ v % 4096 →
        exec (.sqTailDoorbell p q v) s = .next (queueRecord (modSq s p q fun y => { y with err := true }) p q false))) ∧
    (cqEn (cqN (portN s p) q) = true → (cqN (portN s p) q).err = false →
      (v % 4096 < cqSize (cqN (portN s p) q) →
        exec (.cqHeadDoorbell p q v) s =
          .next (drainHeld p q (cqN (portN s p) q).held.length (modCq s p q fun y => { y with head := v % 4096 }))) ∧
      (cqSize (cqN (portN s p) q) ≤ v % 4096 →
        exec (.cqHeadDoorbell p q v) s = .next (queueRecord (modCq s p q fun y => { y with err := true }) p q true)))) ∧
  (∀ (s : State) (p q : Nat) (v : BitVec 64) (be : BitVec 8), p ≤ 1 → q ≤ 16 → hostReaches s p (queuePf q) = true →
    (let x := sqN (portN s p) q
     let c := merge64 x.cfg v (beMask be &&& BitVec.ofNat 64 (if bitAt x.cfg 17 then 0x20000 else 0x7FFFF))
     (bitAt c 17 = true → bitAt x.cfg 17 = false →
        exec (.sqCfgWrite p q v be) s = .next (modSq s p q fun _ => { x with cfg := c, head := 0, tail := 0, err := false })) ∧
     (bitAt c 17 = true → bitAt x.cfg 17 = true → exec (.sqCfgWrite p q v be) s = .next (modSq s p q fun _ => { x with cfg := c })) ∧
     (bitAt c 17 = false → exec (.sqCfgWrite p q v be) s = .next (modSq s p q fun _ => { x with cfg := c, tail := x.head }))) ∧
    (let x := cqN (portN s p) q
     let c := merge64 x.cfg v (beMask be &&& BitVec.ofNat 64 (if bitAt x.cfg 23 then 0x800000 else 0xFFFFFFFFFFFF))
     (x.held = [] → bitAt c 23 = true → bitAt x.cfg 23 = false → exec (.cqCfgWrite p q v be) s =
        .next (modCq s p q fun _ => { x with cfg := c, head := 0, tail := 0, phase := true, err := false, unsig := 0 })) ∧
     (x.held = [] → ¬(bitAt c 23 = true ∧ bitAt x.cfg 23 = false) →
        exec (.cqCfgWrite p q v be) s = .next (modCq s p q fun _ => { x with cfg := c })))) ∧
  (∀ (s : State) (p q : Nat) (r : Reply) (rest : List Reply), p ≤ 1 → q ≤ 16 →
    (cqN (portN s p) q).held = r :: rest → cqOpen (portN s p) (cqN (portN s p) q) = true →
    exec (.cqReplyWrite p q) s = .next (writeEntry (modCq s p q fun x => { x with held := rest }) p q r)) ∧
  (∀ (s : State) (p q : Nat), p ≤ 1 → q ≤ 16 → (cqN (portN s p) q).unsig ≠ 0 →
    exec (.cqCoalesceTimeout p q) s =
      .next (signal (modCq s p q fun y => { y with unsig := 0 }) p (queuePf q) (cqVec q (cqN (portN s p) q))))

/-- For a queue in host memory whose turn it is on a trained port, with a packet of n slots wholly before the tail, and the CP below 256 held packets or the fast path: the turn and the head move past the n slots and the packet gets the next ticket. If the packet passes the form checks and names this device, it becomes outstanding when the job checks pass and is answered by their refusal otherwise; one for a Member that the Pithead forwards stays outstanding and is sent unless a fence holds it; if it fails a form check, it is answered by that refusal and never becomes outstanding. A packet that reaches beyond the tail only passes the turn. Fewer bytes than a slot stand for a read that failed (the model's form of it): ERR with the contained record. Where the spec leaves a point of it open, the clause is the model's choice or reading: logs 23, 51. -/
def Obligations.PacketsAreTakenInTurnAndChecked : Prop :=
  ∀ (s : State) (p q : Nat) (bytes : List Byte), p ≤ 1 → q ≤ 16 → s.module = .on → s.s3 = false → (portN s p).link = true →
    nextSq (portN s p) = some q → bitAt (sqN (portN s p) q).cfg 12 = false →
    let x := sqN (portN s p) q
    let n := max 1 (leAt (slice bytes 0 64) 2 1)
    let b := slice bytes 0 (64 * n)
    let turn := modPort s p fun y => { y with rr := q }
    let head := (x.head + n) % sqSize x
    let k : Packet := { ticket := s.ticket, port := p, sq := q, sqhead := head, bytes := b, sent := false, count := 0,
                        drop := false, sub := none, res := none, away := false, fast := isFast s x b }
    let u : State := { modSq turn p q (fun y => { y with head := head }) with ticket := s.ticket + 1 }
    (bytes.length < 64 ∨ (n ≤ (x.tail + sqSize x - x.head) % sqSize x ∧ bytes.length < 64 * n) →
      exec (.packetTake p q bytes) s = .next (queueRecord (modSq turn p q fun y => { y with err := true }) p q false)) ∧
    (64 ≤ bytes.length → (x.tail + sqSize x - x.head) % sqSize x < n → exec (.packetTake p q bytes) s = .next turn) ∧
    (64 * n ≤ bytes.length → n ≤ (x.tail + sqSize x - x.head) % sqSize x → (isFast s x b = true ∨ cpHeld s p < 256) →
      (devTest u k = .forward → checkForm u k = none →
        exec (.packetTake p q bytes) s = .next (sendForwards { u with out := u.out ++ [{ k with away := true }] })) ∧
      (devTest u k ≠ .forward → checkForm u k = none → checkJob u k = none → exec (.packetTake p q bytes) s = .next { u with out := u.out ++ [k] }) ∧
      (∀ e, devTest u k ≠ .forward → checkForm u k = none → checkJob u k = some e → exec (.packetTake p q bytes) s = .next (replyPacket u k e.1 e.2 0 0)) ∧
      (∀ e, checkForm u k = some e → exec (.packetTake p q bytes) s = .next (replyPacket u k e.1 e.2 0 0)))

/-- On a port that the host reaches: a BAR0 register write sets SQ_BASE, CQ_BASE, EVLOST, APBASE bits [47:36] or OVF, and leaves DEVSTAT; an MSI-X dword is stored; a BAR2 read of a memory range that the rights of R231 allow answers the bytes, a write changes the bytes it covers there, and a refused access is recorded; Level-unit reads of the computing job's port answer the register; FIFO bytes are appended while room lasts, the rest counted in OVF; a configuration write is stored and answered with code 0, or code 2 before the port is ready; ALERT_STATUS_READ leaves ALERT_N low only while a cause stands. Where the spec leaves a point of it open, the clause is the model's choice or reading: logs 22, 58. -/
def Obligations.HostAccessesAndFifo : Prop :=
  (∀ (s : State) (p off : Nat) (v : BitVec 64) (be : BitVec 8), p ≤ 1 →
    (∀ pf, pf ≤ 1 → hostReaches s p pf = true →
      exec (.registerWrite p pf off v be) s = .next (bar0Write64 s p pf (off / 8 * 8) v (beMask be))) ∧
    (∀ pf, pf ≤ 1 → hostReaches s p pf = true → off < (if pf = 0 then 0x4000 else 0x100) → be = 0x0F → off % 8 = 0 →
      exec (.registerWrite p (pf + 2) off v be) s =
        .next (msixWrite (msixWrite s p pf (off / 8 * 2) (v.setWidth 32)) p pf (off / 8 * 2 + 1) (arrGet (funcN s p pf).msix (off / 8 * 2 + 1) 0))) ∧
    (hostReaches s p 0 = true →
      (∀ q, q < 16 →
        exec (.registerWrite p 0 (0x10000 + 0x40 * q) v 0xFF) s = .next (modSq s p q fun x => { x with base := v }) ∧
        exec (.registerWrite p 0 (0x11000 + 0x40 * q) v 0xFF) s = .next (modCq s p q fun x => { x with base := v }) ∧
        exec (.registerWrite p 0 (0x11010 + 0x40 * q) v 0xFF) s = .next (modCq s p q fun x => { x with evlost := BitVec.ofNat 32 (fld v 63 32) })) ∧
      exec (.registerWrite p 0 0x12008 v 0xFF) s = .next (modPort s p fun x => { x with apbase := BitVec.ofNat 64 (fld v 47 36 * 2 ^ 36) }) ∧
      exec (.registerWrite p 0 0x12010 v 0xFF) s =
        .next (modPort s p fun x => { x with fifo := { x.fifo with ovf := BitVec.ofNat 32 (fld v 63 32) } }) ∧
      exec (.registerWrite p 0 0x12000 v be) s = .next s)) ∧
  (∀ (s : State) (p off : Nat) (a : BusAccess), p ≤ 1 → hostReaches s p 0 = true → off + accLen a ≤ 2 ^ bar2Bits (portN s p).pf0 →
    0 < accLen a → s.s3 = false →
    let addr := (portN s p).apbase.toNat / 2 ^ bar2Bits (portN s p).pf0 * 2 ^ bar2Bits (portN s p).pf0 + off
    ((isHbm addr = true ∧ isHbm (addr + accLen a - 1) = true) ∨ (isLpddr addr = true ∧ isLpddr (addr + accLen a - 1) = true) →
      (spanOk s p addr (accLen a) (accWrite a) = true → exec (.bar2Access p off a) s = .next (memAccess s p addr a)) ∧
      (spanOk s p addr (accLen a) (accWrite a) = false → exec (.bar2Access p off a) s = .next (barRefused s p addr a))) ∧
    (isPad addr = false →
      (∀ n, lostIn s addr n = none → memAccess s p addr (.read n) = barAnswer (binReads s addr n) p (memRead s addr n)) ∧
      (∀ d, lostIn s addr d.length = none → memAccess s p addr (.write d) = ((List.range d.length).zip d).foldl (fun s e =>
        match e.2 with
        | some b => memWrite s (addr + e.1) b
        | none => s) s))) ∧
  (∀ (s : State) (p off n : Nat), p ≤ 1 → hostReaches s p 0 = true → portComputes s p = true → s.s3 = false → 0 < n →
    0xC00000 ≤ off → off + n ≤ 0xC00800 →
    exec (.bar0LevelUnitAccess p off (.read n)) s = .next (barAnswer s p (wordBytes (fun o => cbarRead64 s (o - 0xC00000)) off n))) ∧
  (∀ (s : State) (p off n : Nat), p ≤ 1 → hostReaches s p 0 = true → portComputes s p = true → s.s3 = false → 0 < n →
    0x800000 ≤ off → off + n ≤ 0xC00000 → s.s2.contains ((off - 0x800000) / 0x100000) = false →
    let lv := (off - 0x800000) / 0x100000
    let u : State := { s with lvA1 := s.lvA1.filter (· ≠ lv) }
    exec (.bar0LevelUnitAccess p off (.read n)) s = .next (barAnswer u p (wordBytes (fun o => luRead64 u lv (o % 0x100000)) off n))) ∧
  (∀ (s : State) (p : Nat) (bytes : List Byte), p ≤ 1 → hostReaches s p 0 = true →
    let f := (portN s p).fifo
    (f.bytes.length + bytes.length ≤ 8388608 → exec (.hostFifoWrite p bytes) s =
      .next (fifoMark (modPort s p fun x => { x with fifo := { x.fifo with bytes := x.fifo.bytes ++ bytes, ovf := x.fifo.ovf + 0 } }) p)) ∧
    (8388608 ≤ f.bytes.length → f.full = true → exec (.hostFifoWrite p bytes) s =
      .next (fifoMark (modPort s p fun x => { x with fifo := { x.fifo with
        bytes := x.fifo.bytes ++ [], ovf := x.fifo.ovf + BitVec.ofNat 32 (cdiv bytes.length 32) } }) p))) ∧
  (∀ (s : State) (p reg : Nat) (w : Option (BitVec 32)), p ≤ 1 → reg ≤ 1023 → s.module = .on → (portN s p).perst = false →
    ((portN s p).link = false → exec (.configurationRequest p 0 reg w) s =
      .next { s with answers := s.answers ++ [{ who := .config p 0, code := 2, bytes := [] }] }) ∧
    (∀ v, (portN s p).link = true → w = some v → exec (.configurationRequest p 0 reg w) s =
      .next (let u := modPort s p fun x => { x with pf0 := { x.pf0 with conf := arrPut x.pf0.conf reg v false } }
             { u with answers := u.answers ++ [{ who := .config p 0, code := 0, bytes := [] }] }))) ∧
  (∀ s : State, exec .alertStatusRead s =
    .next { s with alert := s.power.brown || s.power.throt || s.power.heat || cfgErr s || s.errs.fatal })

/-- For a packet that may start: NOP completes with OK; IDENTIFY writes the identify structure to the host and answers the ordering code in RESULT0; GET_STATUS answers DEVSTAT and the computing job; SET_FEATURE with a value in its range stores it and answers the value before; out of range, or an unknown FID, BAD_PARAM with the field's offset and nothing stored; GET_FEATURE answers the value. EARLY packets get ACCEPTED first. Where the spec leaves a point of it open, the clause is the model's choice or reading: logs 1, 57. -/
def Obligations.IdentificationAndFeatures : Prop :=
  ∀ (s : State) (k : Nat) (x : Packet),
    (Taken s k 0x0001 x → exec (.nop k) s = .next (replyOk (early s x) k 0 0)) ∧
    (Taken s k 0x0002 x → exec (.identify k) s =
      .next (replyOk (hostWrite (early s x) x.port (pfld x 0x10 8) (identifyBytes s)) k orderingCode 0)) ∧
    (Taken s k 0x0003 x → exec (.getStatus k) s = .next (replyOk (early s x) k (devStat s x.port) (s.comp.getD 0))) ∧
    (Taken s k 0x0004 x →
      let f := pfld x 0x10 2
      let v := pfld x 0x14 4
      (featRange f = none → exec (.setFeature k) s = .next (refuse s k stBadParam 0x10)) ∧
      (∀ lo hi, featRange f = some (lo, hi) →
        (v < lo ∨ hi < v → exec (.setFeature k) s = .next (refuse s k stBadParam 0x14)) ∧
        (f = 1 → v = 0 → feature s 1 = 1 → exec (.setFeature k) s = .next (refuse s k stBadParam 0x14)) ∧
        (f ≠ 1 → lo ≤ v → v ≤ hi → exec (.setFeature k) s =
          .next (replyOk { early s x with feat := arrSet s.feat f v (featDefault f) } k (feature s f) 0)))) ∧
    (Taken s k 0x0005 x → (featRange (pfld x 0x10 2)).isSome = true →
      exec (.getFeature k) s = .next (replyOk (early s x) k (feature s (pfld x 0x10 2)) 0))

/-- For packets that may start. JOB_OPEN with good fields, a free job place and, for a BE job, a free key slot and save areas: the new job has the lowest free ID after the last one, state 0, the packet's port and options, the save area and a key slot with a key drawn from the generator; of a cascade job the Members are told. JOB_CLOSE of a job that neither switches nor carries its own queue: the job is gone; OK, or TALLY_UNBALANCED with the first virtual ID and the number. JOB_QUERY writes the 64-byte record. JOB_PREEMPT of the computing BE job decides a forced switch whose cause is the job itself, or joins the switch that is decided (the model's reading, log 64); of one not computing it is OK at once. Where the spec leaves a point of it open, the clause is the model's choice or reading: logs 40, 64, 65. -/
def Obligations.JobsOpenCloseAndReport : Prop :=
  (∀ (s : State) (k : Nat) (x : Packet) (area : List Nat), Taken s k 0x0200 x → openField s x = none → s.jobs.length < 64 →
    let lc := decide (pfld x 0x10 1 = 0)
    (lc = true ∧ area = [] ∨ lc = false ∧ (freeSlot s).isSome = true ∧ s.sec.rngWait = false ∧ saveArea s (pfld x 0x16 1) = some area) →
    let j : Job := {
      id := nextJob s, port := x.port, lc := lc, split := pfld x 0x11 1, adopt := pfld x 0x12 1 = 1, casc := pfld x 0x13 1 = 1,
      client := pfld x 0x14 1, evcq := pfld x 0x15 1, tier := pfld x 0x16 1, seed := BitVec.ofNat 64 (pfld x 0x18 8),
      key := if lc then none else freeSlot s, state := .opened, area := area, saved := none, wepoch := 0, enq := none,
      pre := none, qwait := 0, preempts := 0, ptime := 0, energy := 0, fail := 0, preBy := 0, doomed := false }
    let u := takeKey (early s x) j.key
    exec (.jobOpen k) s = .next (replyOk (tellCascade { u with jobs := u.jobs ++ [j], lastJob := j.id } j 0 x.bytes) k j.id 0) ∧
    (∀ n, j.key = some n → u.keys = arrPut s.keys n (drawKey s.rng) false ∧ u.rng = s.rng + 4)) ∧
  (∀ (s : State) (k : Nat) (x : Packet) (j : Job), TakenJob s k 0x0201 x j → carryingQueue s x j.id = none → switchOf s j.id = false →
    let r := closeJob (modPacket (early s x) k fun y => { y with sent := true }) j k
    (r.2 = [] → exec (.jobClose k) s = .next (replyOk r.1 k 0 0)) ∧
    (∀ v vs, r.2 = v :: vs → exec (.jobClose k) s = .next (complete r.1 k stTallyUnbalanced 0 v (vs.length + 1)))) ∧
  (∀ (s : State) (k : Nat) (x : Packet) (j : Job), TakenJob s k 0x0203 x j → pfld x 0x18 1 = 0 →
    exec (.jobQuery k) s = .next (replyOk (hostWrite (early s x) x.port (pfld x 0x10 8) (jobRecordBytes s j)) k 0 0)) ∧
  (∀ (s : State) (k : Nat) (x : Packet), Taken s k 0x0203 x → pfld x 0x18 1 = 1 →
    exec (.jobQuery k) s = .next (replyOk (hostWrite (early s x) x.port (pfld x 0x10 8) (clientBytes s x.port (pfld x 0x19 1))) k 0 0)) ∧
  (∀ (s : State) (k : Nat) (x : Packet) (j : Job), TakenJob s k 0x0202 x j → j.lc = false →
    (s.comp ≠ some j.id → exec (.jobPreempt k) s = .next (replyOk (early s x) k 0 0)) ∧
    (s.comp = some j.id → x.sent = false → s.sw = none →
      let u := tellSwitch (modJob (modPacket (early s x) k fun y => { y with sent := true }) j.id fun y => { y with pre := some (shaftCount s) }) j true
      exec (.jobPreempt k) s = .next (notify
        { u with sw := some { job := j.id, phase := .wait, forced := true, ticket := some k, cause := j.id, start := s.clock } }
        (.switch j.id (shaftCount s)))) ∧
    (∀ w, s.comp = some j.id → x.sent = false → s.sw = some w →
      exec (.jobPreempt k) s = .next { modPacket (early s x) k (fun y => { y with sent := true }) with
        sw := some { w with forced := w.forced || w.phase = .wait, ticket := w.ticket <|> some k } }))

/-- For packets of an open job that may start. REGION_CREATE whose checks pass: the region exists at the base found, belongs to the job and its port with all rights, has a salt drawn from the generator, and its job a key slot whose key was drawn before it; the base is answered, once the initialisation that it asks for has ended; a failing check answers its status and DETAIL and changes nothing else. REGION_DESTROY of an unbound, unlocked region of a job that does not run, with no transfer in it, removes it. REGION_PROTECT sets TW, HR, HW of that region alone. COPY and FILL ask leave when they start; with ranges the rights allow and no lost line they write the bytes at DST, or to the host, and complete with OK, in the row that starts them when leave is granted at once, else in a later one; a lost line ends them with FAULT_FATAL. Where the spec leaves a point of it open, the clause is the model's choice or reading: logs 16, 50, 56. -/
def Obligations.RegionsAndTransfers : Prop :=
  (∀ (s : State) (k : Nat) (x : Packet) (j : Job), TakenJob s k 0x0100 x j → x.sent = false →
    (∀ o, createField s x = some o → exec (.regionCreate k) s = .next (refuse s k stBadParam o)) ∧
    (createField s x = none → (j.key.isSome = true ∨ (freeSlot s).isSome = true) → s.regions.length < 1024 →
      (∀ o, createBase s x = .error o → exec (.regionCreate k) s = .next (refuse s k stBadParam o)) ∧
      (∀ base, createBase s x = .ok base → s.sec.rngWait = false →
        let gran := pfld x 0x18 4
        let zero := pfld x 0x13 1 = 1 || pfld x 0x12 1 ≠ 0
        let slot := if j.key.isSome then none else freeSlot s
        let u := takeKey (memDrop (bumpFresh (early s x)) base (base + gran * 0x200000)) slot
        let r : Region :=
          { base := base, gran := gran, tier := pfld x 0x10 1, level := pfld x 0x11 1, prot := pfld x 0x12 1, job := j.id, port := j.port,
            tw := true, hr := true, hw := true, zero := zero, salt := drawKey u.rng, fresh := s.fresh + 1 }
        let v := modJob (memCanon { u with regions := u.regions ++ [r], rng := u.rng + 4 }) j.id fun y =>
          { y with key := if y.key.isSome then y.key else slot }
        let w := startTransfer v k j.lc [(base, gran * 0x200000)]
        (zero = false → exec (.regionCreate k) s = .next (endTransfer v k (base % 2 ^ 32) (base / 2 ^ 32))) ∧
        (zero = true → hasAsked w (.command k) = false →
          exec (.regionCreate k) s = .next (endTransfer w k (base % 2 ^ 32) (base / 2 ^ 32))) ∧
        (zero = true → hasAsked w (.command k) = true →
          exec (.regionCreate k) s = .next (modPacket w k fun y => { y with sent := true, count := base }))))) ∧
  (∀ (s : State) (k : Nat) (x : Packet) (j : Job), TakenJob s k 0x0100 x j → x.sent = true →
    exec (.regionCreate k) s = .next (endTransfer s k (x.count % 2 ^ 32) (x.count / 2 ^ 32))) ∧
  (∀ (s : State) (k : Nat) (x : Packet) (j : Job) (r : Region), TakenJob s k 0x0101 x j → regionBase s j.id (pfld x 0x10 8) = some r →
    (∀ d, boundQueue s r = some d → exec (.regionDestroy k) s = .next (refuse s k stJobBusy d)) ∧
    (boundQueue s r = none → regionLocked s r.base = false → jobRunning s j.id = false →
      (transferIn s (r.base, r.gran * 0x200000) = true → exec (.regionDestroy k) s = .next s) ∧
      (transferIn s (r.base, r.gran * 0x200000) = false →
        exec (.regionDestroy k) s = .next (replyOk (destroyRegion (early s x) r) k 0 0)))) ∧
  (∀ (s : State) (k : Nat) (x : Packet) (j : Job) (r : Region), TakenJob s k 0x0104 x j → regionBase s j.id (pfld x 0x10 8) = some r →
    let w := pfld x 0x18 1
    (∀ d, (nbit w 1 && nbit w 2) = false → boundQueue s r = some d → exec (.regionProtect k) s = .next (refuse s k stJobBusy d)) ∧
    (((nbit w 1 && nbit w 2) = true ∨ boundQueue s r = none) → regionLocked s r.base = false →
      exec (.regionProtect k) s = .next (replyOk { early s x with
        regions := (early s x).regions.map fun y => if y = r then { y with tw := nbit w 0, hr := nbit w 1, hw := nbit w 2 } else y } k 0 0))) ∧
  (∀ (s : State) (k : Nat) (x : Packet) (j : Job) (dma : List Byte), TakenJob s k 0x0102 x j → (x.sent = true ∨ copyField s x = none) →
    let h := pfld x 0x28 1
    let len := pfld x 0x20 8
    let src := pfld x 0x10 8
    let dst := pfld x 0x18 8
    let v := if x.sent then s else startTransfer (early s x) k j.lc
      ((if nbit h 0 then [] else [(src, len)]) ++ if nbit h 1 then [] else [(dst, len)])
    (x.sent = false → hasAsked v (.command k) = true →
      exec (.copy k dma) s = .next (modPacket v k fun y => { y with sent := true, count := 0 })) ∧
    ((x.sent = true ∨ hasAsked v (.command k) = false) →
      (h = 0 → lostIn v src len = none → lostIn v dst len = none → exec (.copy k dma) s =
        .next (endTransfer (memPut (binReads v src len) dst (memRead v src len)) k 0 0)) ∧
      (h = 1 → lostIn v dst len = none → exec (.copy k dma) s = .next (endTransfer (memPut v dst (slice dma 0 len)) k 0 0)) ∧
      (h = 2 → lostIn v src len = none → exec (.copy k dma) s =
        .next (endTransfer (hostWrite (binReads v src len) x.port dst (memRead v src len)) k 0 0)) ∧
      (∀ a, h = 0 → lostIn v src len = some a → exec (.copy k dma) s =
        .next (releaseLeave (refuse (memFatal v a false) k stFaultFatal 0) (.command k))))) ∧
  (∀ (s : State) (k : Nat) (x : Packet) (j : Job), TakenJob s k 0x0103 x j →
    let len := pfld x 0x18 8
    let dst := pfld x 0x10 8
    (x.sent = true ∨ (len ≠ 0 ∧ len ≤ 2 ^ 40 ∧ spanOk s x.port dst len true = true)) →
    let v := if x.sent then s else startTransfer (early s x) k j.lc [(dst, len)]
    (x.sent = false → hasAsked v (.command k) = true →
      exec (.fill k) s = .next (modPacket v k fun y => { y with sent := true, count := 0 })) ∧
    ((x.sent = true ∨ hasAsked v (.command k) = false) →
      (lostIn v dst len = none → exec (.fill k) s = .next (endTransfer (memPut v dst
        ((List.range len).map fun i => BitVec.ofNat 8 (pfld x (0x20 + i % 8) 1))) k 0 0)) ∧
      (∀ a, lostIn v dst len = some a → exec (.fill k) s =
        .next (releaseLeave (refuse (memFatal v a false) k stFaultFatal 0) (.command k)))))

/-- SECTION_LOAD of the computing job, no load in progress, its image inside a region: a line of it that is lost is an uncorrectable error; else the first failing check of R307 answers its status and DETAIL and nothing is written; otherwise the mode phase follows: QUIESCED answers TOKENS_PRESENT with the tile or starts writing, DRAIN waits, DISCARD applies what the tiles have sent to the Level units, stops them with its record and writes, unless that ended the job's computing. LOAD_DRAIN_DONE starts the write phase; LOAD_DRAIN_TIMEOUT answers DRAIN_TIMEOUT. A record outside the tile region ends the load with REGION_VIOLATION and EPOCH 255; one inside it takes its effect and the next record, or the end of the load, follows. A WAIT record passes only when its masked read is met; its time limit ends the load with DRAIN_TIMEOUT. Where the spec leaves a point of it open, the clause is the model's choice or reading: logs 39, 50. -/
def Obligations.LoadsVerifyDrainAndWrite : Prop :=
  (∀ (s : State) (k : Nat) (x : Packet) (j : Job) (ok : Bool) (r : Region), TakenJob s k 0x0300 x j → s.load = none → s.comp = some j.id →
    pfld x 0x20 1 ≤ 2 → regionBase s j.id (pfld x 0x10 8) = some r → pfld x 0x18 8 + 256 ≤ visibleBytes r → s.resets = [] → s.s2 = [] →
    leaving s j.id = false →
    let off := pfld x 0x18 8
    let img := imageOf j.id r.base (r.base + off) (memRead s (r.base + off) 256)
    (∀ a, loadLost s img (visibleBytes r - off) = some a → exec (.sectionLoad k ok) s = .next (memFatal s a false)) ∧
    (loadLost s img (visibleBytes r - off) = none →
    let l : Load := { ticket := k, img := img, phase := .drain, index := 0, off := 256, tokens := 0 }
    let v := imageRead s img (visibleBytes r - off)
    let u := early v x
    (∀ e, verifyImage s img (visibleBytes r - off) ok = .error e → exec (.sectionLoad k ok) s = .next (refuse v k e.1 e.2)) ∧
    (∀ rs, verifyImage s img (visibleBytes r - off) ok = .ok rs →
      (∀ t, pfld x 0x20 1 = 0 → unquiesced u img.rect = some t → exec (.sectionLoad k ok) s = .next (refuse u k stTokensPresent t)) ∧
      (pfld x 0x20 1 ≤ 1 → unquiesced u img.rect = none → exec (.sectionLoad k ok) s = .next (startWrite u l)) ∧
      (∀ t, pfld x 0x20 1 = 1 → unquiesced u img.rect = some t → exec (.sectionLoad k ok) s = .next { u with load := some l }) ∧
      (pfld x 0x20 1 = 2 → let d := discardRegion u img.rect
        exec (.sectionLoad k ok) s = .next (if d.1.comp = u.comp then startWrite d.1 { l with tokens := d.2 } else d.1))))) ∧
  (∀ (s : State) (l : Load), s.load = some l → l.phase = .drain →
    (unquiesced s l.img.rect = none → exec .loadDrainDone s = .next (startWrite s l)) ∧
    (∀ t, unquiesced s l.img.rect = some t → exec .loadDrainTimeout s = .next (refuse { s with
      load := none, paused := s.paused ++ (goodTiles s l.img.rect).filter fun u => !s.paused.contains u } l.ticket stDrainTimeout t))) ∧
  (∀ (s : State) (l : Load) (a : Nat), s.load = some l → recordLost s l = some a →
    exec .frameRecord s = .next (memFatal s a false)) ∧
  (∀ (s : State) (l : Load) (r : Rec), s.load = some l → recordLost s l = none → nextRecord s l = some r →
    (recLies l.img r = false →
      (recFrame r = true → exec .frameRecord s = .next (abortLoad s l stRegionViolation)) ∧
      (recFrame r = false → recOp r = 1 → exec .commandRecordWrite s = .next (abortLoad s l stRegionViolation)) ∧
      (recFrame r = false → recOp r = 2 → exec .commandRecordBcast s = .next (abortLoad s l stRegionViolation)) ∧
      (recFrame r = false → recOp r = 3 → exec .commandRecordWait s = .next (abortLoad s l stRegionViolation))) ∧
    (recLies l.img r = true →
      (recFrame r = true → exec .frameRecord s = .next (stepRecord (applyFrame s r) l r)) ∧
      (recFrame r = false → recOp r = 1 → (isCtl (recAddr r) = true →
          recordBreaks s [substT s ((recAddr r - 0x090000000000) / 0x10000)] (recAddr r % 0x10000) r = none) →
        exec .commandRecordWrite s = .next (stepRecord (recordWrite s r) l r)) ∧
      (recFrame r = false → recOp r = 2 → recordBreaks s (goodTiles s (recRect r)) (recAddr r) r = none →
        exec .commandRecordBcast s = .next (stepRecord
        ((goodTiles s (recRect r)).foldl (fun s t => modTile s t (recordTile (jobSplit s) (recAddr r) r)) s) l r)) ∧
      (∀ t e, recFrame r = false → recOp r = 2 → recordBreaks s (goodTiles s (recRect r)) (recAddr r) r = some (t, e) → s.comp.isSome = true →
        exec .commandRecordBcast s = .next (tileFatal s t 8 0xFFFF e)) ∧
      (recFrame r = false → recOp r = 3 →
        (waitMet s r = true → exec .commandRecordWait s = .next (stepRecord s l r)) ∧
        (waitMet s r = false → exec .commandRecordWait s = .next s ∧
          exec .loadWaitTimeout s = .next (abortLoad s l stDrainTimeout)))))

/-- SECTION_LAUNCH of an open job: EPOCH 0 claims the device: OK at once when the job computes, else the job enters its queue; a launch of a job without the device waits and its job enters its queue; one whose rectangle is sound and whose job computes is checked and asks leave. SECTION_START at or after AT starts the tiles of a granted launch whose tiles are fit. LEAVE_TIMEOUT refuses a launch that still waits. A replayable section starts after every operation sent to the Level units before it is applied. SECTION_STOP applies what the acting tiles have sent, stops them and answers how many ran. SECTION_COMMIT drops the input logs of the replayable sections it meets, and the snapshot with the last of them that it could restore. Where the spec leaves a point of it open, the clause is the model's choice or reading: logs 50, 62. -/
def Obligations.SectionsLaunchStopAndCommit : Prop :=
  (∀ (s : State) (k : Nat) (x : Packet) (j : Job), TakenJob s k 0x0301 x j → (∀ l ∈ s.launches, l.ticket ≠ k) →
    let u := if j.state = .opened then enterQueue s j else s
    (pfld x 0x14 1 = 0 → u.comp ≠ some j.id → exec (.sectionLaunch k) s = .next u) ∧
    (pfld x 0x14 1 = 0 → u.comp = some j.id → exec (.sectionLaunch k) s = .next (replyOk (early u x) k 0 0)) ∧
    (pfld x 0x14 1 ≠ 0 → (∀ o, rectField (pRect x) = some o → exec (.sectionLaunch k) s = .next (refuse s k stBadParam o)) ∧
      (rectField (pRect x) = none →
        (u.comp ≠ some j.id → exec (.sectionLaunch k) s = .next (holdLaunch u x j.id (pRect x))) ∧
        (u.comp = some j.id → switching u j.id = false → loadMeets u (pRect x) = false →
          exec (.sectionLaunch k) s = .next (checkLaunch u x j (pRect x)))))) ∧
  (∀ (s : State) (l : Launch), s.launches.find? (·.ticket = l.ticket) = some l → l.stage = .ready → s.resets = [] → swapHolds s l = false →
    s.comp = some l.job → switching s l.job = false → loadMeets s l.rect = false →
    (shaftCount s < l.at_ → exec (.sectionStart l.ticket) s = .next s) ∧
    (l.at_ ≤ shaftCount s →
      (launchBad s (launchTiles s l.rect) l.epoch = none →
        (imageRpl l.img = false → exec (.sectionStart l.ticket) s = .next (beginSection s l)) ∧
        (imageRpl l.img = true → exec (.sectionStart l.ticket) s = .next
          (if ((settleUnits s).launches.find? (·.ticket = l.ticket)).isSome then beginSection (settleUnits s) l else settleUnits s))) ∧
      (∀ t, launchBad s (launchTiles s l.rect) l.epoch = some t →
        exec (.sectionStart l.ticket) s = .next (refuseLaunch s l.ticket stBadParam t)))) ∧
  (∀ (s : State) (l : Launch), s.launches.find? (·.ticket = l.ticket) = some l → l.tmo ≠ 0 → (l.stage = .waiting ∨ l.stage = .leave) →
    exec (.leaveTimeout l.ticket) s = .next (refuse (releaseLeave
      { s with launches := s.launches.filter (·.ticket ≠ l.ticket) } (.launch l.ticket)) l.ticket stLeaveTimeout 0)) ∧
  (∀ (s : State) (k : Nat) (x : Packet) (j : Job), TakenJob s k 0x0302 x j → rectField (pRect x) = none → s.comp = some j.id →
    scanning s j.id = false →
    let u := settleAt (early s x) (actingTiles s (pRect x))
    exec (.sectionStop k) s = .next (if u.comp = s.comp then replyOk (stopTiles u (actingTiles s (pRect x))) k
      ((actingTiles s (pRect x)).filter fun t => tileRunning (tileAt s t)).length 0 else u)) ∧
  (∀ (s : State) (k : Nat) (x : Packet) (j : Job), TakenJob s k 0x0303 x j → rectField (pRect x) = none →
    let ks := (s.launches.filter fun l => l.job = j.id && l.stage = .running && imageRpl l.img && rectsMeet l.rect (pRect x)).map (·.ticket)
    (ks ≠ [] → exec (.sectionCommit k) s = .next (replyOk (dropSnapshot { early s x with
      launches := s.launches.map fun l => if ks.contains l.ticket then { l with committed := true } else l
      replays := s.replays.filter fun p => !ks.contains p.ticket } j.id) k 0 0)) ∧
    (ks = [] → ranReplayable (jobView s j) j.id (pRect x) = true → exec (.sectionCommit k) s = .next (replyOk (early s x) k 0 0)))

/-- SECTION_SAVE, no tile of the rectangle running, into a range of the job's own region that the host may write: for the computing job after everything in flight is applied, else from its saved state, the save stands at DST with its header, and its size is answered; a lost line is an uncorrectable error. SECTION_RESTORE from a save whose header matches: the tiles and scratchpads hold what the save held under the loaded configuration, the Level units of the Levels met, the tally map and the snapshot return, and the job's work epoch is the saved one; of a job that does not compute this is done to its saved state; what the blocks hold is a free value when they are not those that the device wrote. Either ends with no more than the settled state when settling has ended the job's computing. Where the spec leaves a point of it open, the clause is the model's choice or reading: logs 19, 62. -/
def Obligations.SectionSavesAndRestores : Prop :=
  (∀ (s : State) (k : Nat) (x : Packet) (j : Job), TakenJob s k 0x0304 x j → rectField (pRect x) = none →
    let r := pRect x
    let dst := pfld x 0x18 8
    let view := jobView s j
    let ts := launchTiles view r
    let size := 4096 + ts.length * 2555904 + (saveLevels r).length * 2097152
    let fin := fun (u view : State) => match lostIn u dst size with
      | some a => memFatal u a false
      | none =>
        let h := saveHeader view j.id r ts
        let live := liveState (flushAllOf view ts) ts j.wepoch
        let d := memDrop (binsWithout u fun y => decide (dst / 512 ≤ y.line) && decide (512 * y.line < dst + size)) dst (dst + size)
        replyOk (memPut { bumpFresh d with
          saves := { serial := u.fresh, job := j.id, base := dst, len := size, header := h,
                     saved := { live with levels := live.levels.map noWaiters } } :: d.saves } dst h) k (size % 2 ^ 32) (size / 2 ^ 32)
    (∀ t ∈ rectTiles r, tileRunning (tileAt view t) = false) →
    hostRange s x.port dst size true = true → (∀ g, regionAt s dst = some g → g.job = j.id) →
    let u := flushAllOf (deliverAll (settleUnits (early s x))) ts
    (s.comp = some j.id → exec (.sectionSave k) s = .next (if u.comp ≠ some j.id then u else fin u u)) ∧
    (s.comp ≠ some j.id → exec (.sectionSave k) s = .next (fin (early s x) view))) ∧
  (∀ (s : State) (k : Nat) (x : Packet) (j : Job), TakenJob s k 0x0305 x j → rectField (pRect x) = none →
    let r := pRect x
    let src := pfld x 0x18 8
    let view := jobView s j
    let ts := launchTiles view r
    let size := saveSize ts.length (saveLevels r).length
    (∀ t ∈ rectTiles r, tileRunning (tileAt view t) = false) →
    hostRange s x.port src size false = true → (∀ g, regionAt s src = some g → g.job = j.id) →
    (∀ a, lostIn s src size = some a → exec (.sectionRestore k) s = .next (memFatal s a false)) ∧
    (lostIn s src size = none →
      slice (memRead s src 4096) 0 0x18 = slice (saveHeader view j.id r ts) 0 0x18 →
      slice (memRead s src 4096) 0x20 ts.length = slice (saveHeader view j.id r ts) 0x20 ts.length →
      let u := bumpFresh (binReads (early (binReads s src 4096) x) (src + 4096) (size - 4096))
      let w := ((saveHeld s src size).map (·.saved)).getD (Config.savedState s.fresh)
      let put := fun (v : State) => { putTiles v w ts (sectionRestored v j.id) with
        levels := (List.range 4).map fun n =>
          if (saveLevels r).contains n then w.levels.getD n levelReset else levelN (putTiles v w ts (sectionRestored v j.id)) n
        tmap := w.tmap
        snap := w.snap }
      let fin := fun (v : State) => replyOk (modJob v j.id fun y => { y with wepoch := w.wepoch }) k 0 0
      (s.comp = some j.id →
        let v := settleUnits u
        exec (.sectionRestore k) s = .next (if v.comp ≠ some j.id then v else
          fin (tellGenerations (put v) (ts.filter fun t => let n := (tileAt (put v) t).net; n.gen = n.agen)))) ∧
      (s.comp ≠ some j.id →
        (j.saved = none → exec (.sectionRestore k) s = .next (fin u)) ∧
        (j.saved.isSome = true → exec (.sectionRestore k) s = .next
          (fin (modJob u j.id fun y => { y with saved := some (scanState (put view) w.wepoch).2 }))))))

/-- For packets that may start. TALLY_MAP of the acting job without a running section writes its entries; an offending field answers BAD_PARAM and leaves the map. TALLY_SIGNAL and TALLY_WAIT, held by nothing, send one operation to the Level units and are marked as sent. BARRIER_DEFINE of a barrier without arrivals writes EN, TMO and the masks, and nothing else of it. STREAM_SUBMIT with its threshold in the FIFO sends the whole messages that stand there and completes with their number when all are sent. HOSTFIFO_CONFIG sets HWM, LWM and THR. Where the spec leaves a point of it open, the clause is the model's choice or reading: logs 44, 45. -/
def Obligations.HostTalliesBarriersAndStreams : Prop :=
  (∀ (s : State) (k : Nat) (x : Packet) (j : Job), TakenJob s k 0x0400 x j → s.comp = some j.id → switchingNow s = false →
    jobRunning s j.id = false →
    (∀ o, mapField s x = some o → exec (.tallyMap k) s = .next (refuse s k stBadParam o)) ∧
    (mapField s x = none →
      exec (.tallyMap k) s = .next (replyOk ((mapEntries x).foldl (fun a e => writeMap a e.1 e.2) (early s x)) k 0 0))) ∧
  (∀ (s : State) (k : Nat) (x : Packet) (j : Job) (wait : Bool), TakenJob s k (if wait then 0x0402 else 0x0401) x j →
    pfld x 0x10 2 ≤ 4095 → pfld x 0x17 1 = 0 → x.sent = false → s.comp = some j.id → switchingNow s = false →
    replayRunning s j.id = false → (wait = true → waitsOf s x.port < 64) →
    exec (if wait then .tallyWait k else .tallySignal k) s = .next (pushCtl
      (modPacket (early s x) k fun y => { y with sent := true })
      (.tallyHost k (if wait then 2 else 0) (pfld x 0x10 2) (pfld x 0x14 3)))) ∧
  (∀ (s : State) (k : Nat) (x : Packet) (j : Job), TakenJob s k 0x0403 x j → pfld x 0x10 1 ≤ 67 → pfld x 0x11 1 ≤ 1 →
    s.comp = some j.id → switchingNow s = false → (barrierAt s (pfld x 0x10 1)).arr = [] →
    exec (.barrierDefine k) s = .next (replyOk (setBarrier (early s x) (pfld x 0x10 1) { barrierAt s (pfld x 0x10 1) with
      en := pfld x 0x11 1 = 1, tmo := BitVec.ofNat 32 (pfld x 0x14 4), bmask := BitVec.ofNat 144 (pfld x 0x20 18)
      tmask := (List.range 144).foldl (fun m i => arrSet m i (BitVec.ofNat 16 (pfld x (0x40 + 2 * i) 2)) 0) [] }) k 0 0)) ∧
  (∀ (s : State) (k : Nat) (x : Packet) (j : Job), TakenJob s k 0x0500 x j →
    let dest := pfld x 0x10 8
    let msg := pfld x 0x19 1
    let len := pfld x 0x20 8
    let f := (portN s x.port).fifo
    nbits dest 63 38 = 0 → nbits dest 31 20 ≤ 2303 → 1 ≤ msg → msg ≤ 64 → len % 32 = 0 → switchingNow s = false → j.state ≠ .preempted →
    s.out.any (fun y => y.port = x.port && y.ticket ≠ k && y.sent && pOpcode y = 0x0500) = false →
    let left := len - 32 * msg * x.count
    (x.sent = true ∨ min f.thr (left / 32) ≤ fifoOcc f) →
    let r := streamSend dest (pfld x 0x18 1) msg x.port (f.bytes.length / 32 + 1) left x.count (early s x)
    let u := fifoMark (modPacket r.1 k fun y => { y with sent := true, count := r.2.2 }) x.port
    exec (.streamSubmit k) s = .next (if r.2.1 = 0 then replyOk u k r.2.2 0 else u)) ∧
  (∀ (s : State) (k : Nat) (x : Packet), Taken s k 0x0501 x →
    (262144 < pfld x 0x10 4 → exec (.hostfifoConfig k) s = .next (refuse s k stBadParam 0x10)) ∧
    (pfld x 0x10 4 ≤ 262144 → pfld x 0x14 4 < pfld x 0x10 4 → exec (.hostfifoConfig k) s = .next (replyOk (fifoMark
      (modPort (early s x) x.port fun p =>
        { p with fifo := { p.fifo with hwm := pfld x 0x10 4, lwm := pfld x 0x14 4, thr := pfld x 0x18 4 } }) x.port) k 0 0)))

/-- For packets that may start on a ready device. CASCADE_CONFIG on the Pithead with members present and wired as the topology asks stores topology, members, identity and ratio, holds the flows that change, and tells every present device; on a Member only BARPART. CASCADE_FORWARD starts its embedded packet once; when every device of MASK has answered it completes with OK, or with the status of the lowest device that failed, that device and their number. COLLECTIVE asks leave and waits for it; with leave granted it delivers the sum of the contributions in its order to DST and completes with the number of members. Where the spec leaves a point of it open, the clause is the model's choice or reading: logs 29, 48, 63. -/
def Obligations.CascadeCommandsAct : Prop :=
  (∀ (s : State) (k : Nat) (x : Packet), Taken s k 0x0600 x → s.casc.shdone = true → deviceReady s = true →
    let topo := pfld x 0x10 1
    let members := pfld x 0x18 8
    let bar := BitVec.ofNat 4 (pfld x 0x11 1)
    (s.casc.pith = false → topo = 0 → pfld x 0x12 2 = 0 → pfld x 0x14 4 = 0 → members = 0 → pfld x 0x20 4 = 0 →
      exec (.cascadeConfig k) s = .next (replyOk (driveOutputs { early s x with casc := { (early s x).casc with barpart := bar } }) k 0 0)) ∧
    (s.casc.pith = true → topo ≤ 3 → nbit members 0 = true →
      (∀ d, ((List.range 64).filter (nbit members)).find? (fun d => !s.casc.present.contains d) = some d →
        exec (.cascadeConfig k) s = .next (refuse s k stCascadeNotReady d)) ∧
      ((∀ d < 64, nbit members d = true → d ∈ s.casc.present) →
        (topo = 0 ∨ firstMismatch s topo ((List.range 64).filter (nbit members)).length = none) →
        let u := driveOutputs (holdFlows { early s x with
          casc := setRatio { (early s x).casc with
            topo := topo, barpart := bar, domain := BitVec.ofNat 16 (pfld x 0x12 2), system := BitVec.ofNat 32 (pfld x 0x14 4)
            members := some (BitVec.ofNat 64 members) } (pfld x 0x20 4) })
        exec (.cascadeConfig k) s = .next (replyOk ((u.casc.present.filter (· ≠ deviceId s)).foldl (fun a d =>
          sendControl a d 5 [topo, pfld x 0x12 2, pfld x 0x14 4, members, pfld x 0x20 4]) u) k 0 0)) ∧
      (∀ d, (∀ d < 64, nbit members d = true → d ∈ s.casc.present) → topo ≠ 0 →
        firstMismatch s topo ((List.range 64).filter (nbit members)).length = some d →
        exec (.cascadeConfig k) s = .next (refuse s k stBadParam d)))) ∧
  (∀ (s : State) (k : Nat) (x : Packet) (replies : List (Nat × Nat)), Taken s k 0x0601 x → s.casc.pith = true → deviceReady s = true →
    let ds := maskDevices (pfld x 0x10 8)
    let u := if x.sent then s else startForward s x (ds.contains (deviceId s)) ds
    ∀ y, packetN u k = some y →
      let st := fun (d : Nat) => if d = deviceId s then y.res
        else if !reachable s d then some stCascadeNotReady else (replies.find? (·.1 = d)).map (·.2)
      ((∃ d ∈ ds, st d = none) → exec (.cascadeForward k replies) s = .next u) ∧
      ((∀ d ∈ ds, st d = some stOk) → exec (.cascadeForward k replies) s = .next (replyOk u k 0 0)) ∧
      (∀ d ds' v, (∀ d ∈ ds, st d ≠ none) → ds.filter (fun d => st d ≠ some stOk) = d :: ds' → st d = some v →
        exec (.cascadeForward k replies) s = .next (complete u k v d (ds'.length + 1) 0))) ∧
  (∀ (s : State) (k : Nat) (x : Packet) (j : Job) (others : List (Nat × List Byte)), TakenJob s k 0x0602 x j → collectiveField s x j = none →
    let me := deviceId s
    let src := pfld x 0x10 8
    let len := pfld x 0x20 8
    let ds := maskDevices (pfld x 0x28 8)
    (∀ d ∈ ds, d ∈ s.casc.present) → me ∈ ds → spanOk s x.port src len false = true →
    (nbit (pfld x 0x18 8) 63 = true ∨ spanOk s x.port (pfld x 0x18 8) len true = true) →
    (∀ d ∈ ds, d = me ∨ ∃ o ∈ others, o.1 = d) →
    let cs := collsRunning s
    let begun := cs.any fun c => c.1 = k
    let draw := (List.range 4).map fun n =>
      if (rangeLevels ((src, len) :: if nbit (pfld x 0x18 8) 63 then [] else [(pfld x 0x18 8, len)])).contains n then 30 else 0
    cs.any (fun c => c.2 = pfld x 0x32 2 && c.1 ≠ k) = false → (begun = true ∨ (cs.length < 4 ∧ neverAdmissible s.power draw = false)) →
    let u := if begun then s else { early s x with colls := cs ++ [(k, pfld x 0x32 2)] }
    let v := if hasGrant u (.command k) ∨ hasAsked u (.command k) then u else askLeave u (.command k) j.lc draw
    let w := { v with colls := v.colls.filter (·.1 ≠ k) }
    let part := fun (d : Nat) => if d = me then memRead s src len else slice (((others.find? (·.1 = d)).map (·.2)).getD []) 0 len
    let listed := ((others.map (·.1)).filter ds.contains).eraseDups
    let order := if pfld x 0x31 1 = 1 then ds else if listed.contains me then listed else me :: listed
    (hasGrant v (.command k) = false → exec (.collective k others) s = .next v) ∧
    (hasGrant v (.command k) = true → lostIn s src len = none → (nbit (pfld x 0x18 8) 63 = true ∨ lostIn s (pfld x 0x18 8) len = none) →
      exec (.collective k others) s = .next (releaseLeave (replyOk
        (collectiveDeliver (binReads w src len) x (collectiveSum (pfld x 0x30 1 = 1) (order.map part))) k ds.length (cdiv len 2048))
        (.command k))))

/-- On a module in service that samples the command (a Member what the Pithead drives, the Pithead the first that is due): FREEZE-LOG records and keeps the newest 1,024 records; HALT fails the computing cascade job; BARRIER-RELEASE completes the named barriers in which this device takes part; MARK loads a staged count; THROTTLE forces e = 1 and signals 1,019 once; RESUME ends it. SHBAR high makes a release due; SHFLT low signals 1,021 and makes FREEZE-LOG due; a released line is forgotten; SHACK high writes what waited. A ready cascade marks the present devices (on a Member, which of the farther ones are present is a free value), the Pithead stages them, and READY changes are signalled. Where the spec leaves a point of it open, the clause is the model's choice or reading: logs 29, 47. -/
def Obligations.ShaftBusCommandsAct : Prop :=
  (∀ s : State, s.module = .on →
    (sampled s .freeze = true → (s.casc.pith = true → s.casc.shfltSeen = false) →
      let u := plainRecord (driven s .freeze true) 0x0B stContained 1 4 0 []
      let keep := u.errs.ring.take 1024
      exec .freezeLog s = .next (if u.errs.unread.isEmpty then
        { u with errs := { u.errs with frozen := keep, unread := keep.map (·.seq) } } else u)) ∧
    (sampled s .halt = true → (∀ j, compJob s = some j → j.casc = true →
      let u := driven (failJob s j.id stFaultFatal) .halt true
      exec .shcmdHalt s = .next { u with casc := { u.casc with shflt := u.errs.fatal || !u.resets.isEmpty } })) ∧
    (∀ lines, sampled s .barrier = true → (s.casc.pith = false ∨ (s.casc.shfltSeen = false ∧ lines = s.casc.lines)) →
      let u := (List.range 4).foldl (fun a k => if bitAt lines k && barParticipates a k then completePhase a (64 + k) else a)
        (driven s .barrier false)
      exec (.shcmdBarrierRelease lines) s = .next { u with casc := { u.casc with lines := 0 } }) ∧
    (∀ v, sampled s .mark = true → s.casc.staged = some v →
      let u := driven s .mark false
      exec .shcmdMark s =
        .next (readySignal { u with casc := { u.casc with count := v, staged := none } } (deviceReady s))) ∧
    ((s.casc.pith = false ∨ s.casc.due = []) →
      (s.power.throt = true → exec .throttle s = .next (driven s .throttle true)) ∧
      (s.power.throt = false → exec .throttle s = .next
        (signalBoth { modPower (driven s .throttle true) (fun p => { p with throt := true, eThrot := 1 }) with alert := true } 1019)) ∧
      exec .resume s = .next (restoreNow (modPower (driven s .resume false) fun p => { p with throt := false }))) ∧
    (∀ line, line ≤ 3 → s.casc.pith = true → s.casc.shfltSeen = false → shbarOut s line (barrierAt s (64 + line)) = true →
      exec (.shbarReleased line) s = .next (makeDue
        { s with casc := { s.casc with lines := s.casc.lines ||| BitVec.ofNat 4 (2 ^ line) } } .barrier)) ∧
    (s.casc.shfltSeen = false →
      let u := signalBoth { s with casc := { s.casc with shfltSeen := true } } 1021
      exec .shfltAsserted s = .next (if s.casc.pith then makeDue u .freeze else u)) ∧
    (s.casc.shflt = false → exec .shfltReleased s = .next { s with casc := { s.casc with shfltSeen := false } }) ∧
    (s.casc.acking = true → s.casc.ackTickets = [] → (∀ r ∈ s.resets, r.kind ≠ 0) →
      exec .shackReleased s = .next (s.casc.ackEvents.foldl (fun a e => postEntry a e.1 e.2.1 e.2.2)
        { s with casc := { s.casc with acking := false, ackTickets := [], ackEvents := [] } })) ∧
    (s.casc.shdone = true → s.casc.clash = false → s.casc.ready = false →
      let near := (s.casc.jports.filter fun j => j.trained && j.up).map (·.dev)
      let present := (List.range 64).filter fun d => d = deviceId s || near.contains d || (!near.isEmpty &&
        (if s.casc.pith then s.casc.seen.any fun e => e.1 / 16 = d else nbit (Config.reading s.fresh 64) d))
      let u := { s with casc := { s.casc with ready := true, present := present } }
      let others := present.filter (· ≠ deviceId s)
      let v := if s.casc.pith && !others.isEmpty then
          others.foldl stageDevice { u with casc := { u.casc with due := u.casc.due ++ [.mark] } } else u
      exec .cascadeReady s = .next (readySignal ((List.range 12).foldl pump (bumpFresh v)) false)))

/-- On a module in service whose clock is not lost: on a Member, and on a Pithead with a local shaft or with ticks owed, a tick adds 1 to the count, takes one owed tick, and every 600,000,000th tick an INTERVAL notice goes out; a Pithead with a reference and nothing owed does not tick. An edge owes RATIO ticks (after a change of RATIO once more the old ones). A missing edge stops the count with a contained record until the second edge that returns. SHCLK loss records and clears READY, and the count is held; its return stages a count. Where the spec leaves a point of it open, the clause is the model's choice or reading: log 29. -/
def Obligations.ShaftTimeAdvances : Prop :=
  (∀ s : State, s.module = .on → s.casc.lost = false →
    (s.casc.pith = true → s.casc.force ≠ 0 → s.casc.owed = 0 → exec .shaftTick s = .next s) ∧
    (s.casc.pith = false ∨ (s.casc.stopped = false ∧ (s.casc.force = 0 ∨ s.casc.owed ≠ 0)) →
      let u : State := { s with casc := { s.casc with
        count := s.casc.count + 1, owed := if s.casc.pith && s.casc.force ≠ 0 then s.casc.owed - 1 else s.casc.owed } }
      exec .shaftTick s =
        .next (if (s.casc.count + 1).toNat % 600000000 = 0 then notify u (.interval (s.casc.count + 1).toNat) else u))) ∧
  (∀ (s : State) (i : Nat), s.module = .on → s.casc.pith = true → s.casc.ratio ≠ 0 → inCascade s = true → s.casc.owed ≤ 16 →
    (s.casc.stopped = true → s.casc.refSkip = 0 → exec (.shaftRefEdge i) s = .next { s with casc := { s.casc with refSkip := 1 } }) ∧
    (s.casc.refSkip = 2 → exec (.shaftRefEdge i) s = .next { s with casc := { s.casc with
      refSkip := 1, owed := s.casc.owed + s.casc.force, refInterval := none } }) ∧
    ((s.casc.refSkip = 1 ∨ (s.casc.refSkip = 0 ∧ s.casc.stopped = false)) → exec (.shaftRefEdge i) s = .next { s with casc := { s.casc with
      refSkip := 0, force := s.casc.ratio, stopped := false, owed := s.casc.owed + s.casc.ratio, refInterval := some i } })) ∧
  (∀ (s : State) (i : Nat), s.casc.pith = true → s.casc.force ≠ 0 → s.casc.stopped = false → s.casc.refInterval = some i →
    exec .shaftRefTimeout s =
      .next (plainRecord { s with casc := { s.casc with stopped := true, refSkip := 0 } } 0x0B stContained 1 4 0 [])) ∧
  (∀ s : State, s.module = .on → s.casc.pith = false → s.casc.lost = false → compJob s = none →
    exec .shclkLoss s = .next (readySignal { plainRecord s 0x0B stContained 1 4 0 [] with
      casc := { (plainRecord s 0x0B stContained 1 4 0 []).casc with lost := true } } (deviceReady s))) ∧
  (∀ s : State, s.casc.lost = true → exec .shclkReturn s =
    .next (bumpFresh { s with casc := { s.casc with lost := false, staged := some (stagedCount s) } }))

/-- On a trained port: the expected frame without CRC error is accepted, counted in its inbound queue, acknowledged and acted on; one accepted before is acknowledged again; another is discarded with one nack. An ack frees the replay buffer up to it; a nack sends again from the frame named; credits are added up to the queue's size; an ack timeout sends everything again. Training makes the port active; a retraining that ends well resumes, one that fails takes the port down with its record. A lost device leaves PRESENT with its record; one that joins is added. A flow is released when its frames are acknowledged. Where the spec leaves a point of it open, the clause is the model's choice or reading: logs 30, 46, 63. -/
def Obligations.JorzinLinksDeliverInOrder : Prop :=
  (∀ (s : State) (p : Nat) (f : Frame), p ≤ 11 → (jportN s p).trained = true → (jportN s p).up = true → f.ftype ≤ 1 → f.lvc ≤ 2 →
    (f.ftype = 1 ∨ s.casc.ready = true) →
    (f.seq = (jportN s p).rx → exec (.jorzinFrame p f true) s =
      .next (frameTaken (linkFrame (enterIn (modJPort s p fun x => { x with rx := (x.rx + 1) % 4096, nacked := false }) p f.lvc (nflit f))
        p 3 f.seq) p f)) ∧
    (f.seq ≠ (jportN s p).rx → ((jportN s p).rx + 4096 - f.seq) % 4096 ≤ 2048 →
      exec (.jorzinFrame p f true) s = .next (linkFrame s p 3 (((jportN s p).rx + 4095) % 4096))) ∧
    (f.seq ≠ (jportN s p).rx → 2048 < ((jportN s p).rx + 4096 - f.seq) % 4096 → (jportN s p).nacked = false →
      exec (.jorzinFrame p f true) s = .next (linkFrame (modJPort s p fun x => { x with nacked := true }) p 4 (jportN s p).rx))) ∧
  (∀ (s : State) (p a i : Nat), p ≤ 11 → indexWhere (fun x : SentFrame => x.seq = a % 4096) (jportN s p).replay = some i →
    exec (.jorzinAck p a) s = .next (pump (modJPort s p fun j => { j with replay := j.replay.drop (i + 1) }) p) ∧
    exec (.jorzinNack p a) s = .next (resendFrom (modJPort s p fun j => countJ j 2 1) p i)) ∧
  (∀ (s : State) (p c0 c1 c2 : Nat), p ≤ 11 →
    let add := fun (l c : Nat) (j : JPort) => { j with credits := modAt j.credits l fun n => min (n + c % 256) (inSize l) }
    exec (.jorzinCredit p c0 c1 c2) s = .next (pump (modJPort s p fun j => add 2 c2 (add 1 c1 (add 0 c0 j))) p)) ∧
  (∀ (s : State) (p : Nat), p ≤ 11 → (jportN s p).replay ≠ [] → (jportN s p).up = true →
    exec (.jorzinAckTimeout p) s = .next (resendFrom s p 0)) ∧
  (∀ (s : State) (p dev fport : Nat) (pith : Bool), p ≤ 11 → (jportN s p).trained = false →
    let u := tellPort (holdFlows (modJPort s p fun _ => { jportReset with
      trained := true, up := true, lanes := 4, dev := dev % 64, fport := fport % 16, counters := (jportN s p).counters })) s.casc.id p true
    let v := if s.casc.pith then u else sendControl u 0 9 [s.casc.id, p, 16 * (dev % 64) + fport % 16]
    (dev % 64 ≠ deviceId s → (pith = false ∨ s.casc.pith = false) → exec (.jorzinPortTrained p dev fport pith) s = .next v) ∧
    ((dev % 64 = deviceId s ∨ (pith = true ∧ s.casc.pith = true)) →
      exec (.jorzinPortTrained p dev fport pith) s = .next (clashFound v p (fport % 16)))) ∧
  (∀ (s : State) (p : Nat), p ≤ 11 → (jportN s p).retraining = true → retrainOf s p = none →
    exec (.portRetrainEnd p true) s =
      .next (pump (resendFrom (modJPort s p fun j => { j with retraining := false, up := true }) p 0) p) ∧
    exec (.portRetrainEnd p false) s = .next (plainRecord (portDown s p) 6 stContained 1 p 0 [])) ∧
  (∀ (s : State) (p : Nat) (x : Packet), p ≤ 11 → (jportN s p).retraining = true → retrainOf s p = some x →
    exec (.portRetrainEnd p true) s = .next (replyOk
      (pump (resendFrom (holdFlows (modJPort s p fun j => { j with retraining := false, up := true })) p 0) p) x.ticket 0 0) ∧
    exec (.portRetrainEnd p false) s = .next (refuse (plainRecord (portDown s p) 6 stContained 1 p 0 []) x.ticket stContained 0)) ∧
  (∀ (s : State) (d : Nat), d ≠ deviceId s → d ∈ s.casc.present →
    let ps := (List.range 12).filter fun p => let j := jportN s p; j.up && j.dev = d
    let u := ps.foldl portDown s
    let w := holdFlows { u with casc := { u.casc with
      present := u.casc.present.filter (· ≠ d), awaiting := u.casc.awaiting.filter (· ≠ d), seen := u.casc.seen.filter (·.1 / 16 ≠ d)
      parts := u.casc.parts.filter (·.1.1 ≠ d) } }
    let v := if s.casc.pith then plainRecord (failAway w d) 6 stContained 1 (ps.headD 0) 0 [d] else w
    (inMembers s d = false → exec (.deviceLoss d) s = .next v) ∧
    (inMembers s d = true → exec (.deviceLoss d) s =
      .next (((v.jobs.filter (·.casc)).map (·.id)).foldl (fun s j => failJob s j stFaultFatal) v))) ∧
  (∀ (s : State) (d : Nat), d ≤ 63 → d ∉ s.casc.present → deviceReady s = true →
    let u := holdFlows { s with casc := { s.casc with
      present := s.casc.present ++ [d], due := if s.casc.pith then s.casc.due ++ [.mark] else s.casc.due } }
    exec (.deviceJoin d) s = .next (if s.casc.pith then stageDevice u d else u)) ∧
  (∀ (s : State) (d : Nat), d ∉ unackedDests s → d ∈ s.casc.heldFor → exec (.jorzinRouteHoldRelease d) s =
    .next ((List.range 12).foldl pump { s with casc := { s.casc with heldFor := s.casc.heldFor.filter (· ≠ d) } })) ∧
  (∀ (s : State) (k : Nat) (x : Packet), Taken s k 0x0A04 x →
    (pfld x 0x10 1 = 0 → pfld x 0x12 2 < 16 → exec (.retrain k) s = .next (replyOk (early s x) k 0 0)) ∧
    (pfld x 0x10 1 = 1 → pfld x 0x12 2 < 24 → exec (.retrain k) s = .next (replyOk (early s x) k 0 0)) ∧
    (pfld x 0x10 1 = 2 → pfld x 0x12 2 < 12 → x.sent = false → (jportN s (pfld x 0x12 2)).retraining = false →
      exec (.retrain k) s = .next (modJPort (portDown (modPacket (early s x) k fun y => { y with sent := true }) (pfld x 0x12 2))
        (pfld x 0x12 2) fun j => { j with retraining := true })))

/-- POWER_CEILING of the device, a multiple of 5 W from 1,000 to 3,200 W (3,200 only below 30 °C), becomes the ceiling; of the cascade on the Pithead, 1,000 to 3,200 W times the members, the cascade ceiling; another value answers BAD_PARAM and the ceilings stay. POWER_QUERY answers the effective ceiling and the draw granted. A ramp window clears what is booked and serves restoration, then the requests. Demands, shares and their time limit are kept, and sent, as R387 says. Where the spec leaves a point of it open, the clause is the model's choice or reading: logs 27, 29, 63. -/
def Obligations.BanksmanCeilingAndShares : Prop :=
  (∀ (s : State) (k : Nat) (x : Packet), Taken s k 0x0700 x →
    let c := pfld x 0x10 4
    let n := ((List.range 64).filter (inMembers s)).length
    (c % 5 ≠ 0 → exec (.powerCeiling k) s = .next (refuse s k stBadParam 0x10)) ∧
    (pfld x 0x14 1 = 0 → c < 1000 ∨ 3200 < c ∨ (c = 3200 ∧ s.power.inlet = true) →
      exec (.powerCeiling k) s = .next (refuse s k stBadParam 0x10)) ∧
    (pfld x 0x14 1 = 0 → c % 5 = 0 → 1000 ≤ c → c ≤ 3200 → (c = 3200 → s.power.inlet = false) →
      exec (.powerCeiling k) s = .next (replyOk (afterCeiling (early s x) fun p => { p with ceil := c }) k 0 0)) ∧
    (pfld x 0x14 1 = 1 → s.casc.pith = true → c % 5 = 0 → 1000 * n ≤ c → c ≤ 3200 * n →
      exec (.powerCeiling k) s = .next (replyOk (modPower (early s x) fun p => { p with casc := some c }) k 0 0))) ∧
  (∀ (s : State) (k w : Nat) (x : Packet), Taken s k 0x0701 x →
    exec (.powerQuery k w) s = .next (replyOk (early s x) k (ceilEff s.power % 2 ^ 16 + 2 ^ 16 * grantedAll s.power)
      (w % 2 ^ 16 + 2 ^ 16 * b2n s.power.brown + 2 ^ 17 * b2n s.power.throt + 2 ^ 18 * b2n s.power.heat))) ∧
  (∀ s : State, s.module = .on → exec .rampWindow s = .next (restoreNow (modPower s fun p =>
    { p with window := p.window + 1, booked := 0, quiet := p.quiet - 1, reqs := p.reqs.map fun r => { r with here := 0 } }))) ∧
  (∀ (s : State) (b : Bool), exec (.coolantInletTemperature b) s = .next (afterCeiling s fun p => { p with inlet := b })) ∧
  (∀ (s : State) (d w : Nat), s.module = .on →
    (s.casc.pith = true → d ≠ deviceId s → d ≤ 63 → inMembers s d = true →
      exec (.cascadeDemand d w) s = .next (modPower s fun p => { p with demands := arrSet p.demands d w 0 })) ∧
    (s.casc.pith = false → exec (.cascadeShare w) s = .next (serveAll (modPower s fun p => { p with share := some w }))) ∧
    (s.casc.pith = false → d = deviceId s → deviceReady s = true →
      exec (.cascadeDemand d w) s = .next (sendControl s 0 1 [d, demandOf s.power])) ∧
    (∀ c, s.casc.pith = true → s.power.casc = some c →
      let l := shares c (demandsHeld s)
      let u := modPower s fun p => { p with share := (l.find? (·.1 = deviceId s)).map (·.2) }
      exec (.cascadeShare w) s = .next (serveAll ((l.filter fun e => e.1 ≠ deviceId s && s.casc.present.contains e.1).foldl
        (fun a e => sendControl a e.1 2 [e.2]) u))) ∧
    (s.casc.pith = false ∨ s.power.casc.isSome = true →
      exec .shareTimeout s = .next (serveAll (modPower s fun p => { p with share := some 1000 }))))

/-- A sample at 44.0 V or below takes the module out of service, one below 40 V to OFF, also from the reset that the first began. On a module in service not in brownout, the second sample in a row below the warning level enters brownout hold: records, signals 1,019, and the notice to the Assay die. BROWNOUT_END with the last sample at the recovery level leaves it, counts an excursion and restores. A die below 105 °C changes nothing but its reading; from 105 °C its Level, or for the hub die every Level, loses a step and 1,020 is signalled once; at 120 °C the record is written and the module, in service or under reset, is off. A thermal restore step falls due on the Levels that heat holds lower than the other sources; what the headroom covers is booked before any waiting request. Where the spec leaves a point of it open, the clause is the model's choice or reading: logs 27, 28. -/
def Obligations.SupplyAndHeatForceStretching : Prop :=
  (∀ (s : State) (v : Nat), s.module = .held →
    (400 ≤ v → exec (.supplySample v) s = .next (modPower s fun p => { p with last := some v })) ∧
    (v < 400 → exec (.supplySample v) s = .next { modPower s (fun p => { p with last := some v }) with module := .off })) ∧
  (∀ (s : State) (v : Nat), s.module = .on →
    (400 ≤ v → v ≤ 440 → exec (.supplySample v) s = .next (powerFail (modPower s fun p => { p with last := some v }))) ∧
    (v < 400 → exec (.supplySample v) s = .next { powerFail (modPower s fun p => { p with last := some v }) with module := .off }) ∧
    (440 < v → s.power.brown = false → (feature s 4 ≤ v ∨ s.power.last.any (fun u => decide (u < feature s 4)) = false) →
      exec (.supplySample v) s = .next (modPower s fun p => { p with last := some v })) ∧
    (440 < v → s.power.brown = false → v < feature s 4 → (∀ u, s.power.last = some u → u < feature s 4 →
      exec (.supplySample v) s = .next (modPower (notify (signalBoth (plainRecord
        { modPower s (fun p => { p with brown := true, lowest := min v u }) with alert := true } 0x0C stCorrected 0 9 (min v u) []) 1019)
        (.brown true (feature s 4) (shaftCount s))) fun p => { p with last := some v }))) ∧
    (440 < v → s.power.brown = true → exec (.supplySample v) s =
      .next (modPower (modPower s fun p => { p with lowest := min p.lowest v }) fun p => { p with last := some v }))) ∧
  (∀ s : State, s.module = .on → s.power.brown = true → (∀ v, s.power.last = some v → feature s 4 + 10 ≤ v) →
    exec .brownoutEnd s = .next (restoreNow (notify (signalBoth
      (modPower s fun p => { p with brown := false, eBrown := holdE p, excursions := p.excursions + 1 }) 1019)
      (.brown false (feature s 4) (shaftCount s))))) ∧
  (∀ (s : State) (die temp : Nat), die ≤ 8 →
    let u := modPower s fun p =>
      let q := { p with temps := arrSet p.temps die temp 0 }
      { q with heatDue := if hotNow q then [] else q.heatDue }
    (s.module ≠ .off → 120 ≤ temp → exec (.thermalSample die temp) s = .next (moduleDown
      (modPower (deviceFatal u stFaultFatal 0x0C die temp []) fun p => { p with trip := true, rearm := false }) .off)) ∧
    (s.module = .on → temp < 105 → exec (.thermalSample die temp) s = .next u) ∧
    (s.module = .on → 105 ≤ temp → temp < 120 → s.power.heat = true → exec (.thermalSample die temp) s = .next (modPower u fun p => loseStep p die)) ∧
    (s.module = .on → 105 ≤ temp → temp < 120 → s.power.heat = false → exec (.thermalSample die temp) s =
      .next (signalBoth { modPower u (fun p => loseStep p die) with alert := true } 1020))) ∧
  (∀ s : State, s.module = .on → s.power.heat = true → hotNow s.power = false →
    let p := s.power
    let up := (List.range 4).filter fun n => decide (p.eHeat.getD n 16 < forceE p)
    let u := modPower s fun q => { q with heatDue := up }
    up ≠ [] → exec .thermalRestoreStep s = .next (restoreNow u) ∧
      ∀ n, up = [n] → grantedOn p n ≤ 16 * headroom s →
        (heatNow u).power.eHeat = modAt p.eHeat n (· + 1) ∧ (heatNow u).power.heatDue = [])

/-- With a decided switch whose job computes, no load of it and no recovery: FORCED_SWITCH begins the drain; BOUNDARY_SWITCH, no section running, goes to the scan; the wait limit W begins a forced drain. A drain ends when every tile is idle or waits, or at its limit, and the scan begins. The end of the scan leaves the job in state 3 with its state saved, at the head of the BE queue (at its end for its own JOB_PREEMPT), the tiles and units cleared, its JOB_PREEMPTs answered, and the device passes on; of a cascade job the Pithead waits for the last device; a lost save area is an uncorrectable error. A free device whose BE queue is headed by a pre-empted job begins to restore it; the end of the restore brings back tiles and units, state 2, and adds the time to the records of job and client. Where the spec leaves a point of it open, the clause is the model's choice or reading: logs 40, 64, 65. -/
def Obligations.SwitchesMoveTheDevice : Prop :=
  (∀ (s : State) (w : Switch), waitingSwitch s = some w →
    (w.forced = true → exec .forcedSwitch s = .next { s with sw := some { w with phase := .drain } }) ∧
    (w.forced = false → runningOf s w.job = [] → exec .boundarySwitch s = .next (stopForScan s w)) ∧
    (w.forced = false → runningOf s w.job ≠ [] →
      (s.clock < w.start + feature s 2 * 3600 → exec .preemptWaitTimeout s = .next s) ∧
      (w.start + feature s 2 * 3600 ≤ s.clock →
        exec .preemptWaitTimeout s = .next { s with sw := some { w with phase := .drain, forced := true } }))) ∧
  (∀ (s : State) (w : Switch), s.sw = some w → w.phase = .drain →
    exec .switchDrainTimeout s = .next (stopForScan s w) ∧
    (drained s = true → exec .switchDrainEnd s = .next (stopForScan s w))) ∧
  (∀ (s : State) (w : Switch), s.sw = some w → w.phase = .scan →
    ∀ j : Job, jobOf s w.job = some j → (j.casc = false ∨ s.casc.pith = false ∨ s.casc.awaiting = []) →
    let v := scanState s j.wepoch
    let u := modJob (suspendLaunches v.1 w.job) w.job fun j =>
      { j with state := .preempted, saved := some v.2, preempts := j.preempts + 1, preBy := w.cause }
    let x := modClient u j.port j.client fun c => { c with preempts := c.preempts + 1 }
    let y := clearDevice { x with beq := if w.cause = w.job then x.beq ++ [w.job] else w.job :: x.beq }
    (areaLost s j = true → exec .switchScanEnd s = .next (areaFatal s j)) ∧
    (areaLost s j = false → exec .switchScanEnd s = .next (closeDoomed (passDevice (tellDone
      ((preempts y w.job).foldl (fun a k => replyOk a k ((s.clock - w.start) * 10 / 36) 0) y) j))))) ∧
  (∀ (s : State) (b : Nat) (rest : List Nat) (j : Job), s.module = .on → s.comp = none → s.sw = none → s.lcq = [] → s.beq = b :: rest →
    jobOf s b = some j → j.state = .preempted → s.errs.fatal = false → decidedElsewhere s j = false →
    let w : Switch := { job := j.id, phase := .restore, forced := false, ticket := none, cause := j.preBy, start := s.clock }
    exec .jobRestore s = .next (notify (tellCascade { s with sw := some w } j 4 []) (.restore j.preBy j.id (shaftCount s)))) ∧
  (∀ (s : State) (w : Switch) (j : Job), s.sw = some w → w.phase = .restore → jobOf s w.job = some j →
    let d := shaftCount s - j.pre.getD (shaftCount s)
    let a := modJob (loadSaved { s with sw := none, comp := some j.id, beq := s.beq.filter (· ≠ j.id) } j.id
      (j.saved.getD (Config.savedState s.fresh))) j.id fun y => { y with state := .computing, saved := none, pre := none, ptime := y.ptime + d }
    let b := notify (modClient a j.port j.client fun c => { c with ptime := c.ptime + d }) (ownNotice a j)
    let c := waitAgain ((runningOf b j.id).foldl (resumeLaunch j.lc) b) j.id
    let e := closeDoomed (c.heldIn.foldl (fun s n => hubDeliver s n.msg) { c with heldIn := [] })
    (areaLost s j = true → exec .restoreEnd s = .next (areaFatal s j)) ∧
    (areaLost s j = false → exec .restoreEnd s = .next (match e.lcq.head? with
      | some l => if e.comp = some j.id && !decidedElsewhere e j then decideSwitch e j.id l else e
      | none => e)))

/-- RESET with sound fields that no job of the other port forbids starts a WARM, LEVEL or TILE reset, or makes RESET due on the Shaft bus; RESET_CASCADE and the reload watchdog start theirs. A reset that no wider one absorbs records and fails the job it meets, voids a debug challenge and takes over the replies of the narrower ones it absorbs; one within a wider reset only adds its replies there. Release of the oldest reset gives its tiles and Level units their reset contents, replies OK, and leaves SHFLT_N low only while a cause stands. Where the spec leaves a point of it open, the clause is the model's choice or reading: log 35. -/
def Obligations.ResetsStartAbsorbAndRelease : Prop :=
  (∀ (s : State) (k : Nat) (x : Packet), Taken s k 0x0010 x → x.sent = false →
    let kind := pfld x 0x10 1
    let r : Reset := { kind := if kind = 3 then 0 else kind, levels := (List.range 4).filter (nbit (pLvl x)),
                       tile := if kind = 2 then pfld x 0x12 2 else 0, tickets := [k] }
    let u := modPacket (early s x) k fun y => { y with sent := true }
    kind ≤ 3 → (kind = 1 ↔ pLvl x ≠ 0) → (kind = 2 → pfld x 0x12 2 ≤ 2303) → (kind = 3 → s.casc.pith = true) →
    (resetBusy s x r = true → exec (.reset k) s = .next (refuse s k stJobBusy 0)) ∧
    (resetBusy s x r = false → kind = 3 → exec (.reset k) s = .next (makeDue u .reset)) ∧
    (resetBusy s x r = false → kind ≠ 3 → exec (.reset k) s = .next (startReset u r 0 x.port))) ∧
  (∀ s : State, sampled s .reset = true → exec .resetCascade s =
    .next (startReset (driven s .reset true) { kind := 0, levels := [], tile := 0, tickets := cascadeResets s } 1 0)) ∧
  (∀ (s : State) (n : Nat), n ≤ 3 → s.errs.reloading.getD n false = true →
    let u := startReset s { kind := 1, levels := [n], tile := 0, tickets := [] } 2 0
    exec (.lcReloadWatchdog n) s =
      .next { u with errs := { u.errs with reloading := modAt u.errs.reloading n fun _ => false } }) ∧
  (∀ (s : State) (r : Reset) (cause port : Nat), (∀ a ∈ s.resets, widerReset a r = false) → resetVictim s r = none →
    startReset s r cause port = { s with
      sec := { s.sec with debugNonce := none }
      resets := (s.resets.filter fun a => !widerReset r a) ++
        [{ r with tickets := r.tickets ++ (s.resets.filter (widerReset r)).flatMap (·.tickets) }] }) ∧
  (∀ (s : State) (r : Reset) (i : Nat), s.resets[i]? = some r →
    let u := resetReplies (applyReset { s with resets := dropAt s.resets i } r) r.tickets
    exec (.resetRelease i) s = .next { u with casc := { u.casc with shflt := holdsFault u } } ∧
    (∀ t, t < 2304 → resetCovers r t = true → tileRetired s t = false →
      (tileAt (resetSet s (resetCovers r)) t).sq.st = .idle ∧
      (tileAt (resetSet s (resetCovers r)) t).net.gen = (tileAt s t).net.gen + 1))

/-- A tile at rest enters A1; one that is IDLE with EPOCH 0 and no load over it enters S1; a Level whose good tiles are all in S1, no job computing, enters S2; the device with no command outstanding and all Levels in S2 enters S3. WAKE_COMPLETE brings each back. A module below PWRGD is held, and off until PWR_EN rises. POR of a module that is not off: no job, region, packet or computing job remains; the start-up samples the straps and fails with its code, or ends in service with SHDONE released. MRST low for 1 µs takes the module into MRST, whose release starts it up. Where the spec leaves a point of it open, the clause is the model's choice or reading: logs 5, 35. -/
def Obligations.PowerStatesAndStartUp : Prop :=
  (∀ (s : State) (t : Nat), t < 2304 → tileAtRest (tileAt s t) = true → tileRetired s t = false →
    ((tileAt s t).s1 = false → exec (.enterA1 (.tile t)) s = .next (setTile s t { tileAt s t with a1 := true })) ∧
    ((tileAt s t).net.epoch = 0 → (tileAt s t).sq.st = .idle → s.load = none →
      exec (.enterS1 t) s = .next (setTile s t { tileAt s t with s1 := true, a1 := false })) ∧
    (levelOf t ∉ s.s2 → exec (.wakeComplete (.tile t)) s = .next (setTile s t (wakeTile (tileAt s t))))) ∧
  (∀ (s : State) (n : Nat), n ≤ 3 →
    (s.comp = none → n ∉ s.s2 → (∀ t ∈ levelTiles s n, (tileAt s t).s1 = true) →
      (s.jobs ≠ [] → exec (.enterS2 n) s = .next { s with s2 := s.s2 ++ [n] }) ∧
      (s.jobs = [] → exec (.enterS2 n) s = .next (dropPads { s with s2 := s.s2 ++ [n] } n))) ∧
    (n ∈ s.s2 → s.s3 = false → exec (.wakeComplete (.level n)) s = .next (wakeLevels s [n] true))) ∧
  (∀ s : State, s.module = .on → s.s3 = false → s.out = [] → (∀ n < 4, n ∈ s.s2) → exec .enterS3 s = .next { s with s3 := true }) ∧
  (∀ s : State, s.s3 = true → exec (.wakeComplete .device) s = .next (wakeLevels { s with s3 := false } (List.range 4) false)) ∧
  (∀ (s : State) (n : Nat), n ≤ 3 →
    (s.s3 = false → n ∉ s.s2 → exec (.wakeComplete (.level n)) s = .next { s with lvA1 := s.lvA1.filter (· ≠ n) }) ∧
    (n ∉ s.lvA1 → exec (.enterA1 (.level n)) s = .next { s with lvA1 := s.lvA1 ++ [n] })) ∧
  (∀ (s : State) (b : Boot), s.module ≠ .off → ∃ u, exec (.por b) s = .next u ∧
    u.jobs = [] ∧ u.regions = [] ∧ u.out = [] ∧ u.comp = none ∧ u.launches = [] ∧ u.net = [] ∧
    (b.fail = some 1 → u.module = .failed 1) ∧
    (b.fail ≠ some 1 → s.casc.pinPith ≠ decide (s.casc.pinId = 0) → u.module = .failed 6) ∧
    (s.casc.pinPith = decide (s.casc.pinId = 0) → s.sec.update = none → s.sec.header = [] →
      (b.fail = none → s.sec.floor = none → u.module = .failed 5) ∧
      (∀ c f, b.fail = some c → s.sec.floor = some f → baseLost b = false → u.module = .failed c) ∧
      (∀ f, b.fail = none → s.sec.floor = some f → baseLost b = false →
        u.module = .on ∧ u.casc.shdone = true ∧ u.casc.pith = s.casc.pinPith ∧ u.casc.id = s.casc.pinId))) ∧
  (∀ (s : State) (b : Boot), s.module = .mrst → exec (.mrstRelease b) s = .next (startUp s b)) ∧
  (∀ (s : State) (ns : Nat), s.module ≠ .off → s.module ≠ .held →
    (ns < 500 → exec (.mrst ns) s = .next s) ∧
    (1000 ≤ ns → ∃ u, exec (.mrst ns) s = .next u ∧ u.module = .mrst ∧ u.casc.shdone = false ∧ u.jobs = s.jobs)) ∧
  (∀ (s : State) (c : OffCause), ∃ u, exec (.powerOff c) s = .next u ∧ u.module = .off ∧ u.casc.shdone = false ∧
    (c = .thermal → u.power.trip = true)) ∧
  (∀ s : State, s.module = .off → (s.power.trip = false ∨ s.power.rearm = true) →
    exec .powerOn s = .next (modPower { s with module := .held } fun p => { p with trip := false, rearm := false, pfail := false }))

/-- PERST and hot reset of a port of a module in service fail over its jobs and leave the whole port at reset, its link down; FLR of PF0 keeps the link and what belongs to PF1; FLR of PF1 resets PF1 alone and no job. A released PERST chooses the reference clock. A link that goes down starts the failover timer and signals the other port; one that comes up stops it and writes what was held. When the timer expires with the link still down, the expiry is counted and recorded, and the port's jobs fail over, in a load's write phase after its reply. A job that may be adopted goes to the other port when that is up. Where the spec leaves a point of it open, the clause is the model's choice or reading: logs 35, 55. -/
def Obligations.PortResetsAndFailover : Prop :=
  (∀ (s : State) (p : Nat), p ≤ 1 → s.module = .on →
    ((portN s p).perst = false →
      exec (.perstAssert p) s = .next (peerSignal (modPort (portGoes s p) p fun x =>
        { portReset with link := false, perst := true, refclk := x.refclk, expired := x.expired }) p (portN s p).link) ∧
      exec (.hotReset p) s = .next (peerSignal (modPort (portGoes s p) p fun x =>
        { portReset with link := false, perst := false, refclk := x.refclk, expired := x.expired }) p (portN s p).link)) ∧
    ((portN s p).link = true →
      exec (.flrPf0 p) s = .next (modPort (portGoes s p) p fun x => { portReset with
        link := x.link, perst := x.perst, refclk := x.refclk, expired := x.expired, pf1 := x.pf1
        sq := List.replicate 16 sqReset ++ [x.sq.getD 16 sqReset], cq := List.replicate 16 cqReset ++ [x.cq.getD 16 cqReset] }) ∧
      exec (.flrPf1 p) s = .next (modPort s p fun x =>
        { x with pf1 := funcReset, sq := modAt x.sq 16 fun _ => sqReset, cq := modAt x.cq 16 fun _ => cqReset }))) ∧
  (∀ (s : State) (p : Nat) (r : Bool), p ≤ 1 → (portN s p).perst = true →
    exec (.perstRelease p r) s = .next (modPort s p fun x => { x with perst := false, refclk := r })) ∧
  (∀ (s : State) (p : Nat), p ≤ 1 →
    ((portN s p).link = true →
      exec (.linkDown p) s = .next (peerSignal (modPort s p fun x => { x with link := false, timer := true }) p true)) ∧
    ((portN s p).link = false → (portN s p).perst = false → s.module = .on →
      exec (.linkUp p) s = .next ((List.range 17).foldl (fun a c => drainHeld p c (cqN (portN a p) c).held.length a)
        (peerSignal (modPort s p fun x => { x with link := true, timer := false }) p false))) ∧
    ((portN s p).link = false → (portN s p).timer = true →
      let u := countEvent s (.pcie p)
      let v := modPort (writeFlash (addRecord u stContained 1 true false 7 0 p 0
        [windowCount u (.pcie p), (winOf u (.pcie p)).life])) p fun x =>
          { x with timer := false, expired := some ((portN s (1 - p)).link, true) }
      ((∀ l, s.load = some l → l.phase ≠ .write) → exec (.failoverTimeout p) s = .next
        (if portCovered v p (portN s (1 - p)).link then secondFault (failover v p (portN s (1 - p)).link)
         else failover v p (portN s (1 - p)).link)) ∧
      (∀ l, s.load = some l → l.phase = .write → exec (.failoverTimeout p) s = .next v))) ∧
  (∀ (s : State) (p : Nat) (j : Job), p ≤ 1 → s.jobs = [j] → j.port = p → j.adopt = true →
    ∀ y ∈ (failover s p true).jobs, y.port = 1 - p)

/-- On a module in service: a corrected event of a unit is counted and, within its window's first 64, recorded, and at the threshold its action is taken; an uncorrectable one discards a bad message and is recorded at once, and its action is taken at once or when nothing holds it. A scrub that finds a clean word changes nothing; a corrected word is such an event of the tile. The summary record carries the events since the last one; lifetime counts go to flash. A scrubber's CRC mismatch is recorded; a lockstep mismatch and the third missed heartbeat stop the Level controller; a heartbeat seen ends its reload; the hub watchdog is device-fatal. A replay that outlasts TMAX is abandoned. Where the spec leaves a point of it open, the clause is the model's choice or reading: logs 32, 47, 59. -/
def Obligations.FaultEventsAreCountedAndActedOn : Prop :=
  (∀ (s : State) (u : CountUnit) (loc1 addr : Nat), s.module = .on → unitExists u = true →
    (∀ t, u ≠ .queue t) → (∀ k n, u ≠ .hubQueue k n) → (∀ n, u ≠ .stack n) → (∀ p, u ≠ .pcie p) →
    let v := correctedEvent s u loc1 addr
    let e := FaultEvent.counted u loc1 addr
    exec (.errorEvent e) s = .next (if actionsWait v && !actsAtOnce v e then deferFault v (.event e)
      else if (unitLimit u).1 ≤ windowCount v u then thresholdAction v u loc1 else v)) ∧
  (∀ (s : State) (e : FaultEvent), s.module = .on → eventExists e = true → (∀ u l a, e ≠ .counted u l a) →
    let v := faultEffect s e
    let wait := actionsWait s && !actsAtOnce s e
    (∀ r d, detect s v e = some (r, d) → exec (.errorEvent e) s = .next (if wait then deferFault r d else takeDue r d)) ∧
    (detect s v e = none → exec (.errorEvent e) s = .next (if wait then deferFault v (.event e) else faultAction v e))) ∧
  (∀ (s : State) (t off : Nat), t < 2304 → exec (.configScrub t off .clean) s = .next s ∧
    exec (.configScrub t off .corrected) s = exec (.errorEvent (.counted (.tile t)
      ((if 0x8000 ≤ off ∧ off < 0x10000 then 3 else 4) + 2 ^ 8 * (off / 8 % 2 ^ 16)) 0)) s ∧
    (∀ i, scrubImage s t off = some i → imageLost s i = none → exec (.configScrub t off .uncorrectable) s = .next (plainRecord s 1 stCorrected 0 t
      ((if 0x8000 ≤ off ∧ off < 0x10000 then 3 else 4) + 2 ^ 8 * (off / 8 % 2 ^ 16)) []))) ∧
  (∀ (s : State) (t : Nat), t < 2304 → 64 ≤ windowCount s (.tile t) →
    exec (.summaryRecord (.tile t)) s = .next (addRecord (setWin s { winOf s (.tile t) with since := 0 }) stCorrected 0 false true 1 0 t 0
      [windowCount s (.tile t), (winOf s (.tile t)).life, 0, 0, (winOf s (.tile t)).since])) ∧
  (∀ s : State, exec .flashCountWrite s = .next { s with
    flashCounts := s.errs.wins.map (fun w => (w.unit, w.life)) ++ s.flashCounts.filter fun e => !s.errs.wins.any fun w => w.unit = e.1 }) ∧
  (∀ (s : State) (n : Nat), n ≤ 3 →
    exec (.scrubberCrcCheck n true) s = .next s ∧
    exec (.scrubberCrcCheck n false) s = .next (plainRecord s 0x0A stContained 1 n 0 []) ∧
    exec (.lockstepMismatch n) s = .next (controllerFault s n) ∧
    exec (.lcHeartbeat n true) s = .next { s with errs := { s.errs with
      misses := modAt s.errs.misses n fun _ => 0, reloading := modAt s.errs.reloading n fun _ => false } } ∧
    (s.errs.reloading.getD n false = false →
      (s.errs.misses.getD n 0 < 2 → exec (.lcHeartbeat n false) s =
        .next { s with errs := { s.errs with misses := modAt s.errs.misses n (· + 1) } }) ∧
      (2 ≤ s.errs.misses.getD n 0 → exec (.lcHeartbeat n false) s = .next (controllerFault s n)))) ∧
  (∀ s : State, exec .hubWatchdogExpiry s = .next (deviceFatal s stFaultFatal 0x0B 4 0 [])) ∧
  (∀ (s : State) (r : Recovery) (l : Launch) (i : Image), s.errs.recov = some r → s.launches.find? (·.ticket = r.ticket) = some l →
    l.img = some i → i.tmax ≠ 0 →
    (i.tmax * 36 ≤ r.edges * 10 → exec .replayTimeout s = .next (abandonRecovery s r.unit r.spare r.seq)) ∧
    (r.edges * 10 < i.tmax * 36 → exec .replayTimeout s = .next s))

/-- For packets that may start: TELEMETRY writes one page for each Level selected; ERRLOG_READ writes the records held from FIRST on and answers their number and the newest sequence number; METER_READ writes a snapshot record, answering SEAL_BROKEN when the seal was broken; METER_RECORDS writes the stored records; ATTEST writes its 1,184 bytes; SELFTEST asks leave, and with leave granted answers how many good tiles of the Levels failed; TILE_RETIRE of a tile without a section retires it; DEBUG_UNLOCK answers a challenge, and a valid token unlocks the device. Out of range answers BAD_PARAM. Where the spec leaves a point of it open, the clause is the model's choice or reading: logs 16, 56, 66. -/
def Obligations.ServiceCommandsReport : Prop :=
  (∀ (s : State) (k : Nat) (x : Packet), Taken s k 0x0A00 x →
    (3 < pfld x 0x18 2 → exec (.telemetry k) s = .next (refuse s k stBadParam 0x18)) ∧
    (pfld x 0x18 2 ≤ 3 → exec (.telemetry k) s = .next (replyOk (bumpFresh (hostWrite (early s x) x.port (pfld x 0x10 8)
      (((List.range 4).filter (nbit (pLvl x))).flatMap (telemetryPage s (pfld x 0x18 2))))) k 0 0))) ∧
  (∀ (s : State) (k : Nat) (x : Packet), Taken s k 0x0A01 x → 1 ≤ pfld x 0x20 2 → pfld x 0x20 2 ≤ 1024 →
    let rs := recordsHeld s.errs (pfld x 0x18 8) (pfld x 0x20 2)
    let left := s.errs.unread.filter fun n => !rs.any fun r => r.seq = n
    let u := hostWrite (early s x) x.port (pfld x 0x10 8) (rs.flatMap recordBytes)
    exec (.errlogRead k) s = .next (replyOk
      { u with errs := { u.errs with unread := left, frozen := if left.isEmpty then [] else u.errs.frozen } }
      k rs.length (if s.errs.next = 0 then 0xFFFFFFFF else s.errs.next - 1))) ∧
  (∀ (s : State) (k : Nat) (x : Packet), Taken s k 0x0800 x → s.assay.running = true →
    let u := hostWrite (bumpFresh (early s x)) x.port (pfld x 0x10 8) (meterBytes s (snapshotRec s.assay))
    exec (.meterRead k) s = .next (if Config.sealedModule && s.assay.marked then refuse u k stSealBroken 0 else replyOk u k 0 0)) ∧
  (∀ (s : State) (k : Nat) (x : Packet), Taken s k 0x0801 x → 1 ≤ pfld x 0x20 2 → pfld x 0x20 2 ≤ 256 → s.assay.running = true →
    let rs := (if pfld x 0x18 8 = 0 then [identBytes s] else []) ++ (recordsFrom s.assay (pfld x 0x18 8) (pfld x 0x20 2)).map (meterBytes s)
    let u := bumpFresh (early s x)
    exec (.meterRecords k) s =
      .next (replyOk (if rs.isEmpty then u else hostWrite u x.port (pfld x 0x10 8) (rs.flatMap id)) k rs.length 0)) ∧
  (∀ (s : State) (k : Nat) (x : Packet), Taken s k 0x0901 x →
    (pfld x 0x18 4 < 1184 → exec (.attest k) s = .next (refuse s k stBadParam 0x18)) ∧
    (1184 ≤ pfld x 0x18 4 → ∃ report : List Byte, report.length = 1184 ∧ slice report 0x10 32 = slice x.bytes 0x20 32 ∧
      slice report 0x40 1024 = measurements s ∧ slice report 0x440 96 = signed s (report.take 0x440) ∧
      exec (.attest k) s = .next (replyOk (bumpFresh (hostWrite (early s x) x.port (pfld x 0x10 8) report)) k 1184 0))) ∧
  (∀ (s : State) (k : Nat) (x : Packet) (failed : List Nat), Taken s k 0x0A02 x → pfld x 0x10 1 ≤ 1 →
    (x.sent = true ∨ ((s.comp = none ∨ pLvl x = 0) ∧ neverAdmissible s.power (selftestDraw x) = false)) →
    let u := if x.sent then s
      else askLeave (modPacket (early s x) k fun y => { y with sent := true }) (.command k) false (selftestDraw x)
    (hasGrant u (.command k) = false → exec (.selftest k failed) s = .next u) ∧
    (hasGrant u (.command k) = true → u.s2 = [] → exec (.selftest k failed) s = .next (releaseLeave (replyOk u k
      (failed.eraseDups.filter fun t => decide (t < 2304) && nbit (pLvl x) (levelOf t) && !tileRetired s t).length 0) (.command k)))) ∧
  (∀ (s : State) (k : Nat) (x : Packet), Taken s k 0x0A03 x → pfld x 0x10 2 ≤ 2303 → launchOn s (pfld x 0x10 2) = none →
    actionsWait s = false →
    let t := pfld x 0x10 2
    let u := retireTile (early s x) t (if s.comp.isSome then spareFor s t else none)
    exec (.tileRetire k) s = .next
      (replyOk u k (((List.range 2304).filter fun v => levelOf v = levelOf t && !tileRetired u v).length) 0)) ∧
  (∀ (s : State) (k : Nat) (x : Packet) (token : List Byte) (ok : Bool), Taken s k 0x0902 x → s.sec.update = none →
    (pfld x 0x18 4 = 0 → s.sec.rngWait = false →
      let v := drawWord s
      exec (.debugUnlock k token ok) s = .next (replyOk (modSec (drawn (early s x) 1) fun e => { e with debugNonce := some v })
        k (v % 2 ^ 32) (v / 2 ^ 32))) ∧
    (pfld x 0x18 4 = 128 →
      let u := modSec (early s x) fun e => { e with debugNonce := none }
      exec (.debugUnlock k token ok) s = .next (if tokenOk s token ok then replyOk (unlockDevice u) k 0 0 else refuse u k stSignature 0)))

/-- UPDATE_COMPONENT whose checks pass in order is staged and signals 1,022; a failed check answers its status. COMPONENT_SWAP at the quiescent point puts the component in service, ends every SPDM session, lets nothing be booked for two windows when it is BK, and signals; FLASH_REWRITE_DONE writes it, raises its floor and replies OK. A signed message acts only with a good signature of the device, the current challenge, which it uses up, and when it is permitted; each has its code otherwise. A delivered image that passes its checks is written and restarts the module. A failed health test makes requests wait, and the third in a row is device-fatal. Where the spec leaves a point of it open, the clause is the model's choice or reading: logs 16, 36, 41, 42. -/
def Obligations.FirmwareAndOwnershipChange : Prop :=
  (∀ (s : State) (k : Nat) (x : Packet) (pkg : List Byte) (p o : Bool), Taken s k 0x0900 x → s.sec.update = none →
    let len := pfld x 0x18 4
    let c := pfld x 0x1C 1
    let h := slice pkg 0 4096
    let body := slice pkg 4096 (len - 4096)
    4096 ≤ len → len ≤ 4096 + 12582912 → c ≤ 9 → imageHeaderOk h = true →
    ((p = false ∨ (needsCosign s = true ∧ o = false)) → exec (.updateComponent k pkg p o) s = .next (refuse s k stSignature 0)) ∧
    (p = true → (needsCosign s = true → o = true) → manifestOk s h body c = true →
      (entrySvn h c < floorOf s c → exec (.updateComponent k pkg p o) s = .next (refuse s k stRollback 0)) ∧
      (floorOf s c ≤ entrySvn h c → exec (.updateComponent k pkg p o) s = .next (signalBoth
        (modSec (modPacket (accept s k 0) k fun y => { y with sent := true }) fun e => { e with
          update := some { ticket := k, comp := c, body := body, header := h, osig := o, swapped := false } }) 1022)))) ∧
  (∀ (s : State) (u : Update), s.sec.update = some u → s.module = .on →
    (u.swapped = false → u.comp ≠ 0 → quiescent s u.comp = true → exec .componentSwap s = .next (signalBoth { modSec s (fun e => { e with
      update := some { u with swapped := true }
      running := splice (runningManifest s) (80 * u.comp) (entryBytesOf u.header u.comp)
      sessions := []
      certGen := e.certGen + 1 }) with
      power := if u.comp = 8 then { s.power with quiet := 2 } else s.power } 1022)) ∧
    (u.swapped = true ∨ u.comp = 0 → exec .flashRewriteDone s =
      .next (signalBoth (replyOk (modSec (applyUpdate s u) fun e => { e with update := none }) u.ticket 0 0) 1022))) ∧
  (∀ s : State, s.module = .on →
    (s.sec.rngWait = false → exec .getChallenge s =
      .next (mgmtAnswer (modSec (drawn s 1) fun e => { e with mctpNonce := some (drawWord s) }) 0 (leBytes 8 (drawWord s)))) ∧
    (∀ m owner, m.sigOk = false ∨ m.keyid ≠ Config.deviceKeyId → exec (.takeOwnership m owner) s = .next (mgmtAnswer s 1 [])) ∧
    (∀ (m : SignedMsg) (f : FloorRec), m.sigOk = true → m.keyid = Config.deviceKeyId → s.sec.floor = some f →
      let u := modSec s fun e => { e with mctpNonce := none }
      (∀ owner, s.sec.mctpNonce ≠ some m.challenge → exec (.takeOwnership m owner) s = .next (mgmtAnswer s 2 [])) ∧
      (s.sec.mctpNonce = some m.challenge →
        (∀ owner, f.owner = [] → exec (.takeOwnership m owner) s = .next (mgmtAnswer (writeFloor u { f with owner := owner }) 0 [])) ∧
        (∀ owner, f.owner ≠ [] → exec (.takeOwnership m owner) s = .next (mgmtAnswer u 3 [])) ∧
        (f.owner ≠ [] → s.jobs = [] →
          (∀ b keys, keys.length ≤ 8 →
            exec (.setPolicy m b keys) s = .next (mgmtAnswer (writeFloor u { f with cosign := b, keys := keys }) 0 [])) ∧
          (∀ fl, exec (.setFloor m fl) s = .next (mgmtAnswer (writeFloor u { f with
            floors := (List.range 11).map fun c => max (max (f.floors.getD c 0) (fl.getD c 0)) (entrySvn (flashHeader s) c) }) 0 [])) ∧
          exec (.releaseOwnership m) s = .next (mgmtAnswer (writeFloor u { f with owner := [], cosign := false, keys := [] }) 0 []))))) ∧
  (∀ (s : State) (img : List Byte) (p o : Bool), s.module = .on → s.sec.update = none → deviceReady s = true → s.jobs = [] →
    (imageCode s img p o = none → exec (.deliverImage img p o) s = .next (moduleDown (mgmtAnswer (writeImage s img p o true) 0 []) .mrst)) ∧
    (imageCode s img p o = some 4 → exec (.deliverImage img p o) s = .next (mgmtAnswer s 4 []))) ∧
  (∀ s : State, exec .rngReseed s = .next (modSec s fun e => { e with rngFails := 0, rngWait := false })) ∧
  (∀ s : State, s.module = .on → s.errs.fatal = false →
    let u := modSec s fun e => { e with rngFails := e.rngFails + 1, rngWait := true }
    (s.sec.rngFails < 2 → exec .rngHealthFailure s = .next u) ∧
    (2 ≤ s.sec.rngFails → exec .rngHealthFailure s = .next (deviceFatal u stFaultFatal 0x0B 4 0 [])))

/-- On a transport that is up: GET_VERSION begins anew and ends the transport's sessions; each of GET_CAPABILITIES and NEGOTIATE_ALGORITHMS is answered after the one before it; after them GET_DIGESTS, GET_CERTIFICATE of slot 0, CHALLENGE and GET_MEASUREMENTS answer the chain and the 16 blocks, and KEY_EXCHANGE makes the lowest free of four sessions. FINISH with a good MAC finishes its session, with a bad one ends it; HEARTBEAT, KEY_UPDATE, END_SESSION and IDE_KM act in a finished session. A request out of turn, or not supported, answers an error and changes nothing else. Where the spec leaves a point of it open, the clause is the model's choice or reading: logs 37, 43. -/
def Obligations.SpdmRequestsAnswerInTurn : Prop :=
  ∀ (s : State) (tr : Nat), tr ≤ 4 → spdmUp s tr = true →
    exec (.getVersion tr) s = .next (spdmAnswer (modSec s fun e => { e with
      versioned := tr :: e.versioned.filter (· ≠ tr), capable := e.capable.filter (· ≠ tr)
      negotiated := e.negotiated.filter (· ≠ tr), sessions := e.sessions.filter (·.tr ≠ tr) }) tr 0 [0x13]) ∧
    (∀ code, exec (.unsupportedRequest tr code) s = .next (spdmAnswer s tr spdmUnsupported [BitVec.ofNat 8 code])) ∧
    (tr ∈ s.sec.versioned → exec (.getCapabilities tr) s = .next (spdmAnswer (modSec s fun e =>
      { e with capable := tr :: e.capable.filter (· ≠ tr) }) tr 0 ((List.range 12).map (Config.openByte 0 230)))) ∧
    (tr ∈ s.sec.capable → ∀ offered : List Nat, (∀ a < 4, a ∈ offered) → exec (.negotiateAlgorithms tr offered) s =
      .next (spdmAnswer (modSec s fun e => { e with negotiated := tr :: e.negotiated.filter (· ≠ tr) }) tr 0 [0, 1, 2, 3])) ∧
    (tr ∉ s.sec.negotiated → exec (.getDigests tr) s = .next (spdmAnswer s tr spdmUnexpected [])) ∧
    (tr ∈ s.sec.negotiated →
      exec (.getDigests tr) s = .next (spdmAnswer s tr 0 (chainDigest s)) ∧
      exec (.getCertificate tr 0) s = .next (spdmAnswer s tr 0 (chainBytes s)) ∧
      (∀ nonce, s.sec.rngWait = false → exec (.challenge tr 0 nonce) s = .next (bumpFresh (drawn
        (spdmAnswer s tr 0 (let b := chainDigest s ++ drawBytes s 32 ++ slice nonce 0 32; b ++ signed s b)) 4))) ∧
      exec (.getMeasurements tr 0) s = .next (spdmAnswer s tr 0 [16]) ∧
      exec (.getMeasurements tr 255) s = .next (spdmAnswer s tr 0 (measurements s)) ∧
      (∀ i, 1 ≤ i → i ≤ 16 → exec (.getMeasurements tr i) s = .next (spdmAnswer s tr 0 (measurement s i))) ∧
      (∀ i, freeSession s tr = some i → s.sec.rngWait = false → exec (.keyExchange tr) s = .next (bumpFresh (drawn (spdmAnswer
        (modSec s fun e => { e with sessions := e.sessions ++ [{ tr := tr, id := i, finished := false, keygen := 0 }] })
        tr 0 (leBytes 4 i ++ drawBytes s 128 ++ signed s (leBytes 4 i ++ drawBytes s 128))) 16)))) ∧
    (∀ i x, sessionOf s tr i = some x →
      (x.finished = false →
        exec (.finish tr i true) s = .next (spdmAnswer (modSession s tr i fun x => { x with finished := true }) tr 0 []) ∧
        exec (.finish tr i false) s = .next (spdmAnswer (endSession s tr i) tr spdmDecrypt [])) ∧
      (x.finished = true →
        exec (.heartbeat tr i) s = .next (spdmAnswer s tr 0 []) ∧
        exec (.keyUpdate tr i) s = .next (spdmAnswer (modSession s tr i fun x => { x with keygen := x.keygen + 1 }) tr 0 []) ∧
        exec (.endSession tr i) s = .next (spdmAnswer (endSession s tr i) tr 0 []) ∧
        (∀ p stream key, p ≤ 1 → tr = 2 * p → stream ≤ 2 → exec (.ideKm p i stream key) s =
          .next (spdmAnswer (modPort s p fun x => { x with ide := arrPut x.ide stream key false }) tr 0 []))))

/-- While the die runs, ASSAY_SAMPLE adds its energy to the total register, advances the die's clock by 1 µs and charges exactly one account. The first notice on the link, when its row names it, leaves the link: OWN and FREE choose the account that is charged, OWN with the IDs that records carry from then on, SWITCH and RESTORE charge the causing job, CLOSE closes the job's account once no restore is owed, INTERVAL writes its record and starts a new span, BROWN sets the warning level, READ answers stored records, BEAT is heard. A row whose notice does not stand first changes nothing. These rows keep the total register equal to the idle account plus the sum of every job account, open or closed. Where the spec leaves a point of it open, the clause is the model's choice or reading: log 17. -/
def Obligations.AssayChargesAndHearsNotices : Prop :=
  (∀ (s : State) (uj mv : Nat), s.assay.running = true → ∃ u, exec (.assaySample uj mv) s = .next u ∧ u = { s with assay := u.assay } ∧
    u.assay.total = s.assay.total + uj ∧ u.assay.clock = s.assay.clock + 1 ∧ u.assay.cur = s.assay.cur ∧
    (s.assay.cur = .idle → u.assay.idle = s.assay.idle + uj ∧ u.assay.accounts.map (·.uj) = s.assay.accounts.map (·.uj)) ∧
    (s.assay.cur ≠ .idle → u.assay.idle = s.assay.idle)) ∧
  (∀ (s : State) (n : Notice) (rest : List Notice), s.assay.running = true → s.notices = n :: rest →
    let a := s.assay
    (∀ j p c d dom sys sh, n = .own j p c d dom sys sh →
      let b := modAccount (hear a n sh) j fun x => { x with port := p, client := c, dev := d, domain := dom, system := sys }
      exec .own s = .next (closeAccounts { s with notices := rest, assay := { b with
        dev := d, domain := dom, system := sys, cur := .job j, accounts := b.accounts.map fun x => { x with owes := x.owes.filter (· ≠ j) } } }) ∧ exec .free s = .next s) ∧
    (∀ c sh, n = .switch c sh →
      (∀ j, a.cur = .job j → exec .switch s = .next { s with
        notices := rest, assay := { modAccount (hear a n sh) c (fun x => { x with owes := if x.owes.contains j then x.owes else x.owes ++ [j] }) with cur := .sw c } }) ∧
      (a.cur = .idle → exec .switch s = .next { s with
        notices := rest, assay := { modAccount (hear a n sh) c (fun x => x) with cur := .sw c } })) ∧
    (∀ c j sh, n = .restore c j sh → exec .restore s =
      .next { s with notices := rest, assay := { modAccount (hear a n sh) c (fun x => x) with cur := .sw c } }) ∧
    (∀ sh, n = .free sh → exec .free s = .next { s with notices := rest, assay := { hear a n sh with cur := .idle } }) ∧
    (∀ j sh, n = .close j sh → exec .close s = .next (closeAccounts { s with notices := rest, assay := { hear a n sh with
      cur := if a.cur = .job j then .idle else a.cur
      accounts := a.accounts.map fun x => { x with owes := x.owes.filter (· ≠ j), closed := x.closed || x.job = j } } })) ∧
    (∀ sh, n = .interval sh →
      let b := storeRec (hear a n sh) (spanRec (hear a n sh) 2 a.ispan (a.ispan.energy / 1000) 0)
      exec .interval s = .next { s with notices := rest, assay := { b with ispan := newSpan b } }) ∧
    (∀ lv sh, n = .brown true lv sh → ∃ u, exec .brown s = .next u ∧ u.notices = rest ∧ u.assay.warn = 10 * lv ∧ u.assay.store = a.store) ∧
    (∀ f c, n = .read f c → exec (.read f c) s =
      .next { s with notices := rest, assay := { hear a n a.shaft with link := recordsFrom a f c } }) ∧
    (∀ sh, n = .beat sh → exec .beat s = .next { s with notices := rest, assay := hear a n sh })) ∧
  (∀ (s u : State) (c : Instr), balanced s.assay = true → exec c s = .next u →
    c = .own ∨ c = .switch ∨ c = .restore ∨ c = .free ∨ c = .close ∨ c = .interval ∨ c = .brown ∨ c = .beat ∨
      (∃ uj mv, c = .assaySample uj mv) → balanced u.assay = true)

/-- While the die runs: a lost link marks the open account, charges idle and writes event 0x06 once; a power loss marks every open span and stops the die, and its next start writes event 0x01; an opened seal is marked with event 0x02, and the switch closes again without an event. A calibration command with good authority and the switch open changes its constant or digest, RESEAL with the switch closed clears the mark, each with its event and the hallmark counted; one that does nothing is counted as event 0x07 and changes nothing else. Where the spec leaves a point of it open, the clause is the model's choice or reading: log 17. -/
def Obligations.AssaySealAndCalibration : Prop :=
  ∀ s : State,
    let a := s.assay
    exec .sealSwitchClosed s = .next { s with assay := { a with sealOpen := false } } ∧
    (a.running = false → exec .assayDieStarted s = .next { s with
      assay := eventRec { a with running := true, cur := .idle } 1 (lastOpen a) }) ∧
    (a.running = true →
      (let b := onCharged a fun sp => { sp with lost := true }
       a.lostLink = false → exec .assayLinkLost s =
        .next { s with assay := { eventRec { b with cur := .idle } 6 b.lastKind with lostLink := true } }) ∧
      (∃ u, exec .assayPowerLoss s = .next u ∧ u.assay.running = false ∧ u.notices = [] ∧ u.assay.store = a.store ∧
        u.assay.ispan.pfail = true ∧ (∀ x ∈ u.assay.accounts, x.span.pfail = true)) ∧
      (a.sealOpen = false → exec .sealOpen s = .next { s with assay := eventRec { a with sealOpen := true, marked := true } 2 0 }) ∧
      (a.sealOpen = true →
        (∀ n v, exec (.calibrationConstantWrite n v true) s = .next { s with
          assay := eventRec { a with consts := arrPut a.consts n v false, hallmark := a.hallmark + 1 } 4 n }) ∧
        (∀ d, exec (.afReplace d true) s = .next { s with
          assay := eventRec { a with af := d, hallmark := a.hallmark + 1 } 5 (d.toNat % 2 ^ 56) })) ∧
      (a.sealOpen = false →
        exec (.reseal true) s = .next { s with assay := eventRec { a with marked := false, hallmark := a.hallmark + 1 } 3 0 } ∧
        (∀ n v b, exec (.calibrationConstantWrite n v b) s = .next { s with assay := { eventRec a 7 (a.ignored + 1) with ignored := 0 } })) ∧
      (∀ n v, exec (.calibrationConstantWrite n v false) s = .next { s with assay := { eventRec a 7 (a.ignored + 1) with ignored := 0 } }))

/-- For every state: a record that names no job (JOB 0), or of severity device-fatal (3), is put into the ring and signalled on vector 1,016 of both ports whose link is up (and on vector 1 of PF1, R352); no completion queue, no host memory write and no held entry changes. -/
def Obligations.RecordsOfNoJobAreSignalled : Prop :=
  ∀ (s : State) (status sev : Nat) (lasting summary : Bool) (src job loc0 loc1 : Nat) (detail : List Nat),
    job = 0 ∨ sev = 3 →
    let u := addRecord s status sev lasting summary src job loc0 loc1 detail
    u.ports = s.ports ∧ u.dma = s.dma ∧ u.mem = s.mem ∧ u.casc = s.casc ∧
    (u.errs.ring.head?.map (·.seq)) = some s.errs.next ∧
    u.msi = s.msi ++ (List.range 2).flatMap fun p =>
      if (portN s p).link then [{ port := p, pf := 0, vec := 1016 }, { port := p, pf := 1, vec := 1 }] else []

/-- For both 8-bit formats, every rounding mode, stochastic word and value: the rounded code is 0x80 if and only if the value is NaN; a value that is not NaN and rounds to a magnitude of zero gives 0x00 whatever its sign; a stored ingot holds no 0x80; and the code 0x00 reads as +0. -/
def Obligations.ShortFloatsKeepNegativeZeroForNaN : Prop :=
  ∀ f : Fmt, f = .f8v ∨ f = .f8g →
    (∀ (m : RMode) (r : Nat) (x : Machine.Num), ((roundNum f m r x).1 = 0x80 ↔ numIsNan x = true) ∧
      (numIsNan x = false → (roundNum f m r x).1 % 0x80 = 0 → (roundNum f m r x).1 = 0) ∧
      ∀ z, storeElem f m r z x = roundNum f m r x) ∧
    (∀ (m : RMode) (ys : List (Machine.Num × Nat)), 0x80 ∉ (storeIngot f m ys).2.1) ∧
    (∃ e : Exact, decodeElem f 0 = .fin e ∧ e.neg = false ∧ e.num = 0)

/-- For every command c and states s and u: if exec of c on s answers u and s has a floor record of 11 floors, u has one too, and no floor of it is below the one in s. When FLASH_REWRITE_DONE writes a component whose FLOOR bit is 1, its floor afterwards is the larger of its floor and its SVN. -/
def Obligations.FloorsNeverFall : Prop :=
  (∀ (c : Instr) (s u : State) (f : FloorRec), exec c s = .next u → s.sec.floor = some f → f.floors.length = 11 →
    ∃ g, u.sec.floor = some g ∧ g.floors.length = 11 ∧ ∀ i < 11, f.floors.getD i 0 ≤ g.floors.getD i 0) ∧
  (∀ (s : State) (p : Update) (f : FloorRec), s.module = .on → s.sec.update = some p → (p.swapped = true ∨ p.comp = 0) → p.comp < 11 →
    s.sec.floor = some f → f.floors.length = 11 → entryFloor p.header p.comp = true →
    ∃ u g, exec .flashRewriteDone s = .next u ∧ u.sec.floor = some g ∧
      g.floors.getD p.comp 0 = max (f.floors.getD p.comp 0) (entrySvn p.header p.comp))

/-- For every command but POWER_CEILING, SET_FEATURE, POR and MRST_RELEASE, a next state has the ceiling and the features of the state before. After POR of a module that is not off, and after MRST_RELEASE in MRST, the ceiling is 3,000 W and every feature reads its default. -/
def Obligations.CeilingAndFeaturesSurvive : Prop :=
  (∀ (c : Instr) (s u : State), exec c s = .next u → (∀ k, c ≠ .powerCeiling k) → (∀ k, c ≠ .setFeature k) → (∀ b, c ≠ .por b) →
    (∀ b, c ≠ .mrstRelease b) → u.power.ceil = s.power.ceil ∧ u.feat = s.feat) ∧
  (∀ (s u : State) (b : Boot), (s.module ≠ .off ∧ exec (.por b) s = .next u) ∨ (s.module = .mrst ∧ exec (.mrstRelease b) s = .next u) →
    u.power.ceil = 3000 ∧ ∀ f, feature u f = featDefault f)

/-- For every state s in which no two of the regions, the save areas of the open jobs and the reserved areas of the Levels overlap: if step of s answers u, no two of them overlap in u. At reset none overlap. Where the spec leaves a point of it open, the clause is the model's choice or reading: log 33. -/
def Obligations.DeviceRangesStayDisjoint : Prop :=
  (takenRanges State.reset).Pairwise (fun a b => meetsRange a b = false) ∧
  ∀ s u : State, (takenRanges s).Pairwise (fun a b => meetsRange a b = false) → step s = .next u →
    (takenRanges u).Pairwise (fun a b => meetsRange a b = false)
end

