-- ==== Sys2Proof/Laws/Arr.lean ====
section
/-! SUPPORT. Laws of the sparse array: the canonical form is kept, a read gives what was written, every other index keeps its
value. -/

namespace Sys2Proof.Machine

variable {α : Type}

/-- Every index of the array is above k. -/
def arrAbove (k : Nat) (a : Arr α) : Prop := ∀ e ∈ a, k < e.1

theorem arrSorted_cons (e : Nat × α) (a : Arr α) : arrSorted (e :: a) = true ↔ arrAbove e.1 a ∧ arrSorted a = true := by
  induction a generalizing e with
  | nil => simp [arrSorted, arrAbove]
  | cons f t ih =>
    have h := ih f
    simp only [arrSorted, Bool.and_eq_true, decide_eq_true_eq, arrAbove, List.mem_cons, forall_eq_or_imp] at *
    constructor
    · rintro ⟨h1, h2⟩
      exact ⟨⟨h1, fun x hx => Nat.lt_trans h1 ((h.mp h2).1 x hx)⟩, h2⟩
    · rintro ⟨⟨h1, _⟩, h2⟩
      exact ⟨h1, h2⟩

theorem mem_arrPut {a : Arr α} {k : Nat} {v : α} {d : Bool} {e : Nat × α} (h : e ∈ arrPut a k v d) :
    e ∈ a ∨ (e = (k, v) ∧ d = false) := by
  induction a with
  | nil => cases d <;> simp_all [arrPut]
  | cons f t ih =>
    simp only [arrPut] at h
    split at h
    · rcases List.mem_cons.mp h with h | h
      · simp [h]
      · rcases ih h with h | h <;> simp [h]
    · split at h
      · cases d
        · rcases List.mem_cons.mp (by simpa using h) with h | h <;> simp [h]
        · left; simp at h; simp [h]
      · cases d
        · rcases (show e = (k, v) ∨ e = f ∨ e ∈ t by simpa using h) with h | h | h <;> simp [h]
        · left; simpa using h

theorem arrAbove_arrPut {a : Arr α} {j k : Nat} {v : α} {d : Bool} (h : arrAbove j a) (hk : j < k) : arrAbove j (arrPut a k v d) := by
  intro e he
  rcases mem_arrPut he with he | ⟨he, _⟩
  · exact h e he
  · simpa [he] using hk

/-- A write keeps the canonical form. -/
theorem arrSorted_arrPut (a : Arr α) (k : Nat) (v : α) (d : Bool) (h : arrSorted a = true) : arrSorted (arrPut a k v d) = true := by
  induction a with
  | nil => cases d <;> simp [arrPut, arrSorted]
  | cons f t ih =>
    obtain ⟨h1, h2⟩ := (arrSorted_cons f t).mp h
    simp only [arrPut]
    split
    · rename_i hlt
      exact (arrSorted_cons _ _).mpr ⟨arrAbove_arrPut h1 hlt, ih h2⟩
    · split
      · cases d
        · rename_i he
          exact (arrSorted_cons _ _).mpr ⟨by simpa [he] using h1, h2⟩
        · simpa using h2
      · cases d
        · rename_i h3 h4
          refine (arrSorted_cons _ _).mpr ⟨?_, h⟩
          intro e he
          rcases List.mem_cons.mp he with he | he
          · simp [he]; omega
          · have := h1 e he; simp at *; omega
        · simpa using h

theorem arrSorted_filter (a : Arr α) (p : Nat × α → Bool) (h : arrSorted a = true) : arrSorted (a.filter p) = true := by
  induction a with
  | nil => simpa using h
  | cons f t ih =>
    obtain ⟨h1, h2⟩ := (arrSorted_cons f t).mp h
    simp only [List.filter_cons]
    split
    · exact (arrSorted_cons _ _).mpr ⟨fun e he => h1 e (List.mem_filter.mp he).1, ih h2⟩
    · exact ih h2

theorem arrGet_above {a : Arr α} {k : Nat} (d : α) (h : arrAbove k a) : arrGet a k d = d := by
  induction a with
  | nil => rfl
  | cons f t ih =>
    have h1 : k < f.1 := h f (by simp)
    simp only [arrGet]
    rw [if_neg (by omega)]
    exact ih fun e he => h e (by simp [he])

/-- A read of the index written gives the value, if the array is canonical and the default of a value not kept is the value. -/
theorem arrGet_arrPut_self (a : Arr α) (k : Nat) (v d : α) (b : Bool) (h : arrSorted a = true) (hd : b = true → v = d) :
    arrGet (arrPut a k v b) k d = v := by
  induction a with
  | nil => cases b <;> simp_all [arrPut, arrGet]
  | cons f t ih =>
    obtain ⟨h1, h2⟩ := (arrSorted_cons f t).mp h
    simp only [arrPut]
    split
    · simp only [arrGet]
      rw [if_neg (by omega)]
      exact ih h2
    · split
      · rename_i he
        cases b
        · simp [arrGet]
        · simp only [if_true]
          rw [arrGet_above d (by rw [← he]; exact h1), hd rfl]
      · cases b
        · simp [arrGet]
        · simp only [if_true]
          rw [hd rfl]
          apply arrGet_above
          intro e he
          rcases List.mem_cons.mp he with he | he
          · simp [he]; omega
          · have := h1 e he; simp at *; omega

/-- A read of another index gives what it gave. -/
theorem arrGet_arrPut_ne (a : Arr α) (k j : Nat) (v d : α) (b : Bool) (hj : j ≠ k) : arrGet (arrPut a k v b) j d = arrGet a j d := by
  induction a with
  | nil => cases b <;> simp [arrPut, arrGet, Ne.symm hj]
  | cons f t ih =>
    simp only [arrPut]
    split
    · simp only [arrGet]
      split
      · rfl
      · exact ih
    · split
      · rename_i he
        cases b
        · simp [arrGet, Ne.symm hj, he]
        · simp [arrGet, Ne.symm hj, he]
      · cases b
        · simp [arrGet, Ne.symm hj]
        · simp

theorem arrGet_arrSet_self [DecidableEq α] (a : Arr α) (k : Nat) (v d : α) (h : arrSorted a = true) : arrGet (arrSet a k v d) k d = v :=
  arrGet_arrPut_self a k v d _ h (by simp)

theorem arrGet_arrSet_ne [DecidableEq α] (a : Arr α) (k j : Nat) (v d : α) (hj : j ≠ k) : arrGet (arrSet a k v d) j d = arrGet a j d :=
  arrGet_arrPut_ne a k j v d _ hj

theorem arrSorted_arrSet [DecidableEq α] (a : Arr α) (k : Nat) (v d : α) (h : arrSorted a = true) : arrSorted (arrSet a k v d) = true :=
  arrSorted_arrPut a k v _ h

end Sys2Proof.Machine
end

