-- ==== Sys2Proof/Laws/State.lean ====
section
/-! SUPPORT. What each named update of the state leaves alone, field by field. -/

namespace Sys2Proof.Machine

section
variable (s : State) (t : Nat) (x : Tile)
@[simp] theorem setTile_levels : (setTile s t x).levels = s.levels := rfl
@[simp] theorem setTile_cbar : (setTile s t x).cbar = s.cbar := rfl
@[simp] theorem setTile_tmap : (setTile s t x).tmap = s.tmap := rfl
@[simp] theorem setTile_snap : (setTile s t x).snap = s.snap := rfl
@[simp] theorem setTile_net : (setTile s t x).net = s.net := rfl
@[simp] theorem setTile_ctl : (setTile s t x).ctl = s.ctl := rfl
@[simp] theorem setTile_bins : (setTile s t x).bins = s.bins := rfl
@[simp] theorem setTile_keys : (setTile s t x).keys = s.keys := rfl
@[simp] theorem setTile_genTab : (setTile s t x).genTab = s.genTab := rfl
@[simp] theorem setTile_farTab : (setTile s t x).farTab = s.farTab := rfl
@[simp] theorem setTile_mem : (setTile s t x).mem = s.mem := rfl
@[simp] theorem setTile_regions : (setTile s t x).regions = s.regions := rfl
@[simp] theorem setTile_saves : (setTile s t x).saves = s.saves := rfl
@[simp] theorem setTile_ports : (setTile s t x).ports = s.ports := rfl
@[simp] theorem setTile_out : (setTile s t x).out = s.out := rfl
@[simp] theorem setTile_ticket : (setTile s t x).ticket = s.ticket := rfl
@[simp] theorem setTile_dma : (setTile s t x).dma = s.dma := rfl
@[simp] theorem setTile_msi : (setTile s t x).msi = s.msi := rfl
@[simp] theorem setTile_answers : (setTile s t x).answers = s.answers := rfl
@[simp] theorem setTile_hubCtr : (setTile s t x).hubCtr = s.hubCtr := rfl
@[simp] theorem setTile_feat : (setTile s t x).feat = s.feat := rfl
@[simp] theorem setTile_jobs : (setTile s t x).jobs = s.jobs := rfl
@[simp] theorem setTile_lastJob : (setTile s t x).lastJob = s.lastJob := rfl
@[simp] theorem setTile_adopted : (setTile s t x).adopted = s.adopted := rfl
@[simp] theorem setTile_lcq : (setTile s t x).lcq = s.lcq := rfl
@[simp] theorem setTile_beq : (setTile s t x).beq = s.beq := rfl
@[simp] theorem setTile_comp : (setTile s t x).comp = s.comp := rfl
@[simp] theorem setTile_sw : (setTile s t x).sw = s.sw := rfl
@[simp] theorem setTile_heldIn : (setTile s t x).heldIn = s.heldIn := rfl
@[simp] theorem setTile_paused : (setTile s t x).paused = s.paused := rfl
@[simp] theorem setTile_load : (setTile s t x).load = s.load := rfl
@[simp] theorem setTile_images : (setTile s t x).images = s.images := rfl
@[simp] theorem setTile_launches : (setTile s t x).launches = s.launches := rfl
@[simp] theorem setTile_replays : (setTile s t x).replays = s.replays := rfl
@[simp] theorem setTile_colls : (setTile s t x).colls = s.colls := rfl
@[simp] theorem setTile_power : (setTile s t x).power = s.power := rfl
@[simp] theorem setTile_casc : (setTile s t x).casc = s.casc := rfl
@[simp] theorem setTile_errs : (setTile s t x).errs = s.errs := rfl
@[simp] theorem setTile_retired : (setTile s t x).retired = s.retired := rfl
@[simp] theorem setTile_retiredPc : (setTile s t x).retiredPc = s.retiredPc := rfl
@[simp] theorem setTile_retiredStack : (setTile s t x).retiredStack = s.retiredStack := rfl
@[simp] theorem setTile_retiredPkg : (setTile s t x).retiredPkg = s.retiredPkg := rfl
@[simp] theorem setTile_degraded : (setTile s t x).degraded = s.degraded := rfl
@[simp] theorem setTile_links : (setTile s t x).links = s.links := rfl
@[simp] theorem setTile_subst : (setTile s t x).subst = s.subst := rfl
@[simp] theorem setTile_reserve : (setTile s t x).reserve = s.reserve := rfl
@[simp] theorem setTile_flashRecs : (setTile s t x).flashRecs = s.flashRecs := rfl
@[simp] theorem setTile_flashCounts : (setTile s t x).flashCounts = s.flashCounts := rfl
@[simp] theorem setTile_resets : (setTile s t x).resets = s.resets := rfl
@[simp] theorem setTile_module : (setTile s t x).module = s.module := rfl
@[simp] theorem setTile_s2 : (setTile s t x).s2 = s.s2 := rfl
@[simp] theorem setTile_s3 : (setTile s t x).s3 = s.s3 := rfl
@[simp] theorem setTile_lvA1 : (setTile s t x).lvA1 = s.lvA1 := rfl
@[simp] theorem setTile_sec : (setTile s t x).sec = s.sec := rfl
@[simp] theorem setTile_assay : (setTile s t x).assay = s.assay := rfl
@[simp] theorem setTile_notices : (setTile s t x).notices = s.notices := rfl
@[simp] theorem setTile_alert : (setTile s t x).alert = s.alert := rfl
@[simp] theorem setTile_jtag : (setTile s t x).jtag = s.jtag := rfl
@[simp] theorem setTile_clock : (setTile s t x).clock = s.clock := rfl
@[simp] theorem setTile_fresh : (setTile s t x).fresh = s.fresh := rfl
@[simp] theorem setTile_rng : (setTile s t x).rng = s.rng := rfl
@[simp] theorem setTile_pending : (setTile s t x).pending = s.pending := rfl
end

section
variable (s : State) (t : Nat) (f : Tile → Tile)
@[simp] theorem modTile_levels : (modTile s t f).levels = s.levels := rfl
@[simp] theorem modTile_cbar : (modTile s t f).cbar = s.cbar := rfl
@[simp] theorem modTile_tmap : (modTile s t f).tmap = s.tmap := rfl
@[simp] theorem modTile_snap : (modTile s t f).snap = s.snap := rfl
@[simp] theorem modTile_net : (modTile s t f).net = s.net := rfl
@[simp] theorem modTile_ctl : (modTile s t f).ctl = s.ctl := rfl
@[simp] theorem modTile_bins : (modTile s t f).bins = s.bins := rfl
@[simp] theorem modTile_keys : (modTile s t f).keys = s.keys := rfl
@[simp] theorem modTile_genTab : (modTile s t f).genTab = s.genTab := rfl
@[simp] theorem modTile_farTab : (modTile s t f).farTab = s.farTab := rfl
@[simp] theorem modTile_mem : (modTile s t f).mem = s.mem := rfl
@[simp] theorem modTile_regions : (modTile s t f).regions = s.regions := rfl
@[simp] theorem modTile_saves : (modTile s t f).saves = s.saves := rfl
@[simp] theorem modTile_ports : (modTile s t f).ports = s.ports := rfl
@[simp] theorem modTile_out : (modTile s t f).out = s.out := rfl
@[simp] theorem modTile_ticket : (modTile s t f).ticket = s.ticket := rfl
@[simp] theorem modTile_dma : (modTile s t f).dma = s.dma := rfl
@[simp] theorem modTile_msi : (modTile s t f).msi = s.msi := rfl
@[simp] theorem modTile_answers : (modTile s t f).answers = s.answers := rfl
@[simp] theorem modTile_hubCtr : (modTile s t f).hubCtr = s.hubCtr := rfl
@[simp] theorem modTile_feat : (modTile s t f).feat = s.feat := rfl
@[simp] theorem modTile_jobs : (modTile s t f).jobs = s.jobs := rfl
@[simp] theorem modTile_lastJob : (modTile s t f).lastJob = s.lastJob := rfl
@[simp] theorem modTile_adopted : (modTile s t f).adopted = s.adopted := rfl
@[simp] theorem modTile_lcq : (modTile s t f).lcq = s.lcq := rfl
@[simp] theorem modTile_beq : (modTile s t f).beq = s.beq := rfl
@[simp] theorem modTile_comp : (modTile s t f).comp = s.comp := rfl
@[simp] theorem modTile_sw : (modTile s t f).sw = s.sw := rfl
@[simp] theorem modTile_heldIn : (modTile s t f).heldIn = s.heldIn := rfl
@[simp] theorem modTile_paused : (modTile s t f).paused = s.paused := rfl
@[simp] theorem modTile_load : (modTile s t f).load = s.load := rfl
@[simp] theorem modTile_images : (modTile s t f).images = s.images := rfl
@[simp] theorem modTile_launches : (modTile s t f).launches = s.launches := rfl
@[simp] theorem modTile_replays : (modTile s t f).replays = s.replays := rfl
@[simp] theorem modTile_colls : (modTile s t f).colls = s.colls := rfl
@[simp] theorem modTile_power : (modTile s t f).power = s.power := rfl
@[simp] theorem modTile_casc : (modTile s t f).casc = s.casc := rfl
@[simp] theorem modTile_errs : (modTile s t f).errs = s.errs := rfl
@[simp] theorem modTile_retired : (modTile s t f).retired = s.retired := rfl
@[simp] theorem modTile_retiredPc : (modTile s t f).retiredPc = s.retiredPc := rfl
@[simp] theorem modTile_retiredStack : (modTile s t f).retiredStack = s.retiredStack := rfl
@[simp] theorem modTile_retiredPkg : (modTile s t f).retiredPkg = s.retiredPkg := rfl
@[simp] theorem modTile_degraded : (modTile s t f).degraded = s.degraded := rfl
@[simp] theorem modTile_links : (modTile s t f).links = s.links := rfl
@[simp] theorem modTile_subst : (modTile s t f).subst = s.subst := rfl
@[simp] theorem modTile_reserve : (modTile s t f).reserve = s.reserve := rfl
@[simp] theorem modTile_flashRecs : (modTile s t f).flashRecs = s.flashRecs := rfl
@[simp] theorem modTile_flashCounts : (modTile s t f).flashCounts = s.flashCounts := rfl
@[simp] theorem modTile_resets : (modTile s t f).resets = s.resets := rfl
@[simp] theorem modTile_module : (modTile s t f).module = s.module := rfl
@[simp] theorem modTile_s2 : (modTile s t f).s2 = s.s2 := rfl
@[simp] theorem modTile_s3 : (modTile s t f).s3 = s.s3 := rfl
@[simp] theorem modTile_lvA1 : (modTile s t f).lvA1 = s.lvA1 := rfl
@[simp] theorem modTile_sec : (modTile s t f).sec = s.sec := rfl
@[simp] theorem modTile_assay : (modTile s t f).assay = s.assay := rfl
@[simp] theorem modTile_notices : (modTile s t f).notices = s.notices := rfl
@[simp] theorem modTile_alert : (modTile s t f).alert = s.alert := rfl
@[simp] theorem modTile_jtag : (modTile s t f).jtag = s.jtag := rfl
@[simp] theorem modTile_clock : (modTile s t f).clock = s.clock := rfl
@[simp] theorem modTile_fresh : (modTile s t f).fresh = s.fresh := rfl
@[simp] theorem modTile_rng : (modTile s t f).rng = s.rng := rfl
@[simp] theorem modTile_pending : (modTile s t f).pending = s.pending := rfl
end

section
variable (s : State) (j : Nat) (f : Job → Job)
@[simp] theorem modJob_tiles : (modJob s j f).tiles = s.tiles := rfl
@[simp] theorem modJob_levels : (modJob s j f).levels = s.levels := rfl
@[simp] theorem modJob_cbar : (modJob s j f).cbar = s.cbar := rfl
@[simp] theorem modJob_tmap : (modJob s j f).tmap = s.tmap := rfl
@[simp] theorem modJob_snap : (modJob s j f).snap = s.snap := rfl
@[simp] theorem modJob_net : (modJob s j f).net = s.net := rfl
@[simp] theorem modJob_ctl : (modJob s j f).ctl = s.ctl := rfl
@[simp] theorem modJob_bins : (modJob s j f).bins = s.bins := rfl
@[simp] theorem modJob_keys : (modJob s j f).keys = s.keys := rfl
@[simp] theorem modJob_genTab : (modJob s j f).genTab = s.genTab := rfl
@[simp] theorem modJob_farTab : (modJob s j f).farTab = s.farTab := rfl
@[simp] theorem modJob_mem : (modJob s j f).mem = s.mem := rfl
@[simp] theorem modJob_regions : (modJob s j f).regions = s.regions := rfl
@[simp] theorem modJob_saves : (modJob s j f).saves = s.saves := rfl
@[simp] theorem modJob_ports : (modJob s j f).ports = s.ports := rfl
@[simp] theorem modJob_out : (modJob s j f).out = s.out := rfl
@[simp] theorem modJob_ticket : (modJob s j f).ticket = s.ticket := rfl
@[simp] theorem modJob_dma : (modJob s j f).dma = s.dma := rfl
@[simp] theorem modJob_msi : (modJob s j f).msi = s.msi := rfl
@[simp] theorem modJob_answers : (modJob s j f).answers = s.answers := rfl
@[simp] theorem modJob_hubCtr : (modJob s j f).hubCtr = s.hubCtr := rfl
@[simp] theorem modJob_feat : (modJob s j f).feat = s.feat := rfl
@[simp] theorem modJob_lastJob : (modJob s j f).lastJob = s.lastJob := rfl
@[simp] theorem modJob_adopted : (modJob s j f).adopted = s.adopted := rfl
@[simp] theorem modJob_lcq : (modJob s j f).lcq = s.lcq := rfl
@[simp] theorem modJob_beq : (modJob s j f).beq = s.beq := rfl
@[simp] theorem modJob_comp : (modJob s j f).comp = s.comp := rfl
@[simp] theorem modJob_sw : (modJob s j f).sw = s.sw := rfl
@[simp] theorem modJob_heldIn : (modJob s j f).heldIn = s.heldIn := rfl
@[simp] theorem modJob_paused : (modJob s j f).paused = s.paused := rfl
@[simp] theorem modJob_load : (modJob s j f).load = s.load := rfl
@[simp] theorem modJob_images : (modJob s j f).images = s.images := rfl
@[simp] theorem modJob_launches : (modJob s j f).launches = s.launches := rfl
@[simp] theorem modJob_replays : (modJob s j f).replays = s.replays := rfl
@[simp] theorem modJob_colls : (modJob s j f).colls = s.colls := rfl
@[simp] theorem modJob_power : (modJob s j f).power = s.power := rfl
@[simp] theorem modJob_casc : (modJob s j f).casc = s.casc := rfl
@[simp] theorem modJob_errs : (modJob s j f).errs = s.errs := rfl
@[simp] theorem modJob_retired : (modJob s j f).retired = s.retired := rfl
@[simp] theorem modJob_retiredPc : (modJob s j f).retiredPc = s.retiredPc := rfl
@[simp] theorem modJob_retiredStack : (modJob s j f).retiredStack = s.retiredStack := rfl
@[simp] theorem modJob_retiredPkg : (modJob s j f).retiredPkg = s.retiredPkg := rfl
@[simp] theorem modJob_degraded : (modJob s j f).degraded = s.degraded := rfl
@[simp] theorem modJob_links : (modJob s j f).links = s.links := rfl
@[simp] theorem modJob_subst : (modJob s j f).subst = s.subst := rfl
@[simp] theorem modJob_reserve : (modJob s j f).reserve = s.reserve := rfl
@[simp] theorem modJob_flashRecs : (modJob s j f).flashRecs = s.flashRecs := rfl
@[simp] theorem modJob_flashCounts : (modJob s j f).flashCounts = s.flashCounts := rfl
@[simp] theorem modJob_resets : (modJob s j f).resets = s.resets := rfl
@[simp] theorem modJob_module : (modJob s j f).module = s.module := rfl
@[simp] theorem modJob_s2 : (modJob s j f).s2 = s.s2 := rfl
@[simp] theorem modJob_s3 : (modJob s j f).s3 = s.s3 := rfl
@[simp] theorem modJob_lvA1 : (modJob s j f).lvA1 = s.lvA1 := rfl
@[simp] theorem modJob_sec : (modJob s j f).sec = s.sec := rfl
@[simp] theorem modJob_assay : (modJob s j f).assay = s.assay := rfl
@[simp] theorem modJob_notices : (modJob s j f).notices = s.notices := rfl
@[simp] theorem modJob_alert : (modJob s j f).alert = s.alert := rfl
@[simp] theorem modJob_jtag : (modJob s j f).jtag = s.jtag := rfl
@[simp] theorem modJob_clock : (modJob s j f).clock = s.clock := rfl
@[simp] theorem modJob_fresh : (modJob s j f).fresh = s.fresh := rfl
@[simp] theorem modJob_rng : (modJob s j f).rng = s.rng := rfl
@[simp] theorem modJob_pending : (modJob s j f).pending = s.pending := rfl
end

section
variable (s : State) (a : Nat) (b : Byte)
@[simp] theorem memWrite_tiles : (memWrite s a b).tiles = s.tiles := rfl
@[simp] theorem memWrite_levels : (memWrite s a b).levels = s.levels := rfl
@[simp] theorem memWrite_cbar : (memWrite s a b).cbar = s.cbar := rfl
@[simp] theorem memWrite_tmap : (memWrite s a b).tmap = s.tmap := rfl
@[simp] theorem memWrite_snap : (memWrite s a b).snap = s.snap := rfl
@[simp] theorem memWrite_net : (memWrite s a b).net = s.net := rfl
@[simp] theorem memWrite_ctl : (memWrite s a b).ctl = s.ctl := rfl
@[simp] theorem memWrite_keys : (memWrite s a b).keys = s.keys := rfl
@[simp] theorem memWrite_genTab : (memWrite s a b).genTab = s.genTab := rfl
@[simp] theorem memWrite_farTab : (memWrite s a b).farTab = s.farTab := rfl
@[simp] theorem memWrite_regions : (memWrite s a b).regions = s.regions := rfl
@[simp] theorem memWrite_saves : (memWrite s a b).saves = s.saves := rfl
@[simp] theorem memWrite_ports : (memWrite s a b).ports = s.ports := rfl
@[simp] theorem memWrite_out : (memWrite s a b).out = s.out := rfl
@[simp] theorem memWrite_ticket : (memWrite s a b).ticket = s.ticket := rfl
@[simp] theorem memWrite_dma : (memWrite s a b).dma = s.dma := rfl
@[simp] theorem memWrite_msi : (memWrite s a b).msi = s.msi := rfl
@[simp] theorem memWrite_answers : (memWrite s a b).answers = s.answers := rfl
@[simp] theorem memWrite_hubCtr : (memWrite s a b).hubCtr = s.hubCtr := rfl
@[simp] theorem memWrite_feat : (memWrite s a b).feat = s.feat := rfl
@[simp] theorem memWrite_jobs : (memWrite s a b).jobs = s.jobs := rfl
@[simp] theorem memWrite_lastJob : (memWrite s a b).lastJob = s.lastJob := rfl
@[simp] theorem memWrite_adopted : (memWrite s a b).adopted = s.adopted := rfl
@[simp] theorem memWrite_lcq : (memWrite s a b).lcq = s.lcq := rfl
@[simp] theorem memWrite_beq : (memWrite s a b).beq = s.beq := rfl
@[simp] theorem memWrite_comp : (memWrite s a b).comp = s.comp := rfl
@[simp] theorem memWrite_sw : (memWrite s a b).sw = s.sw := rfl
@[simp] theorem memWrite_heldIn : (memWrite s a b).heldIn = s.heldIn := rfl
@[simp] theorem memWrite_paused : (memWrite s a b).paused = s.paused := rfl
@[simp] theorem memWrite_load : (memWrite s a b).load = s.load := rfl
@[simp] theorem memWrite_images : (memWrite s a b).images = s.images := rfl
@[simp] theorem memWrite_launches : (memWrite s a b).launches = s.launches := rfl
@[simp] theorem memWrite_replays : (memWrite s a b).replays = s.replays := rfl
@[simp] theorem memWrite_colls : (memWrite s a b).colls = s.colls := rfl
@[simp] theorem memWrite_power : (memWrite s a b).power = s.power := rfl
@[simp] theorem memWrite_casc : (memWrite s a b).casc = s.casc := rfl
@[simp] theorem memWrite_errs : (memWrite s a b).errs = s.errs := rfl
@[simp] theorem memWrite_retired : (memWrite s a b).retired = s.retired := rfl
@[simp] theorem memWrite_retiredPc : (memWrite s a b).retiredPc = s.retiredPc := rfl
@[simp] theorem memWrite_retiredStack : (memWrite s a b).retiredStack = s.retiredStack := rfl
@[simp] theorem memWrite_retiredPkg : (memWrite s a b).retiredPkg = s.retiredPkg := rfl
@[simp] theorem memWrite_degraded : (memWrite s a b).degraded = s.degraded := rfl
@[simp] theorem memWrite_links : (memWrite s a b).links = s.links := rfl
@[simp] theorem memWrite_subst : (memWrite s a b).subst = s.subst := rfl
@[simp] theorem memWrite_reserve : (memWrite s a b).reserve = s.reserve := rfl
@[simp] theorem memWrite_flashRecs : (memWrite s a b).flashRecs = s.flashRecs := rfl
@[simp] theorem memWrite_flashCounts : (memWrite s a b).flashCounts = s.flashCounts := rfl
@[simp] theorem memWrite_resets : (memWrite s a b).resets = s.resets := rfl
@[simp] theorem memWrite_module : (memWrite s a b).module = s.module := rfl
@[simp] theorem memWrite_s2 : (memWrite s a b).s2 = s.s2 := rfl
@[simp] theorem memWrite_s3 : (memWrite s a b).s3 = s.s3 := rfl
@[simp] theorem memWrite_lvA1 : (memWrite s a b).lvA1 = s.lvA1 := rfl
@[simp] theorem memWrite_sec : (memWrite s a b).sec = s.sec := rfl
@[simp] theorem memWrite_assay : (memWrite s a b).assay = s.assay := rfl
@[simp] theorem memWrite_notices : (memWrite s a b).notices = s.notices := rfl
@[simp] theorem memWrite_alert : (memWrite s a b).alert = s.alert := rfl
@[simp] theorem memWrite_jtag : (memWrite s a b).jtag = s.jtag := rfl
@[simp] theorem memWrite_clock : (memWrite s a b).clock = s.clock := rfl
@[simp] theorem memWrite_fresh : (memWrite s a b).fresh = s.fresh := rfl
@[simp] theorem memWrite_rng : (memWrite s a b).rng = s.rng := rfl
@[simp] theorem memWrite_pending : (memWrite s a b).pending = s.pending := rfl
end

section
variable (s : State) (l h : Nat)
@[simp] theorem memDrop_tiles : (memDrop s l h).tiles = s.tiles := rfl
@[simp] theorem memDrop_levels : (memDrop s l h).levels = s.levels := rfl
@[simp] theorem memDrop_cbar : (memDrop s l h).cbar = s.cbar := rfl
@[simp] theorem memDrop_tmap : (memDrop s l h).tmap = s.tmap := rfl
@[simp] theorem memDrop_snap : (memDrop s l h).snap = s.snap := rfl
@[simp] theorem memDrop_net : (memDrop s l h).net = s.net := rfl
@[simp] theorem memDrop_ctl : (memDrop s l h).ctl = s.ctl := rfl
@[simp] theorem memDrop_bins : (memDrop s l h).bins = s.bins := rfl
@[simp] theorem memDrop_keys : (memDrop s l h).keys = s.keys := rfl
@[simp] theorem memDrop_genTab : (memDrop s l h).genTab = s.genTab := rfl
@[simp] theorem memDrop_farTab : (memDrop s l h).farTab = s.farTab := rfl
@[simp] theorem memDrop_regions : (memDrop s l h).regions = s.regions := rfl
@[simp] theorem memDrop_saves : (memDrop s l h).saves = s.saves := rfl
@[simp] theorem memDrop_ports : (memDrop s l h).ports = s.ports := rfl
@[simp] theorem memDrop_out : (memDrop s l h).out = s.out := rfl
@[simp] theorem memDrop_ticket : (memDrop s l h).ticket = s.ticket := rfl
@[simp] theorem memDrop_dma : (memDrop s l h).dma = s.dma := rfl
@[simp] theorem memDrop_msi : (memDrop s l h).msi = s.msi := rfl
@[simp] theorem memDrop_answers : (memDrop s l h).answers = s.answers := rfl
@[simp] theorem memDrop_hubCtr : (memDrop s l h).hubCtr = s.hubCtr := rfl
@[simp] theorem memDrop_feat : (memDrop s l h).feat = s.feat := rfl
@[simp] theorem memDrop_jobs : (memDrop s l h).jobs = s.jobs := rfl
@[simp] theorem memDrop_lastJob : (memDrop s l h).lastJob = s.lastJob := rfl
@[simp] theorem memDrop_adopted : (memDrop s l h).adopted = s.adopted := rfl
@[simp] theorem memDrop_lcq : (memDrop s l h).lcq = s.lcq := rfl
@[simp] theorem memDrop_beq : (memDrop s l h).beq = s.beq := rfl
@[simp] theorem memDrop_comp : (memDrop s l h).comp = s.comp := rfl
@[simp] theorem memDrop_sw : (memDrop s l h).sw = s.sw := rfl
@[simp] theorem memDrop_heldIn : (memDrop s l h).heldIn = s.heldIn := rfl
@[simp] theorem memDrop_paused : (memDrop s l h).paused = s.paused := rfl
@[simp] theorem memDrop_load : (memDrop s l h).load = s.load := rfl
@[simp] theorem memDrop_images : (memDrop s l h).images = s.images := rfl
@[simp] theorem memDrop_launches : (memDrop s l h).launches = s.launches := rfl
@[simp] theorem memDrop_replays : (memDrop s l h).replays = s.replays := rfl
@[simp] theorem memDrop_colls : (memDrop s l h).colls = s.colls := rfl
@[simp] theorem memDrop_power : (memDrop s l h).power = s.power := rfl
@[simp] theorem memDrop_casc : (memDrop s l h).casc = s.casc := rfl
@[simp] theorem memDrop_errs : (memDrop s l h).errs = s.errs := rfl
@[simp] theorem memDrop_retired : (memDrop s l h).retired = s.retired := rfl
@[simp] theorem memDrop_retiredPc : (memDrop s l h).retiredPc = s.retiredPc := rfl
@[simp] theorem memDrop_retiredStack : (memDrop s l h).retiredStack = s.retiredStack := rfl
@[simp] theorem memDrop_retiredPkg : (memDrop s l h).retiredPkg = s.retiredPkg := rfl
@[simp] theorem memDrop_degraded : (memDrop s l h).degraded = s.degraded := rfl
@[simp] theorem memDrop_links : (memDrop s l h).links = s.links := rfl
@[simp] theorem memDrop_subst : (memDrop s l h).subst = s.subst := rfl
@[simp] theorem memDrop_reserve : (memDrop s l h).reserve = s.reserve := rfl
@[simp] theorem memDrop_flashRecs : (memDrop s l h).flashRecs = s.flashRecs := rfl
@[simp] theorem memDrop_flashCounts : (memDrop s l h).flashCounts = s.flashCounts := rfl
@[simp] theorem memDrop_resets : (memDrop s l h).resets = s.resets := rfl
@[simp] theorem memDrop_module : (memDrop s l h).module = s.module := rfl
@[simp] theorem memDrop_s2 : (memDrop s l h).s2 = s.s2 := rfl
@[simp] theorem memDrop_s3 : (memDrop s l h).s3 = s.s3 := rfl
@[simp] theorem memDrop_lvA1 : (memDrop s l h).lvA1 = s.lvA1 := rfl
@[simp] theorem memDrop_sec : (memDrop s l h).sec = s.sec := rfl
@[simp] theorem memDrop_assay : (memDrop s l h).assay = s.assay := rfl
@[simp] theorem memDrop_notices : (memDrop s l h).notices = s.notices := rfl
@[simp] theorem memDrop_alert : (memDrop s l h).alert = s.alert := rfl
@[simp] theorem memDrop_jtag : (memDrop s l h).jtag = s.jtag := rfl
@[simp] theorem memDrop_clock : (memDrop s l h).clock = s.clock := rfl
@[simp] theorem memDrop_fresh : (memDrop s l h).fresh = s.fresh := rfl
@[simp] theorem memDrop_rng : (memDrop s l h).rng = s.rng := rfl
@[simp] theorem memDrop_pending : (memDrop s l h).pending = s.pending := rfl
end

section
variable (s : State)
@[simp] theorem memCanon_tiles : (memCanon s).tiles = s.tiles := rfl
@[simp] theorem memCanon_levels : (memCanon s).levels = s.levels := rfl
@[simp] theorem memCanon_cbar : (memCanon s).cbar = s.cbar := rfl
@[simp] theorem memCanon_tmap : (memCanon s).tmap = s.tmap := rfl
@[simp] theorem memCanon_snap : (memCanon s).snap = s.snap := rfl
@[simp] theorem memCanon_net : (memCanon s).net = s.net := rfl
@[simp] theorem memCanon_ctl : (memCanon s).ctl = s.ctl := rfl
@[simp] theorem memCanon_bins : (memCanon s).bins = s.bins := rfl
@[simp] theorem memCanon_keys : (memCanon s).keys = s.keys := rfl
@[simp] theorem memCanon_genTab : (memCanon s).genTab = s.genTab := rfl
@[simp] theorem memCanon_farTab : (memCanon s).farTab = s.farTab := rfl
@[simp] theorem memCanon_regions : (memCanon s).regions = s.regions := rfl
@[simp] theorem memCanon_saves : (memCanon s).saves = s.saves := rfl
@[simp] theorem memCanon_ports : (memCanon s).ports = s.ports := rfl
@[simp] theorem memCanon_out : (memCanon s).out = s.out := rfl
@[simp] theorem memCanon_ticket : (memCanon s).ticket = s.ticket := rfl
@[simp] theorem memCanon_dma : (memCanon s).dma = s.dma := rfl
@[simp] theorem memCanon_msi : (memCanon s).msi = s.msi := rfl
@[simp] theorem memCanon_answers : (memCanon s).answers = s.answers := rfl
@[simp] theorem memCanon_hubCtr : (memCanon s).hubCtr = s.hubCtr := rfl
@[simp] theorem memCanon_feat : (memCanon s).feat = s.feat := rfl
@[simp] theorem memCanon_jobs : (memCanon s).jobs = s.jobs := rfl
@[simp] theorem memCanon_lastJob : (memCanon s).lastJob = s.lastJob := rfl
@[simp] theorem memCanon_adopted : (memCanon s).adopted = s.adopted := rfl
@[simp] theorem memCanon_lcq : (memCanon s).lcq = s.lcq := rfl
@[simp] theorem memCanon_beq : (memCanon s).beq = s.beq := rfl
@[simp] theorem memCanon_comp : (memCanon s).comp = s.comp := rfl
@[simp] theorem memCanon_sw : (memCanon s).sw = s.sw := rfl
@[simp] theorem memCanon_heldIn : (memCanon s).heldIn = s.heldIn := rfl
@[simp] theorem memCanon_paused : (memCanon s).paused = s.paused := rfl
@[simp] theorem memCanon_load : (memCanon s).load = s.load := rfl
@[simp] theorem memCanon_images : (memCanon s).images = s.images := rfl
@[simp] theorem memCanon_launches : (memCanon s).launches = s.launches := rfl
@[simp] theorem memCanon_replays : (memCanon s).replays = s.replays := rfl
@[simp] theorem memCanon_colls : (memCanon s).colls = s.colls := rfl
@[simp] theorem memCanon_power : (memCanon s).power = s.power := rfl
@[simp] theorem memCanon_casc : (memCanon s).casc = s.casc := rfl
@[simp] theorem memCanon_errs : (memCanon s).errs = s.errs := rfl
@[simp] theorem memCanon_retired : (memCanon s).retired = s.retired := rfl
@[simp] theorem memCanon_retiredPc : (memCanon s).retiredPc = s.retiredPc := rfl
@[simp] theorem memCanon_retiredStack : (memCanon s).retiredStack = s.retiredStack := rfl
@[simp] theorem memCanon_retiredPkg : (memCanon s).retiredPkg = s.retiredPkg := rfl
@[simp] theorem memCanon_degraded : (memCanon s).degraded = s.degraded := rfl
@[simp] theorem memCanon_links : (memCanon s).links = s.links := rfl
@[simp] theorem memCanon_subst : (memCanon s).subst = s.subst := rfl
@[simp] theorem memCanon_reserve : (memCanon s).reserve = s.reserve := rfl
@[simp] theorem memCanon_flashRecs : (memCanon s).flashRecs = s.flashRecs := rfl
@[simp] theorem memCanon_flashCounts : (memCanon s).flashCounts = s.flashCounts := rfl
@[simp] theorem memCanon_resets : (memCanon s).resets = s.resets := rfl
@[simp] theorem memCanon_module : (memCanon s).module = s.module := rfl
@[simp] theorem memCanon_s2 : (memCanon s).s2 = s.s2 := rfl
@[simp] theorem memCanon_s3 : (memCanon s).s3 = s.s3 := rfl
@[simp] theorem memCanon_lvA1 : (memCanon s).lvA1 = s.lvA1 := rfl
@[simp] theorem memCanon_sec : (memCanon s).sec = s.sec := rfl
@[simp] theorem memCanon_assay : (memCanon s).assay = s.assay := rfl
@[simp] theorem memCanon_notices : (memCanon s).notices = s.notices := rfl
@[simp] theorem memCanon_alert : (memCanon s).alert = s.alert := rfl
@[simp] theorem memCanon_jtag : (memCanon s).jtag = s.jtag := rfl
@[simp] theorem memCanon_clock : (memCanon s).clock = s.clock := rfl
@[simp] theorem memCanon_fresh : (memCanon s).fresh = s.fresh := rfl
@[simp] theorem memCanon_rng : (memCanon s).rng = s.rng := rfl
@[simp] theorem memCanon_pending : (memCanon s).pending = s.pending := rfl
end

section
variable (s : State) (c : Ctl)
@[simp] theorem pushCtl_tiles : (pushCtl s c).tiles = s.tiles := rfl
@[simp] theorem pushCtl_levels : (pushCtl s c).levels = s.levels := rfl
@[simp] theorem pushCtl_cbar : (pushCtl s c).cbar = s.cbar := rfl
@[simp] theorem pushCtl_tmap : (pushCtl s c).tmap = s.tmap := rfl
@[simp] theorem pushCtl_snap : (pushCtl s c).snap = s.snap := rfl
@[simp] theorem pushCtl_net : (pushCtl s c).net = s.net := rfl
@[simp] theorem pushCtl_mem : (pushCtl s c).mem = s.mem := rfl
@[simp] theorem pushCtl_regions : (pushCtl s c).regions = s.regions := rfl
@[simp] theorem pushCtl_saves : (pushCtl s c).saves = s.saves := rfl
@[simp] theorem pushCtl_ports : (pushCtl s c).ports = s.ports := rfl
@[simp] theorem pushCtl_out : (pushCtl s c).out = s.out := rfl
@[simp] theorem pushCtl_ticket : (pushCtl s c).ticket = s.ticket := rfl
@[simp] theorem pushCtl_dma : (pushCtl s c).dma = s.dma := rfl
@[simp] theorem pushCtl_msi : (pushCtl s c).msi = s.msi := rfl
@[simp] theorem pushCtl_answers : (pushCtl s c).answers = s.answers := rfl
@[simp] theorem pushCtl_hubCtr : (pushCtl s c).hubCtr = s.hubCtr := rfl
@[simp] theorem pushCtl_feat : (pushCtl s c).feat = s.feat := rfl
@[simp] theorem pushCtl_jobs : (pushCtl s c).jobs = s.jobs := rfl
@[simp] theorem pushCtl_lastJob : (pushCtl s c).lastJob = s.lastJob := rfl
@[simp] theorem pushCtl_adopted : (pushCtl s c).adopted = s.adopted := rfl
@[simp] theorem pushCtl_lcq : (pushCtl s c).lcq = s.lcq := rfl
@[simp] theorem pushCtl_beq : (pushCtl s c).beq = s.beq := rfl
@[simp] theorem pushCtl_comp : (pushCtl s c).comp = s.comp := rfl
@[simp] theorem pushCtl_sw : (pushCtl s c).sw = s.sw := rfl
@[simp] theorem pushCtl_heldIn : (pushCtl s c).heldIn = s.heldIn := rfl
@[simp] theorem pushCtl_paused : (pushCtl s c).paused = s.paused := rfl
@[simp] theorem pushCtl_load : (pushCtl s c).load = s.load := rfl
@[simp] theorem pushCtl_images : (pushCtl s c).images = s.images := rfl
@[simp] theorem pushCtl_launches : (pushCtl s c).launches = s.launches := rfl
@[simp] theorem pushCtl_replays : (pushCtl s c).replays = s.replays := rfl
@[simp] theorem pushCtl_colls : (pushCtl s c).colls = s.colls := rfl
@[simp] theorem pushCtl_power : (pushCtl s c).power = s.power := rfl
@[simp] theorem pushCtl_casc : (pushCtl s c).casc = s.casc := rfl
@[simp] theorem pushCtl_errs : (pushCtl s c).errs = s.errs := rfl
@[simp] theorem pushCtl_retired : (pushCtl s c).retired = s.retired := rfl
@[simp] theorem pushCtl_retiredPc : (pushCtl s c).retiredPc = s.retiredPc := rfl
@[simp] theorem pushCtl_retiredStack : (pushCtl s c).retiredStack = s.retiredStack := rfl
@[simp] theorem pushCtl_retiredPkg : (pushCtl s c).retiredPkg = s.retiredPkg := rfl
@[simp] theorem pushCtl_degraded : (pushCtl s c).degraded = s.degraded := rfl
@[simp] theorem pushCtl_links : (pushCtl s c).links = s.links := rfl
@[simp] theorem pushCtl_subst : (pushCtl s c).subst = s.subst := rfl
@[simp] theorem pushCtl_reserve : (pushCtl s c).reserve = s.reserve := rfl
@[simp] theorem pushCtl_flashRecs : (pushCtl s c).flashRecs = s.flashRecs := rfl
@[simp] theorem pushCtl_flashCounts : (pushCtl s c).flashCounts = s.flashCounts := rfl
@[simp] theorem pushCtl_resets : (pushCtl s c).resets = s.resets := rfl
@[simp] theorem pushCtl_module : (pushCtl s c).module = s.module := rfl
@[simp] theorem pushCtl_s2 : (pushCtl s c).s2 = s.s2 := rfl
@[simp] theorem pushCtl_s3 : (pushCtl s c).s3 = s.s3 := rfl
@[simp] theorem pushCtl_lvA1 : (pushCtl s c).lvA1 = s.lvA1 := rfl
@[simp] theorem pushCtl_sec : (pushCtl s c).sec = s.sec := rfl
@[simp] theorem pushCtl_assay : (pushCtl s c).assay = s.assay := rfl
@[simp] theorem pushCtl_notices : (pushCtl s c).notices = s.notices := rfl
@[simp] theorem pushCtl_alert : (pushCtl s c).alert = s.alert := rfl
@[simp] theorem pushCtl_jtag : (pushCtl s c).jtag = s.jtag := rfl
@[simp] theorem pushCtl_clock : (pushCtl s c).clock = s.clock := rfl
@[simp] theorem pushCtl_fresh : (pushCtl s c).fresh = s.fresh := rfl
@[simp] theorem pushCtl_rng : (pushCtl s c).rng = s.rng := rfl
@[simp] theorem pushCtl_pending : (pushCtl s c).pending = s.pending := rfl
end

section
variable (s : State) (p : Nat) (f : Port → Port)
@[simp] theorem modPort_tiles : (modPort s p f).tiles = s.tiles := rfl
@[simp] theorem modPort_levels : (modPort s p f).levels = s.levels := rfl
@[simp] theorem modPort_cbar : (modPort s p f).cbar = s.cbar := rfl
@[simp] theorem modPort_tmap : (modPort s p f).tmap = s.tmap := rfl
@[simp] theorem modPort_snap : (modPort s p f).snap = s.snap := rfl
@[simp] theorem modPort_net : (modPort s p f).net = s.net := rfl
@[simp] theorem modPort_ctl : (modPort s p f).ctl = s.ctl := rfl
@[simp] theorem modPort_bins : (modPort s p f).bins = s.bins := rfl
@[simp] theorem modPort_keys : (modPort s p f).keys = s.keys := rfl
@[simp] theorem modPort_genTab : (modPort s p f).genTab = s.genTab := rfl
@[simp] theorem modPort_farTab : (modPort s p f).farTab = s.farTab := rfl
@[simp] theorem modPort_mem : (modPort s p f).mem = s.mem := rfl
@[simp] theorem modPort_regions : (modPort s p f).regions = s.regions := rfl
@[simp] theorem modPort_saves : (modPort s p f).saves = s.saves := rfl
@[simp] theorem modPort_out : (modPort s p f).out = s.out := rfl
@[simp] theorem modPort_ticket : (modPort s p f).ticket = s.ticket := rfl
@[simp] theorem modPort_dma : (modPort s p f).dma = s.dma := rfl
@[simp] theorem modPort_msi : (modPort s p f).msi = s.msi := rfl
@[simp] theorem modPort_answers : (modPort s p f).answers = s.answers := rfl
@[simp] theorem modPort_hubCtr : (modPort s p f).hubCtr = s.hubCtr := rfl
@[simp] theorem modPort_feat : (modPort s p f).feat = s.feat := rfl
@[simp] theorem modPort_jobs : (modPort s p f).jobs = s.jobs := rfl
@[simp] theorem modPort_lastJob : (modPort s p f).lastJob = s.lastJob := rfl
@[simp] theorem modPort_adopted : (modPort s p f).adopted = s.adopted := rfl
@[simp] theorem modPort_lcq : (modPort s p f).lcq = s.lcq := rfl
@[simp] theorem modPort_beq : (modPort s p f).beq = s.beq := rfl
@[simp] theorem modPort_comp : (modPort s p f).comp = s.comp := rfl
@[simp] theorem modPort_sw : (modPort s p f).sw = s.sw := rfl
@[simp] theorem modPort_heldIn : (modPort s p f).heldIn = s.heldIn := rfl
@[simp] theorem modPort_paused : (modPort s p f).paused = s.paused := rfl
@[simp] theorem modPort_load : (modPort s p f).load = s.load := rfl
@[simp] theorem modPort_images : (modPort s p f).images = s.images := rfl
@[simp] theorem modPort_launches : (modPort s p f).launches = s.launches := rfl
@[simp] theorem modPort_replays : (modPort s p f).replays = s.replays := rfl
@[simp] theorem modPort_colls : (modPort s p f).colls = s.colls := rfl
@[simp] theorem modPort_power : (modPort s p f).power = s.power := rfl
@[simp] theorem modPort_casc : (modPort s p f).casc = s.casc := rfl
@[simp] theorem modPort_errs : (modPort s p f).errs = s.errs := rfl
@[simp] theorem modPort_retired : (modPort s p f).retired = s.retired := rfl
@[simp] theorem modPort_retiredPc : (modPort s p f).retiredPc = s.retiredPc := rfl
@[simp] theorem modPort_retiredStack : (modPort s p f).retiredStack = s.retiredStack := rfl
@[simp] theorem modPort_retiredPkg : (modPort s p f).retiredPkg = s.retiredPkg := rfl
@[simp] theorem modPort_degraded : (modPort s p f).degraded = s.degraded := rfl
@[simp] theorem modPort_links : (modPort s p f).links = s.links := rfl
@[simp] theorem modPort_subst : (modPort s p f).subst = s.subst := rfl
@[simp] theorem modPort_reserve : (modPort s p f).reserve = s.reserve := rfl
@[simp] theorem modPort_flashRecs : (modPort s p f).flashRecs = s.flashRecs := rfl
@[simp] theorem modPort_flashCounts : (modPort s p f).flashCounts = s.flashCounts := rfl
@[simp] theorem modPort_resets : (modPort s p f).resets = s.resets := rfl
@[simp] theorem modPort_module : (modPort s p f).module = s.module := rfl
@[simp] theorem modPort_s2 : (modPort s p f).s2 = s.s2 := rfl
@[simp] theorem modPort_s3 : (modPort s p f).s3 = s.s3 := rfl
@[simp] theorem modPort_lvA1 : (modPort s p f).lvA1 = s.lvA1 := rfl
@[simp] theorem modPort_sec : (modPort s p f).sec = s.sec := rfl
@[simp] theorem modPort_assay : (modPort s p f).assay = s.assay := rfl
@[simp] theorem modPort_notices : (modPort s p f).notices = s.notices := rfl
@[simp] theorem modPort_alert : (modPort s p f).alert = s.alert := rfl
@[simp] theorem modPort_jtag : (modPort s p f).jtag = s.jtag := rfl
@[simp] theorem modPort_clock : (modPort s p f).clock = s.clock := rfl
@[simp] theorem modPort_fresh : (modPort s p f).fresh = s.fresh := rfl
@[simp] theorem modPort_rng : (modPort s p f).rng = s.rng := rfl
@[simp] theorem modPort_pending : (modPort s p f).pending = s.pending := rfl
end

section
variable (s : State) (p a : Nat) (b : List Byte)
@[simp] theorem hostWrite_tiles : (hostWrite s p a b).tiles = s.tiles := rfl
@[simp] theorem hostWrite_levels : (hostWrite s p a b).levels = s.levels := rfl
@[simp] theorem hostWrite_cbar : (hostWrite s p a b).cbar = s.cbar := rfl
@[simp] theorem hostWrite_tmap : (hostWrite s p a b).tmap = s.tmap := rfl
@[simp] theorem hostWrite_snap : (hostWrite s p a b).snap = s.snap := rfl
@[simp] theorem hostWrite_net : (hostWrite s p a b).net = s.net := rfl
@[simp] theorem hostWrite_ctl : (hostWrite s p a b).ctl = s.ctl := rfl
@[simp] theorem hostWrite_bins : (hostWrite s p a b).bins = s.bins := rfl
@[simp] theorem hostWrite_keys : (hostWrite s p a b).keys = s.keys := rfl
@[simp] theorem hostWrite_genTab : (hostWrite s p a b).genTab = s.genTab := rfl
@[simp] theorem hostWrite_farTab : (hostWrite s p a b).farTab = s.farTab := rfl
@[simp] theorem hostWrite_mem : (hostWrite s p a b).mem = s.mem := rfl
@[simp] theorem hostWrite_regions : (hostWrite s p a b).regions = s.regions := rfl
@[simp] theorem hostWrite_saves : (hostWrite s p a b).saves = s.saves := rfl
@[simp] theorem hostWrite_ports : (hostWrite s p a b).ports = s.ports := rfl
@[simp] theorem hostWrite_out : (hostWrite s p a b).out = s.out := rfl
@[simp] theorem hostWrite_ticket : (hostWrite s p a b).ticket = s.ticket := rfl
@[simp] theorem hostWrite_msi : (hostWrite s p a b).msi = s.msi := rfl
@[simp] theorem hostWrite_answers : (hostWrite s p a b).answers = s.answers := rfl
@[simp] theorem hostWrite_hubCtr : (hostWrite s p a b).hubCtr = s.hubCtr := rfl
@[simp] theorem hostWrite_feat : (hostWrite s p a b).feat = s.feat := rfl
@[simp] theorem hostWrite_jobs : (hostWrite s p a b).jobs = s.jobs := rfl
@[simp] theorem hostWrite_lastJob : (hostWrite s p a b).lastJob = s.lastJob := rfl
@[simp] theorem hostWrite_adopted : (hostWrite s p a b).adopted = s.adopted := rfl
@[simp] theorem hostWrite_lcq : (hostWrite s p a b).lcq = s.lcq := rfl
@[simp] theorem hostWrite_beq : (hostWrite s p a b).beq = s.beq := rfl
@[simp] theorem hostWrite_comp : (hostWrite s p a b).comp = s.comp := rfl
@[simp] theorem hostWrite_sw : (hostWrite s p a b).sw = s.sw := rfl
@[simp] theorem hostWrite_heldIn : (hostWrite s p a b).heldIn = s.heldIn := rfl
@[simp] theorem hostWrite_paused : (hostWrite s p a b).paused = s.paused := rfl
@[simp] theorem hostWrite_load : (hostWrite s p a b).load = s.load := rfl
@[simp] theorem hostWrite_images : (hostWrite s p a b).images = s.images := rfl
@[simp] theorem hostWrite_launches : (hostWrite s p a b).launches = s.launches := rfl
@[simp] theorem hostWrite_replays : (hostWrite s p a b).replays = s.replays := rfl
@[simp] theorem hostWrite_colls : (hostWrite s p a b).colls = s.colls := rfl
@[simp] theorem hostWrite_power : (hostWrite s p a b).power = s.power := rfl
@[simp] theorem hostWrite_casc : (hostWrite s p a b).casc = s.casc := rfl
@[simp] theorem hostWrite_errs : (hostWrite s p a b).errs = s.errs := rfl
@[simp] theorem hostWrite_retired : (hostWrite s p a b).retired = s.retired := rfl
@[simp] theorem hostWrite_retiredPc : (hostWrite s p a b).retiredPc = s.retiredPc := rfl
@[simp] theorem hostWrite_retiredStack : (hostWrite s p a b).retiredStack = s.retiredStack := rfl
@[simp] theorem hostWrite_retiredPkg : (hostWrite s p a b).retiredPkg = s.retiredPkg := rfl
@[simp] theorem hostWrite_degraded : (hostWrite s p a b).degraded = s.degraded := rfl
@[simp] theorem hostWrite_links : (hostWrite s p a b).links = s.links := rfl
@[simp] theorem hostWrite_subst : (hostWrite s p a b).subst = s.subst := rfl
@[simp] theorem hostWrite_reserve : (hostWrite s p a b).reserve = s.reserve := rfl
@[simp] theorem hostWrite_flashRecs : (hostWrite s p a b).flashRecs = s.flashRecs := rfl
@[simp] theorem hostWrite_flashCounts : (hostWrite s p a b).flashCounts = s.flashCounts := rfl
@[simp] theorem hostWrite_resets : (hostWrite s p a b).resets = s.resets := rfl
@[simp] theorem hostWrite_module : (hostWrite s p a b).module = s.module := rfl
@[simp] theorem hostWrite_s2 : (hostWrite s p a b).s2 = s.s2 := rfl
@[simp] theorem hostWrite_s3 : (hostWrite s p a b).s3 = s.s3 := rfl
@[simp] theorem hostWrite_lvA1 : (hostWrite s p a b).lvA1 = s.lvA1 := rfl
@[simp] theorem hostWrite_sec : (hostWrite s p a b).sec = s.sec := rfl
@[simp] theorem hostWrite_assay : (hostWrite s p a b).assay = s.assay := rfl
@[simp] theorem hostWrite_notices : (hostWrite s p a b).notices = s.notices := rfl
@[simp] theorem hostWrite_alert : (hostWrite s p a b).alert = s.alert := rfl
@[simp] theorem hostWrite_jtag : (hostWrite s p a b).jtag = s.jtag := rfl
@[simp] theorem hostWrite_clock : (hostWrite s p a b).clock = s.clock := rfl
@[simp] theorem hostWrite_fresh : (hostWrite s p a b).fresh = s.fresh := rfl
@[simp] theorem hostWrite_rng : (hostWrite s p a b).rng = s.rng := rfl
@[simp] theorem hostWrite_pending : (hostWrite s p a b).pending = s.pending := rfl
end

section
variable (s : State) (k : Nat)
@[simp] theorem dropPacket_tiles : (dropPacket s k).tiles = s.tiles := rfl
@[simp] theorem dropPacket_levels : (dropPacket s k).levels = s.levels := rfl
@[simp] theorem dropPacket_cbar : (dropPacket s k).cbar = s.cbar := rfl
@[simp] theorem dropPacket_tmap : (dropPacket s k).tmap = s.tmap := rfl
@[simp] theorem dropPacket_snap : (dropPacket s k).snap = s.snap := rfl
@[simp] theorem dropPacket_net : (dropPacket s k).net = s.net := rfl
@[simp] theorem dropPacket_ctl : (dropPacket s k).ctl = s.ctl := rfl
@[simp] theorem dropPacket_bins : (dropPacket s k).bins = s.bins := rfl
@[simp] theorem dropPacket_keys : (dropPacket s k).keys = s.keys := rfl
@[simp] theorem dropPacket_genTab : (dropPacket s k).genTab = s.genTab := rfl
@[simp] theorem dropPacket_farTab : (dropPacket s k).farTab = s.farTab := rfl
@[simp] theorem dropPacket_mem : (dropPacket s k).mem = s.mem := rfl
@[simp] theorem dropPacket_regions : (dropPacket s k).regions = s.regions := rfl
@[simp] theorem dropPacket_saves : (dropPacket s k).saves = s.saves := rfl
@[simp] theorem dropPacket_ports : (dropPacket s k).ports = s.ports := rfl
@[simp] theorem dropPacket_ticket : (dropPacket s k).ticket = s.ticket := rfl
@[simp] theorem dropPacket_dma : (dropPacket s k).dma = s.dma := rfl
@[simp] theorem dropPacket_msi : (dropPacket s k).msi = s.msi := rfl
@[simp] theorem dropPacket_answers : (dropPacket s k).answers = s.answers := rfl
@[simp] theorem dropPacket_hubCtr : (dropPacket s k).hubCtr = s.hubCtr := rfl
@[simp] theorem dropPacket_feat : (dropPacket s k).feat = s.feat := rfl
@[simp] theorem dropPacket_jobs : (dropPacket s k).jobs = s.jobs := rfl
@[simp] theorem dropPacket_lastJob : (dropPacket s k).lastJob = s.lastJob := rfl
@[simp] theorem dropPacket_adopted : (dropPacket s k).adopted = s.adopted := rfl
@[simp] theorem dropPacket_lcq : (dropPacket s k).lcq = s.lcq := rfl
@[simp] theorem dropPacket_beq : (dropPacket s k).beq = s.beq := rfl
@[simp] theorem dropPacket_comp : (dropPacket s k).comp = s.comp := rfl
@[simp] theorem dropPacket_sw : (dropPacket s k).sw = s.sw := rfl
@[simp] theorem dropPacket_heldIn : (dropPacket s k).heldIn = s.heldIn := rfl
@[simp] theorem dropPacket_paused : (dropPacket s k).paused = s.paused := rfl
@[simp] theorem dropPacket_load : (dropPacket s k).load = s.load := rfl
@[simp] theorem dropPacket_images : (dropPacket s k).images = s.images := rfl
@[simp] theorem dropPacket_launches : (dropPacket s k).launches = s.launches := rfl
@[simp] theorem dropPacket_replays : (dropPacket s k).replays = s.replays := rfl
@[simp] theorem dropPacket_colls : (dropPacket s k).colls = s.colls := rfl
@[simp] theorem dropPacket_power : (dropPacket s k).power = s.power := rfl
@[simp] theorem dropPacket_casc : (dropPacket s k).casc = s.casc := rfl
@[simp] theorem dropPacket_errs : (dropPacket s k).errs = s.errs := rfl
@[simp] theorem dropPacket_retired : (dropPacket s k).retired = s.retired := rfl
@[simp] theorem dropPacket_retiredPc : (dropPacket s k).retiredPc = s.retiredPc := rfl
@[simp] theorem dropPacket_retiredStack : (dropPacket s k).retiredStack = s.retiredStack := rfl
@[simp] theorem dropPacket_retiredPkg : (dropPacket s k).retiredPkg = s.retiredPkg := rfl
@[simp] theorem dropPacket_degraded : (dropPacket s k).degraded = s.degraded := rfl
@[simp] theorem dropPacket_links : (dropPacket s k).links = s.links := rfl
@[simp] theorem dropPacket_subst : (dropPacket s k).subst = s.subst := rfl
@[simp] theorem dropPacket_reserve : (dropPacket s k).reserve = s.reserve := rfl
@[simp] theorem dropPacket_flashRecs : (dropPacket s k).flashRecs = s.flashRecs := rfl
@[simp] theorem dropPacket_flashCounts : (dropPacket s k).flashCounts = s.flashCounts := rfl
@[simp] theorem dropPacket_resets : (dropPacket s k).resets = s.resets := rfl
@[simp] theorem dropPacket_module : (dropPacket s k).module = s.module := rfl
@[simp] theorem dropPacket_s2 : (dropPacket s k).s2 = s.s2 := rfl
@[simp] theorem dropPacket_s3 : (dropPacket s k).s3 = s.s3 := rfl
@[simp] theorem dropPacket_lvA1 : (dropPacket s k).lvA1 = s.lvA1 := rfl
@[simp] theorem dropPacket_sec : (dropPacket s k).sec = s.sec := rfl
@[simp] theorem dropPacket_assay : (dropPacket s k).assay = s.assay := rfl
@[simp] theorem dropPacket_notices : (dropPacket s k).notices = s.notices := rfl
@[simp] theorem dropPacket_alert : (dropPacket s k).alert = s.alert := rfl
@[simp] theorem dropPacket_jtag : (dropPacket s k).jtag = s.jtag := rfl
@[simp] theorem dropPacket_clock : (dropPacket s k).clock = s.clock := rfl
@[simp] theorem dropPacket_fresh : (dropPacket s k).fresh = s.fresh := rfl
@[simp] theorem dropPacket_rng : (dropPacket s k).rng = s.rng := rfl
@[simp] theorem dropPacket_pending : (dropPacket s k).pending = s.pending := rfl
end

section
variable (s : State) (k : Nat) (f : Packet → Packet)
@[simp] theorem modPacket_tiles : (modPacket s k f).tiles = s.tiles := rfl
@[simp] theorem modPacket_levels : (modPacket s k f).levels = s.levels := rfl
@[simp] theorem modPacket_cbar : (modPacket s k f).cbar = s.cbar := rfl
@[simp] theorem modPacket_tmap : (modPacket s k f).tmap = s.tmap := rfl
@[simp] theorem modPacket_snap : (modPacket s k f).snap = s.snap := rfl
@[simp] theorem modPacket_net : (modPacket s k f).net = s.net := rfl
@[simp] theorem modPacket_ctl : (modPacket s k f).ctl = s.ctl := rfl
@[simp] theorem modPacket_bins : (modPacket s k f).bins = s.bins := rfl
@[simp] theorem modPacket_keys : (modPacket s k f).keys = s.keys := rfl
@[simp] theorem modPacket_genTab : (modPacket s k f).genTab = s.genTab := rfl
@[simp] theorem modPacket_farTab : (modPacket s k f).farTab = s.farTab := rfl
@[simp] theorem modPacket_mem : (modPacket s k f).mem = s.mem := rfl
@[simp] theorem modPacket_regions : (modPacket s k f).regions = s.regions := rfl
@[simp] theorem modPacket_saves : (modPacket s k f).saves = s.saves := rfl
@[simp] theorem modPacket_ports : (modPacket s k f).ports = s.ports := rfl
@[simp] theorem modPacket_ticket : (modPacket s k f).ticket = s.ticket := rfl
@[simp] theorem modPacket_dma : (modPacket s k f).dma = s.dma := rfl
@[simp] theorem modPacket_msi : (modPacket s k f).msi = s.msi := rfl
@[simp] theorem modPacket_answers : (modPacket s k f).answers = s.answers := rfl
@[simp] theorem modPacket_hubCtr : (modPacket s k f).hubCtr = s.hubCtr := rfl
@[simp] theorem modPacket_feat : (modPacket s k f).feat = s.feat := rfl
@[simp] theorem modPacket_jobs : (modPacket s k f).jobs = s.jobs := rfl
@[simp] theorem modPacket_lastJob : (modPacket s k f).lastJob = s.lastJob := rfl
@[simp] theorem modPacket_adopted : (modPacket s k f).adopted = s.adopted := rfl
@[simp] theorem modPacket_lcq : (modPacket s k f).lcq = s.lcq := rfl
@[simp] theorem modPacket_beq : (modPacket s k f).beq = s.beq := rfl
@[simp] theorem modPacket_comp : (modPacket s k f).comp = s.comp := rfl
@[simp] theorem modPacket_sw : (modPacket s k f).sw = s.sw := rfl
@[simp] theorem modPacket_heldIn : (modPacket s k f).heldIn = s.heldIn := rfl
@[simp] theorem modPacket_paused : (modPacket s k f).paused = s.paused := rfl
@[simp] theorem modPacket_load : (modPacket s k f).load = s.load := rfl
@[simp] theorem modPacket_images : (modPacket s k f).images = s.images := rfl
@[simp] theorem modPacket_launches : (modPacket s k f).launches = s.launches := rfl
@[simp] theorem modPacket_replays : (modPacket s k f).replays = s.replays := rfl
@[simp] theorem modPacket_colls : (modPacket s k f).colls = s.colls := rfl
@[simp] theorem modPacket_power : (modPacket s k f).power = s.power := rfl
@[simp] theorem modPacket_casc : (modPacket s k f).casc = s.casc := rfl
@[simp] theorem modPacket_errs : (modPacket s k f).errs = s.errs := rfl
@[simp] theorem modPacket_retired : (modPacket s k f).retired = s.retired := rfl
@[simp] theorem modPacket_retiredPc : (modPacket s k f).retiredPc = s.retiredPc := rfl
@[simp] theorem modPacket_retiredStack : (modPacket s k f).retiredStack = s.retiredStack := rfl
@[simp] theorem modPacket_retiredPkg : (modPacket s k f).retiredPkg = s.retiredPkg := rfl
@[simp] theorem modPacket_degraded : (modPacket s k f).degraded = s.degraded := rfl
@[simp] theorem modPacket_links : (modPacket s k f).links = s.links := rfl
@[simp] theorem modPacket_subst : (modPacket s k f).subst = s.subst := rfl
@[simp] theorem modPacket_reserve : (modPacket s k f).reserve = s.reserve := rfl
@[simp] theorem modPacket_flashRecs : (modPacket s k f).flashRecs = s.flashRecs := rfl
@[simp] theorem modPacket_flashCounts : (modPacket s k f).flashCounts = s.flashCounts := rfl
@[simp] theorem modPacket_resets : (modPacket s k f).resets = s.resets := rfl
@[simp] theorem modPacket_module : (modPacket s k f).module = s.module := rfl
@[simp] theorem modPacket_s2 : (modPacket s k f).s2 = s.s2 := rfl
@[simp] theorem modPacket_s3 : (modPacket s k f).s3 = s.s3 := rfl
@[simp] theorem modPacket_lvA1 : (modPacket s k f).lvA1 = s.lvA1 := rfl
@[simp] theorem modPacket_sec : (modPacket s k f).sec = s.sec := rfl
@[simp] theorem modPacket_assay : (modPacket s k f).assay = s.assay := rfl
@[simp] theorem modPacket_notices : (modPacket s k f).notices = s.notices := rfl
@[simp] theorem modPacket_alert : (modPacket s k f).alert = s.alert := rfl
@[simp] theorem modPacket_jtag : (modPacket s k f).jtag = s.jtag := rfl
@[simp] theorem modPacket_clock : (modPacket s k f).clock = s.clock := rfl
@[simp] theorem modPacket_fresh : (modPacket s k f).fresh = s.fresh := rfl
@[simp] theorem modPacket_rng : (modPacket s k f).rng = s.rng := rfl
@[simp] theorem modPacket_pending : (modPacket s k f).pending = s.pending := rfl
end

section
variable (s : State) (n : Notice)
@[simp] theorem notify_tiles : (notify s n).tiles = s.tiles := rfl
@[simp] theorem notify_levels : (notify s n).levels = s.levels := rfl
@[simp] theorem notify_cbar : (notify s n).cbar = s.cbar := rfl
@[simp] theorem notify_tmap : (notify s n).tmap = s.tmap := rfl
@[simp] theorem notify_snap : (notify s n).snap = s.snap := rfl
@[simp] theorem notify_net : (notify s n).net = s.net := rfl
@[simp] theorem notify_ctl : (notify s n).ctl = s.ctl := rfl
@[simp] theorem notify_bins : (notify s n).bins = s.bins := rfl
@[simp] theorem notify_keys : (notify s n).keys = s.keys := rfl
@[simp] theorem notify_genTab : (notify s n).genTab = s.genTab := rfl
@[simp] theorem notify_farTab : (notify s n).farTab = s.farTab := rfl
@[simp] theorem notify_mem : (notify s n).mem = s.mem := rfl
@[simp] theorem notify_regions : (notify s n).regions = s.regions := rfl
@[simp] theorem notify_saves : (notify s n).saves = s.saves := rfl
@[simp] theorem notify_ports : (notify s n).ports = s.ports := rfl
@[simp] theorem notify_out : (notify s n).out = s.out := rfl
@[simp] theorem notify_ticket : (notify s n).ticket = s.ticket := rfl
@[simp] theorem notify_dma : (notify s n).dma = s.dma := rfl
@[simp] theorem notify_msi : (notify s n).msi = s.msi := rfl
@[simp] theorem notify_answers : (notify s n).answers = s.answers := rfl
@[simp] theorem notify_hubCtr : (notify s n).hubCtr = s.hubCtr := rfl
@[simp] theorem notify_feat : (notify s n).feat = s.feat := rfl
@[simp] theorem notify_jobs : (notify s n).jobs = s.jobs := rfl
@[simp] theorem notify_lastJob : (notify s n).lastJob = s.lastJob := rfl
@[simp] theorem notify_adopted : (notify s n).adopted = s.adopted := rfl
@[simp] theorem notify_lcq : (notify s n).lcq = s.lcq := rfl
@[simp] theorem notify_beq : (notify s n).beq = s.beq := rfl
@[simp] theorem notify_comp : (notify s n).comp = s.comp := rfl
@[simp] theorem notify_sw : (notify s n).sw = s.sw := rfl
@[simp] theorem notify_heldIn : (notify s n).heldIn = s.heldIn := rfl
@[simp] theorem notify_paused : (notify s n).paused = s.paused := rfl
@[simp] theorem notify_load : (notify s n).load = s.load := rfl
@[simp] theorem notify_images : (notify s n).images = s.images := rfl
@[simp] theorem notify_launches : (notify s n).launches = s.launches := rfl
@[simp] theorem notify_replays : (notify s n).replays = s.replays := rfl
@[simp] theorem notify_colls : (notify s n).colls = s.colls := rfl
@[simp] theorem notify_power : (notify s n).power = s.power := rfl
@[simp] theorem notify_casc : (notify s n).casc = s.casc := rfl
@[simp] theorem notify_errs : (notify s n).errs = s.errs := rfl
@[simp] theorem notify_retired : (notify s n).retired = s.retired := rfl
@[simp] theorem notify_retiredPc : (notify s n).retiredPc = s.retiredPc := rfl
@[simp] theorem notify_retiredStack : (notify s n).retiredStack = s.retiredStack := rfl
@[simp] theorem notify_retiredPkg : (notify s n).retiredPkg = s.retiredPkg := rfl
@[simp] theorem notify_degraded : (notify s n).degraded = s.degraded := rfl
@[simp] theorem notify_links : (notify s n).links = s.links := rfl
@[simp] theorem notify_subst : (notify s n).subst = s.subst := rfl
@[simp] theorem notify_reserve : (notify s n).reserve = s.reserve := rfl
@[simp] theorem notify_flashRecs : (notify s n).flashRecs = s.flashRecs := rfl
@[simp] theorem notify_flashCounts : (notify s n).flashCounts = s.flashCounts := rfl
@[simp] theorem notify_resets : (notify s n).resets = s.resets := rfl
@[simp] theorem notify_module : (notify s n).module = s.module := rfl
@[simp] theorem notify_s2 : (notify s n).s2 = s.s2 := rfl
@[simp] theorem notify_s3 : (notify s n).s3 = s.s3 := rfl
@[simp] theorem notify_lvA1 : (notify s n).lvA1 = s.lvA1 := rfl
@[simp] theorem notify_sec : (notify s n).sec = s.sec := rfl
@[simp] theorem notify_assay : (notify s n).assay = s.assay := rfl
@[simp] theorem notify_alert : (notify s n).alert = s.alert := rfl
@[simp] theorem notify_jtag : (notify s n).jtag = s.jtag := rfl
@[simp] theorem notify_clock : (notify s n).clock = s.clock := rfl
@[simp] theorem notify_fresh : (notify s n).fresh = s.fresh := rfl
@[simp] theorem notify_rng : (notify s n).rng = s.rng := rfl
@[simp] theorem notify_pending : (notify s n).pending = s.pending := rfl
end

section
variable (s : State)
@[simp] theorem bumpFresh_tiles : (bumpFresh s).tiles = s.tiles := rfl
@[simp] theorem bumpFresh_levels : (bumpFresh s).levels = s.levels := rfl
@[simp] theorem bumpFresh_cbar : (bumpFresh s).cbar = s.cbar := rfl
@[simp] theorem bumpFresh_tmap : (bumpFresh s).tmap = s.tmap := rfl
@[simp] theorem bumpFresh_snap : (bumpFresh s).snap = s.snap := rfl
@[simp] theorem bumpFresh_net : (bumpFresh s).net = s.net := rfl
@[simp] theorem bumpFresh_ctl : (bumpFresh s).ctl = s.ctl := rfl
@[simp] theorem bumpFresh_bins : (bumpFresh s).bins = s.bins := rfl
@[simp] theorem bumpFresh_keys : (bumpFresh s).keys = s.keys := rfl
@[simp] theorem bumpFresh_genTab : (bumpFresh s).genTab = s.genTab := rfl
@[simp] theorem bumpFresh_farTab : (bumpFresh s).farTab = s.farTab := rfl
@[simp] theorem bumpFresh_mem : (bumpFresh s).mem = s.mem := rfl
@[simp] theorem bumpFresh_regions : (bumpFresh s).regions = s.regions := rfl
@[simp] theorem bumpFresh_saves : (bumpFresh s).saves = s.saves := rfl
@[simp] theorem bumpFresh_ports : (bumpFresh s).ports = s.ports := rfl
@[simp] theorem bumpFresh_out : (bumpFresh s).out = s.out := rfl
@[simp] theorem bumpFresh_ticket : (bumpFresh s).ticket = s.ticket := rfl
@[simp] theorem bumpFresh_dma : (bumpFresh s).dma = s.dma := rfl
@[simp] theorem bumpFresh_msi : (bumpFresh s).msi = s.msi := rfl
@[simp] theorem bumpFresh_answers : (bumpFresh s).answers = s.answers := rfl
@[simp] theorem bumpFresh_hubCtr : (bumpFresh s).hubCtr = s.hubCtr := rfl
@[simp] theorem bumpFresh_feat : (bumpFresh s).feat = s.feat := rfl
@[simp] theorem bumpFresh_jobs : (bumpFresh s).jobs = s.jobs := rfl
@[simp] theorem bumpFresh_lastJob : (bumpFresh s).lastJob = s.lastJob := rfl
@[simp] theorem bumpFresh_adopted : (bumpFresh s).adopted = s.adopted := rfl
@[simp] theorem bumpFresh_lcq : (bumpFresh s).lcq = s.lcq := rfl
@[simp] theorem bumpFresh_beq : (bumpFresh s).beq = s.beq := rfl
@[simp] theorem bumpFresh_comp : (bumpFresh s).comp = s.comp := rfl
@[simp] theorem bumpFresh_sw : (bumpFresh s).sw = s.sw := rfl
@[simp] theorem bumpFresh_heldIn : (bumpFresh s).heldIn = s.heldIn := rfl
@[simp] theorem bumpFresh_paused : (bumpFresh s).paused = s.paused := rfl
@[simp] theorem bumpFresh_load : (bumpFresh s).load = s.load := rfl
@[simp] theorem bumpFresh_images : (bumpFresh s).images = s.images := rfl
@[simp] theorem bumpFresh_launches : (bumpFresh s).launches = s.launches := rfl
@[simp] theorem bumpFresh_replays : (bumpFresh s).replays = s.replays := rfl
@[simp] theorem bumpFresh_colls : (bumpFresh s).colls = s.colls := rfl
@[simp] theorem bumpFresh_power : (bumpFresh s).power = s.power := rfl
@[simp] theorem bumpFresh_casc : (bumpFresh s).casc = s.casc := rfl
@[simp] theorem bumpFresh_errs : (bumpFresh s).errs = s.errs := rfl
@[simp] theorem bumpFresh_retired : (bumpFresh s).retired = s.retired := rfl
@[simp] theorem bumpFresh_retiredPc : (bumpFresh s).retiredPc = s.retiredPc := rfl
@[simp] theorem bumpFresh_retiredStack : (bumpFresh s).retiredStack = s.retiredStack := rfl
@[simp] theorem bumpFresh_retiredPkg : (bumpFresh s).retiredPkg = s.retiredPkg := rfl
@[simp] theorem bumpFresh_degraded : (bumpFresh s).degraded = s.degraded := rfl
@[simp] theorem bumpFresh_links : (bumpFresh s).links = s.links := rfl
@[simp] theorem bumpFresh_subst : (bumpFresh s).subst = s.subst := rfl
@[simp] theorem bumpFresh_reserve : (bumpFresh s).reserve = s.reserve := rfl
@[simp] theorem bumpFresh_flashRecs : (bumpFresh s).flashRecs = s.flashRecs := rfl
@[simp] theorem bumpFresh_flashCounts : (bumpFresh s).flashCounts = s.flashCounts := rfl
@[simp] theorem bumpFresh_resets : (bumpFresh s).resets = s.resets := rfl
@[simp] theorem bumpFresh_module : (bumpFresh s).module = s.module := rfl
@[simp] theorem bumpFresh_s2 : (bumpFresh s).s2 = s.s2 := rfl
@[simp] theorem bumpFresh_s3 : (bumpFresh s).s3 = s.s3 := rfl
@[simp] theorem bumpFresh_lvA1 : (bumpFresh s).lvA1 = s.lvA1 := rfl
@[simp] theorem bumpFresh_sec : (bumpFresh s).sec = s.sec := rfl
@[simp] theorem bumpFresh_assay : (bumpFresh s).assay = s.assay := rfl
@[simp] theorem bumpFresh_notices : (bumpFresh s).notices = s.notices := rfl
@[simp] theorem bumpFresh_alert : (bumpFresh s).alert = s.alert := rfl
@[simp] theorem bumpFresh_jtag : (bumpFresh s).jtag = s.jtag := rfl
@[simp] theorem bumpFresh_clock : (bumpFresh s).clock = s.clock := rfl
@[simp] theorem bumpFresh_rng : (bumpFresh s).rng = s.rng := rfl
@[simp] theorem bumpFresh_pending : (bumpFresh s).pending = s.pending := rfl
end

section
variable (s : State) (n : Nat) (f : LevelUnits → LevelUnits)
@[simp] theorem modLevel_tiles : (modLevel s n f).tiles = s.tiles := rfl
@[simp] theorem modLevel_cbar : (modLevel s n f).cbar = s.cbar := rfl
@[simp] theorem modLevel_tmap : (modLevel s n f).tmap = s.tmap := rfl
@[simp] theorem modLevel_snap : (modLevel s n f).snap = s.snap := rfl
@[simp] theorem modLevel_net : (modLevel s n f).net = s.net := rfl
@[simp] theorem modLevel_ctl : (modLevel s n f).ctl = s.ctl := rfl
@[simp] theorem modLevel_bins : (modLevel s n f).bins = s.bins := rfl
@[simp] theorem modLevel_keys : (modLevel s n f).keys = s.keys := rfl
@[simp] theorem modLevel_genTab : (modLevel s n f).genTab = s.genTab := rfl
@[simp] theorem modLevel_farTab : (modLevel s n f).farTab = s.farTab := rfl
@[simp] theorem modLevel_mem : (modLevel s n f).mem = s.mem := rfl
@[simp] theorem modLevel_regions : (modLevel s n f).regions = s.regions := rfl
@[simp] theorem modLevel_saves : (modLevel s n f).saves = s.saves := rfl
@[simp] theorem modLevel_ports : (modLevel s n f).ports = s.ports := rfl
@[simp] theorem modLevel_out : (modLevel s n f).out = s.out := rfl
@[simp] theorem modLevel_ticket : (modLevel s n f).ticket = s.ticket := rfl
@[simp] theorem modLevel_dma : (modLevel s n f).dma = s.dma := rfl
@[simp] theorem modLevel_msi : (modLevel s n f).msi = s.msi := rfl
@[simp] theorem modLevel_answers : (modLevel s n f).answers = s.answers := rfl
@[simp] theorem modLevel_hubCtr : (modLevel s n f).hubCtr = s.hubCtr := rfl
@[simp] theorem modLevel_feat : (modLevel s n f).feat = s.feat := rfl
@[simp] theorem modLevel_jobs : (modLevel s n f).jobs = s.jobs := rfl
@[simp] theorem modLevel_lastJob : (modLevel s n f).lastJob = s.lastJob := rfl
@[simp] theorem modLevel_adopted : (modLevel s n f).adopted = s.adopted := rfl
@[simp] theorem modLevel_lcq : (modLevel s n f).lcq = s.lcq := rfl
@[simp] theorem modLevel_beq : (modLevel s n f).beq = s.beq := rfl
@[simp] theorem modLevel_comp : (modLevel s n f).comp = s.comp := rfl
@[simp] theorem modLevel_sw : (modLevel s n f).sw = s.sw := rfl
@[simp] theorem modLevel_heldIn : (modLevel s n f).heldIn = s.heldIn := rfl
@[simp] theorem modLevel_paused : (modLevel s n f).paused = s.paused := rfl
@[simp] theorem modLevel_load : (modLevel s n f).load = s.load := rfl
@[simp] theorem modLevel_images : (modLevel s n f).images = s.images := rfl
@[simp] theorem modLevel_launches : (modLevel s n f).launches = s.launches := rfl
@[simp] theorem modLevel_replays : (modLevel s n f).replays = s.replays := rfl
@[simp] theorem modLevel_colls : (modLevel s n f).colls = s.colls := rfl
@[simp] theorem modLevel_power : (modLevel s n f).power = s.power := rfl
@[simp] theorem modLevel_casc : (modLevel s n f).casc = s.casc := rfl
@[simp] theorem modLevel_errs : (modLevel s n f).errs = s.errs := rfl
@[simp] theorem modLevel_retired : (modLevel s n f).retired = s.retired := rfl
@[simp] theorem modLevel_retiredPc : (modLevel s n f).retiredPc = s.retiredPc := rfl
@[simp] theorem modLevel_retiredStack : (modLevel s n f).retiredStack = s.retiredStack := rfl
@[simp] theorem modLevel_retiredPkg : (modLevel s n f).retiredPkg = s.retiredPkg := rfl
@[simp] theorem modLevel_degraded : (modLevel s n f).degraded = s.degraded := rfl
@[simp] theorem modLevel_links : (modLevel s n f).links = s.links := rfl
@[simp] theorem modLevel_subst : (modLevel s n f).subst = s.subst := rfl
@[simp] theorem modLevel_reserve : (modLevel s n f).reserve = s.reserve := rfl
@[simp] theorem modLevel_flashRecs : (modLevel s n f).flashRecs = s.flashRecs := rfl
@[simp] theorem modLevel_flashCounts : (modLevel s n f).flashCounts = s.flashCounts := rfl
@[simp] theorem modLevel_resets : (modLevel s n f).resets = s.resets := rfl
@[simp] theorem modLevel_module : (modLevel s n f).module = s.module := rfl
@[simp] theorem modLevel_s2 : (modLevel s n f).s2 = s.s2 := rfl
@[simp] theorem modLevel_s3 : (modLevel s n f).s3 = s.s3 := rfl
@[simp] theorem modLevel_lvA1 : (modLevel s n f).lvA1 = s.lvA1 := rfl
@[simp] theorem modLevel_sec : (modLevel s n f).sec = s.sec := rfl
@[simp] theorem modLevel_assay : (modLevel s n f).assay = s.assay := rfl
@[simp] theorem modLevel_notices : (modLevel s n f).notices = s.notices := rfl
@[simp] theorem modLevel_alert : (modLevel s n f).alert = s.alert := rfl
@[simp] theorem modLevel_jtag : (modLevel s n f).jtag = s.jtag := rfl
@[simp] theorem modLevel_clock : (modLevel s n f).clock = s.clock := rfl
@[simp] theorem modLevel_fresh : (modLevel s n f).fresh = s.fresh := rfl
@[simp] theorem modLevel_rng : (modLevel s n f).rng = s.rng := rfl
@[simp] theorem modLevel_pending : (modLevel s n f).pending = s.pending := rfl
end

section
variable (s : State) (p : Nat) (f : JPort → JPort)
@[simp] theorem modJPort_tiles : (modJPort s p f).tiles = s.tiles := rfl
@[simp] theorem modJPort_levels : (modJPort s p f).levels = s.levels := rfl
@[simp] theorem modJPort_cbar : (modJPort s p f).cbar = s.cbar := rfl
@[simp] theorem modJPort_tmap : (modJPort s p f).tmap = s.tmap := rfl
@[simp] theorem modJPort_snap : (modJPort s p f).snap = s.snap := rfl
@[simp] theorem modJPort_net : (modJPort s p f).net = s.net := rfl
@[simp] theorem modJPort_ctl : (modJPort s p f).ctl = s.ctl := rfl
@[simp] theorem modJPort_bins : (modJPort s p f).bins = s.bins := rfl
@[simp] theorem modJPort_keys : (modJPort s p f).keys = s.keys := rfl
@[simp] theorem modJPort_genTab : (modJPort s p f).genTab = s.genTab := rfl
@[simp] theorem modJPort_farTab : (modJPort s p f).farTab = s.farTab := rfl
@[simp] theorem modJPort_mem : (modJPort s p f).mem = s.mem := rfl
@[simp] theorem modJPort_regions : (modJPort s p f).regions = s.regions := rfl
@[simp] theorem modJPort_saves : (modJPort s p f).saves = s.saves := rfl
@[simp] theorem modJPort_ports : (modJPort s p f).ports = s.ports := rfl
@[simp] theorem modJPort_out : (modJPort s p f).out = s.out := rfl
@[simp] theorem modJPort_ticket : (modJPort s p f).ticket = s.ticket := rfl
@[simp] theorem modJPort_dma : (modJPort s p f).dma = s.dma := rfl
@[simp] theorem modJPort_msi : (modJPort s p f).msi = s.msi := rfl
@[simp] theorem modJPort_answers : (modJPort s p f).answers = s.answers := rfl
@[simp] theorem modJPort_hubCtr : (modJPort s p f).hubCtr = s.hubCtr := rfl
@[simp] theorem modJPort_feat : (modJPort s p f).feat = s.feat := rfl
@[simp] theorem modJPort_jobs : (modJPort s p f).jobs = s.jobs := rfl
@[simp] theorem modJPort_lastJob : (modJPort s p f).lastJob = s.lastJob := rfl
@[simp] theorem modJPort_adopted : (modJPort s p f).adopted = s.adopted := rfl
@[simp] theorem modJPort_lcq : (modJPort s p f).lcq = s.lcq := rfl
@[simp] theorem modJPort_beq : (modJPort s p f).beq = s.beq := rfl
@[simp] theorem modJPort_comp : (modJPort s p f).comp = s.comp := rfl
@[simp] theorem modJPort_sw : (modJPort s p f).sw = s.sw := rfl
@[simp] theorem modJPort_heldIn : (modJPort s p f).heldIn = s.heldIn := rfl
@[simp] theorem modJPort_paused : (modJPort s p f).paused = s.paused := rfl
@[simp] theorem modJPort_load : (modJPort s p f).load = s.load := rfl
@[simp] theorem modJPort_images : (modJPort s p f).images = s.images := rfl
@[simp] theorem modJPort_launches : (modJPort s p f).launches = s.launches := rfl
@[simp] theorem modJPort_replays : (modJPort s p f).replays = s.replays := rfl
@[simp] theorem modJPort_colls : (modJPort s p f).colls = s.colls := rfl
@[simp] theorem modJPort_power : (modJPort s p f).power = s.power := rfl
@[simp] theorem modJPort_errs : (modJPort s p f).errs = s.errs := rfl
@[simp] theorem modJPort_retired : (modJPort s p f).retired = s.retired := rfl
@[simp] theorem modJPort_retiredPc : (modJPort s p f).retiredPc = s.retiredPc := rfl
@[simp] theorem modJPort_retiredStack : (modJPort s p f).retiredStack = s.retiredStack := rfl
@[simp] theorem modJPort_retiredPkg : (modJPort s p f).retiredPkg = s.retiredPkg := rfl
@[simp] theorem modJPort_degraded : (modJPort s p f).degraded = s.degraded := rfl
@[simp] theorem modJPort_links : (modJPort s p f).links = s.links := rfl
@[simp] theorem modJPort_subst : (modJPort s p f).subst = s.subst := rfl
@[simp] theorem modJPort_reserve : (modJPort s p f).reserve = s.reserve := rfl
@[simp] theorem modJPort_flashRecs : (modJPort s p f).flashRecs = s.flashRecs := rfl
@[simp] theorem modJPort_flashCounts : (modJPort s p f).flashCounts = s.flashCounts := rfl
@[simp] theorem modJPort_resets : (modJPort s p f).resets = s.resets := rfl
@[simp] theorem modJPort_module : (modJPort s p f).module = s.module := rfl
@[simp] theorem modJPort_s2 : (modJPort s p f).s2 = s.s2 := rfl
@[simp] theorem modJPort_s3 : (modJPort s p f).s3 = s.s3 := rfl
@[simp] theorem modJPort_lvA1 : (modJPort s p f).lvA1 = s.lvA1 := rfl
@[simp] theorem modJPort_sec : (modJPort s p f).sec = s.sec := rfl
@[simp] theorem modJPort_assay : (modJPort s p f).assay = s.assay := rfl
@[simp] theorem modJPort_notices : (modJPort s p f).notices = s.notices := rfl
@[simp] theorem modJPort_alert : (modJPort s p f).alert = s.alert := rfl
@[simp] theorem modJPort_jtag : (modJPort s p f).jtag = s.jtag := rfl
@[simp] theorem modJPort_clock : (modJPort s p f).clock = s.clock := rfl
@[simp] theorem modJPort_fresh : (modJPort s p f).fresh = s.fresh := rfl
@[simp] theorem modJPort_rng : (modJPort s p f).rng = s.rng := rfl
@[simp] theorem modJPort_pending : (modJPort s p f).pending = s.pending := rfl
end

section
variable (s : State) (f : Power → Power)
@[simp] theorem modPower_tiles : (modPower s f).tiles = s.tiles := rfl
@[simp] theorem modPower_levels : (modPower s f).levels = s.levels := rfl
@[simp] theorem modPower_cbar : (modPower s f).cbar = s.cbar := rfl
@[simp] theorem modPower_tmap : (modPower s f).tmap = s.tmap := rfl
@[simp] theorem modPower_snap : (modPower s f).snap = s.snap := rfl
@[simp] theorem modPower_net : (modPower s f).net = s.net := rfl
@[simp] theorem modPower_ctl : (modPower s f).ctl = s.ctl := rfl
@[simp] theorem modPower_bins : (modPower s f).bins = s.bins := rfl
@[simp] theorem modPower_keys : (modPower s f).keys = s.keys := rfl
@[simp] theorem modPower_genTab : (modPower s f).genTab = s.genTab := rfl
@[simp] theorem modPower_farTab : (modPower s f).farTab = s.farTab := rfl
@[simp] theorem modPower_mem : (modPower s f).mem = s.mem := rfl
@[simp] theorem modPower_regions : (modPower s f).regions = s.regions := rfl
@[simp] theorem modPower_saves : (modPower s f).saves = s.saves := rfl
@[simp] theorem modPower_ports : (modPower s f).ports = s.ports := rfl
@[simp] theorem modPower_out : (modPower s f).out = s.out := rfl
@[simp] theorem modPower_ticket : (modPower s f).ticket = s.ticket := rfl
@[simp] theorem modPower_dma : (modPower s f).dma = s.dma := rfl
@[simp] theorem modPower_msi : (modPower s f).msi = s.msi := rfl
@[simp] theorem modPower_answers : (modPower s f).answers = s.answers := rfl
@[simp] theorem modPower_hubCtr : (modPower s f).hubCtr = s.hubCtr := rfl
@[simp] theorem modPower_feat : (modPower s f).feat = s.feat := rfl
@[simp] theorem modPower_jobs : (modPower s f).jobs = s.jobs := rfl
@[simp] theorem modPower_lastJob : (modPower s f).lastJob = s.lastJob := rfl
@[simp] theorem modPower_adopted : (modPower s f).adopted = s.adopted := rfl
@[simp] theorem modPower_lcq : (modPower s f).lcq = s.lcq := rfl
@[simp] theorem modPower_beq : (modPower s f).beq = s.beq := rfl
@[simp] theorem modPower_comp : (modPower s f).comp = s.comp := rfl
@[simp] theorem modPower_sw : (modPower s f).sw = s.sw := rfl
@[simp] theorem modPower_heldIn : (modPower s f).heldIn = s.heldIn := rfl
@[simp] theorem modPower_paused : (modPower s f).paused = s.paused := rfl
@[simp] theorem modPower_load : (modPower s f).load = s.load := rfl
@[simp] theorem modPower_images : (modPower s f).images = s.images := rfl
@[simp] theorem modPower_launches : (modPower s f).launches = s.launches := rfl
@[simp] theorem modPower_replays : (modPower s f).replays = s.replays := rfl
@[simp] theorem modPower_colls : (modPower s f).colls = s.colls := rfl
@[simp] theorem modPower_casc : (modPower s f).casc = s.casc := rfl
@[simp] theorem modPower_errs : (modPower s f).errs = s.errs := rfl
@[simp] theorem modPower_retired : (modPower s f).retired = s.retired := rfl
@[simp] theorem modPower_retiredPc : (modPower s f).retiredPc = s.retiredPc := rfl
@[simp] theorem modPower_retiredStack : (modPower s f).retiredStack = s.retiredStack := rfl
@[simp] theorem modPower_retiredPkg : (modPower s f).retiredPkg = s.retiredPkg := rfl
@[simp] theorem modPower_degraded : (modPower s f).degraded = s.degraded := rfl
@[simp] theorem modPower_links : (modPower s f).links = s.links := rfl
@[simp] theorem modPower_subst : (modPower s f).subst = s.subst := rfl
@[simp] theorem modPower_reserve : (modPower s f).reserve = s.reserve := rfl
@[simp] theorem modPower_flashRecs : (modPower s f).flashRecs = s.flashRecs := rfl
@[simp] theorem modPower_flashCounts : (modPower s f).flashCounts = s.flashCounts := rfl
@[simp] theorem modPower_resets : (modPower s f).resets = s.resets := rfl
@[simp] theorem modPower_module : (modPower s f).module = s.module := rfl
@[simp] theorem modPower_s2 : (modPower s f).s2 = s.s2 := rfl
@[simp] theorem modPower_s3 : (modPower s f).s3 = s.s3 := rfl
@[simp] theorem modPower_lvA1 : (modPower s f).lvA1 = s.lvA1 := rfl
@[simp] theorem modPower_sec : (modPower s f).sec = s.sec := rfl
@[simp] theorem modPower_assay : (modPower s f).assay = s.assay := rfl
@[simp] theorem modPower_notices : (modPower s f).notices = s.notices := rfl
@[simp] theorem modPower_alert : (modPower s f).alert = s.alert := rfl
@[simp] theorem modPower_jtag : (modPower s f).jtag = s.jtag := rfl
@[simp] theorem modPower_clock : (modPower s f).clock = s.clock := rfl
@[simp] theorem modPower_fresh : (modPower s f).fresh = s.fresh := rfl
@[simp] theorem modPower_rng : (modPower s f).rng = s.rng := rfl
@[simp] theorem modPower_pending : (modPower s f).pending = s.pending := rfl
end

section
variable (s : State) (f : Sec → Sec)
@[simp] theorem modSec_tiles : (modSec s f).tiles = s.tiles := rfl
@[simp] theorem modSec_levels : (modSec s f).levels = s.levels := rfl
@[simp] theorem modSec_cbar : (modSec s f).cbar = s.cbar := rfl
@[simp] theorem modSec_tmap : (modSec s f).tmap = s.tmap := rfl
@[simp] theorem modSec_snap : (modSec s f).snap = s.snap := rfl
@[simp] theorem modSec_net : (modSec s f).net = s.net := rfl
@[simp] theorem modSec_ctl : (modSec s f).ctl = s.ctl := rfl
@[simp] theorem modSec_bins : (modSec s f).bins = s.bins := rfl
@[simp] theorem modSec_keys : (modSec s f).keys = s.keys := rfl
@[simp] theorem modSec_genTab : (modSec s f).genTab = s.genTab := rfl
@[simp] theorem modSec_farTab : (modSec s f).farTab = s.farTab := rfl
@[simp] theorem modSec_mem : (modSec s f).mem = s.mem := rfl
@[simp] theorem modSec_regions : (modSec s f).regions = s.regions := rfl
@[simp] theorem modSec_saves : (modSec s f).saves = s.saves := rfl
@[simp] theorem modSec_ports : (modSec s f).ports = s.ports := rfl
@[simp] theorem modSec_out : (modSec s f).out = s.out := rfl
@[simp] theorem modSec_ticket : (modSec s f).ticket = s.ticket := rfl
@[simp] theorem modSec_dma : (modSec s f).dma = s.dma := rfl
@[simp] theorem modSec_msi : (modSec s f).msi = s.msi := rfl
@[simp] theorem modSec_answers : (modSec s f).answers = s.answers := rfl
@[simp] theorem modSec_hubCtr : (modSec s f).hubCtr = s.hubCtr := rfl
@[simp] theorem modSec_feat : (modSec s f).feat = s.feat := rfl
@[simp] theorem modSec_jobs : (modSec s f).jobs = s.jobs := rfl
@[simp] theorem modSec_lastJob : (modSec s f).lastJob = s.lastJob := rfl
@[simp] theorem modSec_adopted : (modSec s f).adopted = s.adopted := rfl
@[simp] theorem modSec_lcq : (modSec s f).lcq = s.lcq := rfl
@[simp] theorem modSec_beq : (modSec s f).beq = s.beq := rfl
@[simp] theorem modSec_comp : (modSec s f).comp = s.comp := rfl
@[simp] theorem modSec_sw : (modSec s f).sw = s.sw := rfl
@[simp] theorem modSec_heldIn : (modSec s f).heldIn = s.heldIn := rfl
@[simp] theorem modSec_paused : (modSec s f).paused = s.paused := rfl
@[simp] theorem modSec_load : (modSec s f).load = s.load := rfl
@[simp] theorem modSec_images : (modSec s f).images = s.images := rfl
@[simp] theorem modSec_launches : (modSec s f).launches = s.launches := rfl
@[simp] theorem modSec_replays : (modSec s f).replays = s.replays := rfl
@[simp] theorem modSec_colls : (modSec s f).colls = s.colls := rfl
@[simp] theorem modSec_power : (modSec s f).power = s.power := rfl
@[simp] theorem modSec_casc : (modSec s f).casc = s.casc := rfl
@[simp] theorem modSec_errs : (modSec s f).errs = s.errs := rfl
@[simp] theorem modSec_retired : (modSec s f).retired = s.retired := rfl
@[simp] theorem modSec_retiredPc : (modSec s f).retiredPc = s.retiredPc := rfl
@[simp] theorem modSec_retiredStack : (modSec s f).retiredStack = s.retiredStack := rfl
@[simp] theorem modSec_retiredPkg : (modSec s f).retiredPkg = s.retiredPkg := rfl
@[simp] theorem modSec_degraded : (modSec s f).degraded = s.degraded := rfl
@[simp] theorem modSec_links : (modSec s f).links = s.links := rfl
@[simp] theorem modSec_subst : (modSec s f).subst = s.subst := rfl
@[simp] theorem modSec_reserve : (modSec s f).reserve = s.reserve := rfl
@[simp] theorem modSec_flashRecs : (modSec s f).flashRecs = s.flashRecs := rfl
@[simp] theorem modSec_flashCounts : (modSec s f).flashCounts = s.flashCounts := rfl
@[simp] theorem modSec_resets : (modSec s f).resets = s.resets := rfl
@[simp] theorem modSec_module : (modSec s f).module = s.module := rfl
@[simp] theorem modSec_s2 : (modSec s f).s2 = s.s2 := rfl
@[simp] theorem modSec_s3 : (modSec s f).s3 = s.s3 := rfl
@[simp] theorem modSec_lvA1 : (modSec s f).lvA1 = s.lvA1 := rfl
@[simp] theorem modSec_assay : (modSec s f).assay = s.assay := rfl
@[simp] theorem modSec_notices : (modSec s f).notices = s.notices := rfl
@[simp] theorem modSec_alert : (modSec s f).alert = s.alert := rfl
@[simp] theorem modSec_jtag : (modSec s f).jtag = s.jtag := rfl
@[simp] theorem modSec_clock : (modSec s f).clock = s.clock := rfl
@[simp] theorem modSec_fresh : (modSec s f).fresh = s.fresh := rfl
@[simp] theorem modSec_rng : (modSec s f).rng = s.rng := rfl
@[simp] theorem modSec_pending : (modSec s f).pending = s.pending := rfl
end

end Sys2Proof.Machine
end

