-- ==== Sys2Proof/Laws/Memory.lean ====
section
/-! SUPPORT. Device memory: every operation keeps the canonical form, a read gives the byte written, every other byte stays. -/

namespace Sys2Proof.Machine

/-- memZero reads only the regions and the section saves. -/
theorem memZero_congr {s t : State} (hr : t.regions = s.regions) (hs : t.saves = s.saves) (a : Nat) : memZero t a = memZero s a := by
  simp [memZero, saveAt, regionAt, hr, hs]

/-- The canonical form depends on memory, regions and saves alone. -/
theorem memWf_congr {s t : State} (hm : t.mem = s.mem) (hr : t.regions = s.regions) (hs : t.saves = s.saves) : memWf t = memWf s := by
  simp [memWf, hm, memZero_congr hr hs]

theorem memWf_iff (s : State) : memWf s = true ↔ arrSorted s.mem = true ∧ ∀ c ∈ s.mem, memZero s c.1 = true → c.2 ≠ 0 := by
  simp only [memWf, Bool.and_eq_true, List.all_eq_true]
  constructor
  · rintro ⟨h1, h2⟩
    refine ⟨h1, fun c hc hz => ?_⟩
    have := h2 c hc
    simp [hz] at this
    exact this
  · rintro ⟨h1, h2⟩
    refine ⟨h1, fun c hc => ?_⟩
    cases hz : memZero s c.1
    · simp
    · have := h2 c hc hz
      simpa using this

theorem memWrite_wf (s : State) (a : Nat) (b : Byte) (h : memWf s = true) : memWf (memWrite s a b) = true := by
  obtain ⟨h1, h2⟩ := (memWf_iff s).mp h
  refine (memWf_iff _).mpr ⟨arrSorted_arrPut _ _ _ _ h1, fun c hc hz => ?_⟩
  replace hz : memZero s c.1 = true := hz
  rcases mem_arrPut hc with hc | ⟨hc, hd⟩
  · exact h2 c hc hz
  · subst hc
    simp only [Bool.and_eq_false_iff] at hd
    rcases hd with hd | hd
    · exact absurd (hz.symm.trans hd) (by decide)
    · simpa using hd

/-- What memPut can do: memory changes, and lines leave the ore bins; nothing else. -/
theorem memPut_frame (s : State) (a : Nat) (bs : List Byte) : ∃ m b, memPut s a bs = { s with mem := m, bins := b } := by
  unfold memPut
  generalize (List.range bs.length).zip bs = l
  induction l generalizing s with
  | nil => exact ⟨s.mem, s.bins, rfl⟩
  | cons p t ih => obtain ⟨m, b, hm⟩ := ih (memWrite s (a + p.1) p.2); exact ⟨m, b, by simpa [memWrite] using hm⟩

/-- What binReads can do: the ore bins change, nothing else. -/
theorem binReads_frame (s : State) (a n : Nat) : ∃ b, binReads s a n = { s with bins := b } := by
  unfold binReads
  split
  · exact ⟨s.bins, rfl⟩
  · generalize List.range _ = l
    induction l generalizing s with
    | nil => exact ⟨s.bins, rfl⟩
    | cons p t ih =>
      have hb : ∃ b, binRead s (a / 512 + p) = { s with bins := b } := by
        unfold binRead
        dsimp only
        split
        · exact ⟨s.bins, rfl⟩
        · exact ⟨_, rfl⟩
      obtain ⟨b, hb⟩ := hb
      obtain ⟨c, hc⟩ := ih (binRead s (a / 512 + p))
      exact ⟨c, by rw [List.foldl_cons, hc, hb]⟩

theorem memPut_wf (s : State) (a : Nat) (bs : List Byte) (h : memWf s = true) : memWf (memPut s a bs) = true := by
  unfold memPut
  generalize (List.range bs.length).zip bs = l
  induction l generalizing s with
  | nil => exact h
  | cons p t ih => exact ih _ (memWrite_wf s _ _ h)

/-- Dropping entries keeps the form. -/
theorem memFilter_wf (s : State) (p : Nat × Byte → Bool) (h : memWf s = true) : memWf { s with mem := s.mem.filter p } = true := by
  obtain ⟨h1, h2⟩ := (memWf_iff s).mp h
  exact (memWf_iff _).mpr ⟨arrSorted_filter _ _ h1, fun c hc hz => h2 c (List.mem_filter.mp hc).1 (by rwa [memZero_congr rfl rfl] at hz)⟩

theorem memDrop_wf (s : State) (l u : Nat) (h : memWf s = true) : memWf (memDrop s l u) = true := memFilter_wf s _ h

/-- After regions or saves have changed, memCanon restores the form from a sorted list. -/
theorem memCanon_wf (s : State) (h : arrSorted s.mem = true) : memWf (memCanon s) = true := by
  refine (memWf_iff _).mpr ⟨arrSorted_filter _ _ h, fun c hc hz => ?_⟩
  replace hz : memZero s c.1 = true := hz
  have := (List.mem_filter.mp hc).2
  simpa [hz] using this

theorem memWf_sorted {s : State} (h : memWf s = true) : arrSorted s.mem = true := ((memWf_iff s).mp h).1

theorem modTile_wf (s : State) (t : Nat) (f : Tile → Tile) : memWf (modTile s t f) = memWf s := memWf_congr rfl rfl rfl

theorem flushEntry_wf (t : Nat) (s : State) (w : WgbEntry) (h : memWf s = true) : memWf (flushEntry t s w) = true := by
  unfold flushEntry
  generalize w.bytes = l
  induction l generalizing s with
  | nil => exact h
  | cons p r ih => exact ih _ (memWrite_wf s _ _ h)

theorem flushWhere_wf (s : State) (t : Nat) (p : WgbEntry → Bool) (h : memWf s = true) : memWf (flushWhere s t p) = true := by
  unfold flushWhere
  dsimp only
  split
  · generalize hl : List.filter p _ = l
    have h2 := (modTile_wf s t fun tl => { tl with pad := { tl.pad with wgb := (tileAt s t).pad.wgb.filter fun w => !p w } }).trans h
    revert h2
    generalize modTile s t _ = s1
    clear hl h
    intro h2
    induction l generalizing s1 with
    | nil => exact h2
    | cons w r ih => exact ih _ (flushEntry_wf t s1 w h2)
  · exact h

theorem flushPad_wf (s : State) (t a n : Nat) (h : memWf s = true) : memWf (flushPad s t a n) = true := flushWhere_wf s t _ h

theorem padWrite_wf (s : State) (t a : Nat) (bs : List Byte) (h : memWf s = true) : memWf (padWrite s t a bs) = true :=
  memPut_wf _ _ _ (flushPad_wf s t a _ h)

theorem wgbWrite_wf (s : State) (t a : Nat) (bs : List Byte) (r : Bool) (h : memWf s = true) : memWf (wgbWrite s t a bs r) = true := by
  unfold wgbWrite
  dsimp only
  apply flushWhere_wf
  rw [modTile_wf]
  split
  · split
    · exact flushWhere_wf s t _ h
    · exact h
  · exact h

/-- A key discarded leaves memory alone. -/
theorem dropKey_wf (s : State) (k : Option Nat) : memWf (dropKey s k) = memWf s := by
  cases k <;> exact memWf_congr rfl rfl rfl

theorem modJob_wf (s : State) (j : Nat) (f : Job → Job) : memWf (modJob s j f) = memWf s := memWf_congr rfl rfl rfl

theorem destroyRegion_wf (s : State) (r : Region) (h : memWf s = true) : memWf (destroyRegion s r) = true := by
  unfold destroyRegion
  extract_lets e s0 s1 s2
  have h1 : arrSorted s1.mem = true := memWf_sorted (memDrop_wf s _ _ h)
  have h2 : memWf s2 = true := memCanon_wf _ h1
  clear_value s2
  split
  · exact h2
  · split
    · split
      · rw [modJob_wf, dropKey_wf, h2]
      · exact h2
    · exact h2

theorem dropPads_wf (s : State) (n : Nat) (h : memWf s = true) : memWf (dropPads s n) = true := memFilter_wf s _ h

/-! ### Reading -/

/-- memAddr of an address outside the scratchpad windows, or with no substitution in force, is the address. -/
theorem memAddr_plain (s : State) (a : Nat) (h : isPad a = false) : memAddr s a = a := by simp [memAddr, h]

/-- A byte written is the byte read. -/
theorem memByte_memWrite_self (s : State) (a : Nat) (b : Byte) (h : memWf s = true) : memByte (memWrite s a b) a = b := by
  have hs := memWf_sorted h
  have h1 : memAddr (memWrite s a b) a = memAddr s a := rfl
  have h2 : memDefault (memWrite s a b) (memAddr s a) = memDefault s (memAddr s a) := rfl
  simp only [memByte, h1, h2]
  apply arrGet_arrPut_self _ _ _ _ _ hs
  intro hz
  simp only [Bool.and_eq_true, beq_iff_eq] at hz
  rw [memDefault, if_pos hz.1, hz.2]

/-- Every other byte stays: those whose place differs. -/
theorem memByte_memWrite_ne (s : State) (a c : Nat) (b : Byte) (h : memAddr s c ≠ memAddr s a) : memByte (memWrite s a b) c = memByte s c := by
  have h1 : memAddr (memWrite s a b) c = memAddr s c := rfl
  have h2 : memDefault (memWrite s a b) (memAddr s c) = memDefault s (memAddr s c) := rfl
  simp only [memByte, h1, h2]
  exact arrGet_arrPut_ne _ _ _ _ _ _ h

end Sys2Proof.Machine
end

