-- ==== Sys2Proof/Laws/Frames.lean ====
section
/-! SUPPORT. What each shared operation can change, said once: an equation with the state before, in which only the parts it may
change are those of the state after. A proof cites the equation instead of unfolding the operation. -/

namespace Sys2Proof.Machine

/-- `signal` adds MSI-X messages and changes nothing else. -/
theorem signal_frame (s : State) (p pf vec : Nat) : ∃ m, signal s p pf vec = { s with msi := s.msi ++ m } := by
  unfold signal
  split
  · exact ⟨_, rfl⟩
  · exact ⟨[], by simp⟩

theorem signalBoth_frame (s : State) (vec : Nat) : ∃ m, signalBoth s vec = { s with msi := s.msi ++ m } := by
  obtain ⟨m, hm⟩ := signal_frame s 0 0 vec
  obtain ⟨n, hn⟩ := signal_frame (signal s 0 0 vec) 1 0 vec
  exact ⟨m ++ n, by rw [signalBoth, hn, hm, ← List.append_assoc]⟩

theorem signalError_frame (s : State) (p : Nat) : ∃ m, signalError s p = { s with msi := s.msi ++ m } := by
  obtain ⟨m, hm⟩ := signal_frame s p 0 1016
  obtain ⟨n, hn⟩ := signal_frame (signal s p 0 1016) p 1 1
  exact ⟨m ++ n, by rw [signalError, hn, hm, ← List.append_assoc]⟩

/-- Gathered lines that reach memory change memory alone, and the ore bins that held them. -/
theorem flushEntries_frame (t : Nat) (ws : List WgbEntry) :
    ∀ v : State, ∃ m b, ws.foldl (flushEntry t) v = { v with mem := m, bins := b } := by
  have hb : ∀ (f : Nat × Byte → Nat) (bs : List (Nat × Byte)) (v : State),
      ∃ m b, bs.foldl (fun s b => memWrite s (f b) b.2) v = { v with mem := m, bins := b } := by
    intro f bs
    induction bs with
    | nil => exact fun v => ⟨v.mem, v.bins, rfl⟩
    | cons x bs ih =>
      intro v
      obtain ⟨m, b, h⟩ := ih (memWrite v (f x) x.2)
      exact ⟨m, b, by rw [List.foldl_cons, h]; rfl⟩
  induction ws with
  | nil => exact fun v => ⟨v.mem, v.bins, rfl⟩
  | cons w ws ih =>
    intro v
    obtain ⟨m, b, h⟩ := ih (flushEntry t v w)
    obtain ⟨m1, b1, hw⟩ := hb (fun b => padBase t + 128 * w.line + b.1) w.bytes v
    exact ⟨m, b, by rw [List.foldl_cons, h, flushEntry, hw]⟩

/-- Gathered lines reach memory and leave the tile's buffer; nothing else changes. -/
theorem flushWhere_frame (s : State) (t : Nat) (p : WgbEntry → Bool) :
    ∃ ts m b, flushWhere s t p = { s with tiles := ts, mem := m, bins := b } := by
  unfold flushWhere
  simp only
  split
  · obtain ⟨m, b, h⟩ := flushEntries_frame t (List.filter p (tileAt s t).pad.wgb)
      (modTile s t fun tl => { tl with pad := { tl.pad with wgb := (tileAt s t).pad.wgb.filter fun w => !p w } })
    exact ⟨_, m, b, by rw [h]; rfl⟩
  · exact ⟨s.tiles, s.mem, s.bins, rfl⟩

theorem flushPad_frame (s : State) (t a n : Nat) :
    ∃ ts m b, flushPad s t a n = { s with tiles := ts, mem := m, bins := b } := flushWhere_frame s t _

theorem flushAllOf_frame (ts : List Nat) :
    ∀ s : State, ∃ x m b, flushAllOf s ts = { s with tiles := x, mem := m, bins := b } := by
  unfold flushAllOf
  induction ts with
  | nil => exact fun s => ⟨s.tiles, s.mem, s.bins, rfl⟩
  | cons t ts ih =>
    intro s
    obtain ⟨x, m, b, h⟩ := ih (flushWhere s t fun _ => true)
    obtain ⟨x1, m1, b1, hw⟩ := flushWhere_frame s t fun _ => true
    exact ⟨x, m, b, by rw [List.foldl_cons, h, hw]⟩

/-- The scan writes back gathered lines alone: jobs and launches stay. -/
theorem scanState_keeps (s : State) (we : BitVec 16) :
    (scanState s we).1.jobs = s.jobs ∧ (scanState s we).1.launches = s.launches := by
  unfold scanState
  generalize (List.range 2304).filter _ = ts
  obtain ⟨x, m, b, h⟩ := flushAllOf_frame ts s
  show (flushAllOf s ts).jobs = s.jobs ∧ (flushAllOf s ts).launches = s.launches
  rw [h]
  exact ⟨rfl, rfl⟩

/-- A write to a scratchpad changes the tile's gather buffer and memory alone, and the ore bins that held its lines. -/
theorem padWrite_frame (s : State) (t a : Nat) (bs : List Byte) :
    ∃ ts m b, padWrite s t a bs = { s with tiles := ts, mem := m, bins := b } := by
  unfold padWrite
  obtain ⟨m, b, hm⟩ := memPut_frame (flushPad s t a bs.length) (padBase t + a) bs
  obtain ⟨ts, m1, b1, hf⟩ := flushPad_frame s t a bs.length
  exact ⟨ts, m, b, by rw [hm, hf]⟩

/-- A queue error adds a record and MSI-X messages. -/
theorem queueRecord_frame (s : State) (p q : Nat) (cq : Bool) :
    queueRecord s p q cq = { s with msi := (queueRecord s p q cq).msi, errs := (queueRecord s p q cq).errs
                                    flashRecs := (queueRecord s p q cq).flashRecs } := by
  unfold queueRecord
  obtain ⟨m, hm⟩ := signalError_frame (putRecord s stContained 1 false false 0x0D 0 p (queueLoc q cq) []) 0
  obtain ⟨n, hn⟩ := signalError_frame (signalError (putRecord s stContained 1 false false 0x0D 0 p (queueLoc q cq) []) 0) 1
  rw [hn, hm]
  rfl

/-- An entry written to a completion queue: the queue, the written bytes, the interrupt, or the record of its error. -/
theorem writeEntry_frame (s : State) (p c : Nat) (r : Reply) :
    let u := writeEntry s p c r
    u = { s with ports := u.ports, dma := u.dma, mem := u.mem, bins := u.bins, msi := u.msi, errs := u.errs, flashRecs := u.flashRecs } := by
  simp only
  unfold writeEntry
  simp only
  split
  · rw [queueRecord_frame]
    rfl
  · generalize hx : (if bitAt (cqN (portN s p) c).cfg 12 = true then memPut s _ _ else hostWrite s p _ _) = x
    have h : x = { s with dma := x.dma, mem := x.mem, bins := x.bins } := by
      subst hx
      split
      · obtain ⟨m, b, hm⟩ := memPut_frame s ((cqN (portN s p) c).base.toNat + 32 * (cqN (portN s p) c).tail)
          (entryBytes r (cqN (portN s p) c).phase (r.shaft.getD (shaftCount s)))
        rw [hm]
      · rfl
    split
    · generalize hy : modCq x p c _ = y
      have hp : y = { x with ports := y.ports } := by subst hy; rfl
      obtain ⟨m, hm⟩ := signal_frame y p (queuePf c) (cqVec c (cqN (portN s p) c))
      rw [hm, hp, h]
    · rw [h]
      rfl

/-- Space freed in an inbound queue, with the credits it pays, changes the cascade side alone. -/
theorem payCredits_frame (p lvc k : Nat) : ∀ (n : Nat) (s : State), payCredits p lvc k n s = { s with casc := (payCredits p lvc k n s).casc } := by
  induction k with
  | zero => exact fun n s => rfl
  | succ k ih =>
    intro n s
    unfold payCredits
    split
    · rfl
    · rw [ih]
      rfl

theorem freeIn_frame (s : State) (p lvc n : Nat) : freeIn s p lvc n = { s with casc := (freeIn s p lvc n).casc } := by
  unfold freeIn
  simp only
  split
  · rfl
  · rw [payCredits_frame]
    rfl

/-- Frames that leave for the lanes change the cascade side alone. -/
theorem pumpPort_frame (p k : Nat) : ∀ s : State, pumpPort p k s = { s with casc := (pumpPort p k s).casc } := by
  induction k with
  | zero => exact fun s => rfl
  | succ k ih =>
    intro s
    unfold pumpPort
    simp only
    split
    · rfl
    · split
      · rfl
      · rw [ih]
        split
        · rfl
        · rw [freeIn_frame]
          rfl

theorem sendTo_frame (s : State) (d h : Nat) (f : Frame) : sendTo s d h f = { s with casc := (sendTo s d h f).casc } := by
  unfold sendTo
  split
  · unfold queueFrame pump
    rw [pumpPort_frame]
    rfl
  · rfl

/-- A frame, whole or in pieces, leaves by the Jorzin ports. -/
theorem sendResp_frame (s : State) (h : RespHead) (bs : List Byte) : ∃ c, sendResp s h bs = { s with casc := c } := by
  unfold sendResp
  simp only
  generalize (List.range _).zip (pieces 2 bs) = l
  generalize (pieces 2 bs).length = n
  have go : ∀ v : State, ∃ c, l.foldl (fun s e => sendTo s h.dev 0
      { ftype := 0, lvc := 2, seq := 0, sdev := s.casc.id, body := respUnit { h with last := e.1 + 1 = n } ++ e.2 }) v = { v with casc := c } := by
    induction l with
    | nil => exact fun v => ⟨v.casc, rfl⟩
    | cons e l ih =>
      intro v
      obtain ⟨c, hc⟩ := ih (sendTo v h.dev 0
        { ftype := 0, lvc := 2, seq := 0, sdev := v.casc.id, body := respUnit { h with last := e.1 + 1 = n } ++ e.2 })
      exact ⟨c, by rw [List.foldl_cons, hc, sendTo_frame]⟩
  exact go s

/-- Forwarded packets that leave change the packets' own marks and the cascade side alone. -/
theorem sendForwards_frame (s : State) : ∃ o c, sendForwards s = { s with out := o, casc := c } := by
  unfold sendForwards
  generalize s.out.filter _ = l
  have go : ∀ v : State, ∃ o c, l.foldl sendForward v = { v with out := o, casc := c } := by
    induction l with
    | nil => exact fun v => ⟨v.out, v.casc, rfl⟩
    | cons x l ih =>
      intro v
      obtain ⟨o, c, h⟩ := ih (sendForward v x)
      obtain ⟨c1, h1⟩ := sendResp_frame (modPacket v x.ticket fun y => { y with sent := true })
        { dev := pfld x 8 1, src := deviceId v, what := .packet, last := true, port := x.port, code := 0, num := x.ticket } x.bytes
      refine ⟨o, c, ?_⟩
      rw [List.foldl_cons, h, sendForward]
      have hd : deviceId (modPacket v x.ticket fun y => { y with sent := true }) = deviceId v := rfl
      rw [h1]
      rfl
  exact go s

/-- A reply or event for a completion queue: as an entry written, held, or sent to the Pithead. -/
theorem postEntry_frame (s : State) (p c : Nat) (r : Reply) :
    let u := postEntry s p c r
    u = { s with ports := u.ports, dma := u.dma, mem := u.mem, bins := u.bins, msi := u.msi, casc := u.casc, errs := u.errs
                 flashRecs := u.flashRecs } := by
  simp only
  unfold postEntry
  simp only
  split
  · obtain ⟨c, h⟩ := sendResp_frame s { dev := 0, src := deviceId s, what := if r.async then .event else .reply, last := true, port := p - 2, code := c, num := r.sqhead }
      (entryBytes r false (shaftCount s))
    rw [h]
  · split
    · have h := writeEntry_frame s p c r
      simp only at h
      rw [h]
    · split <;> rfl

/-- The final reply of a packet: the packet leaves, its reply is posted. -/
theorem complete_frame (s : State) (k status detail r0 r1 : Nat) :
    let u := complete s k status detail r0 r1
    u = { s with ports := u.ports, out := u.out, dma := u.dma, mem := u.mem, bins := u.bins, msi := u.msi, casc := u.casc
                 errs := u.errs, flashRecs := u.flashRecs } := by
  simp only
  unfold complete
  split
  · rfl
  · rename_i x _
    have key : ∀ v : State, v = { s with ports := v.ports, out := v.out, dma := v.dma, mem := v.mem, bins := v.bins, msi := v.msi
                                         casc := v.casc, errs := v.errs, flashRecs := v.flashRecs } →
        let u := sendForwards v
        u = { s with ports := u.ports, out := u.out, dma := u.dma, mem := u.mem, bins := u.bins, msi := u.msi, casc := u.casc
                     errs := u.errs, flashRecs := u.flashRecs } := by
      intro v h
      obtain ⟨o, c, hf⟩ := sendForwards_frame v
      simp only
      rw [hf, h]
    refine key _ ?_
    split
    · rfl
    · split
      · rfl
      · unfold replyPacket
        split
        · rfl
        · have h := fun c r => postEntry_frame (dropPacket s k) x.port c r
          simp only at h
          rw [h]
          rfl

/-- A record: the ring, the flash's copy, and its event or vector. -/
theorem addRecord_frame (s : State) (status sev : Nat) (lasting summary : Bool) (src job loc0 loc1 : Nat) (detail : List Nat) :
    let u := addRecord s status sev lasting summary src job loc0 loc1 detail
    u = { s with ports := u.ports, dma := u.dma, mem := u.mem, bins := u.bins, msi := u.msi, casc := u.casc, errs := u.errs
                 flashRecs := u.flashRecs } := by
  simp only
  unfold addRecord
  simp only
  generalize hp : putRecord s status sev lasting summary src job loc0 loc1 detail = v
  have hv : v = { s with errs := v.errs, flashRecs := v.flashRecs } := by subst hp; rfl
  split
  · obtain ⟨m, hm⟩ := signalError_frame v 0
    obtain ⟨n, hn⟩ := signalError_frame (signalError v 0) 1
    rw [hn, hm, hv]
  · split
    · unfold recordEvent
      split
      · simp only
        split
        · rw [hv]
        · split
          · have h := fun p c r => postEntry_frame v p c r
            simp only at h
            rw [h, hv]
          · rw [hv]
      · rw [hv]
    · rw [hv]

end Sys2Proof.Machine
end

