-- ==== Sys2Proof/Machine/Pins.lean ====
section
/-! DEFINITION. What the output pins of connector A read as, each a function of the state (22 R505, 23 R511, R514, R515, R520,
21 R495, 19 R456). The Shaft bus lines are read in Cascade.lean. -/

namespace Sys2Proof.Machine

/-- An output pin: driven low, driven high, or high-impedance (an open-drain pin that is released). -/
inductive PinLevel where
  | low | high | z
deriving DecidableEq, Repr

/-- Every rail is in regulation: PWRGD is released (R511, 19 R452). -/
def railsGood (s : State) : Bool := s.module ≠ .off && s.module ≠ .held

/-- An open-drain pin that an asserted cause pulls low. -/
def openDrain (asserted : Bool) : PinLevel := if asserted then .low else .z

/-- High-impedance while the module is OFF or its PWRGD is low (R514). -/
def whilePowered (s : State) (l : PinLevel) : PinLevel := if railsGood s then l else .z

/-- PWRGD (R511, R515). -/
def pinPwrgd (s : State) : PinLevel := openDrain (!railsGood s)

/-- HOLD0_N and HOLD1_N (R505): low while the FIFO is HIGH, while the port is in a PORT reset, and until start-up step 7. -/
def pinHold (s : State) (p : Nat) : PinLevel :=
  whilePowered s (if (portN s p).fifo.high || (portN s p).perst || s.module ≠ .on then .low else .high)

/-- CFG_ERR_N (19 R456). -/
def pinCfgErr (s : State) : PinLevel := whilePowered s (openDrain (cfgErr s))

/-- ALERT_N (R515). -/
def pinAlert (s : State) : PinLevel := whilePowered s (openDrain s.alert)

/-- THERMTRIP_N (R520, 16 R393): it stays low while the module stays OFF after the trip. -/
def pinThermtrip (s : State) : PinLevel := openDrain s.power.trip

/-- SEAL_OPEN (21 R495, R511): the Assay die holds it low while the switch is closed. -/
def pinSealOpen (s : State) : PinLevel := openDrain (s.assay.running && !s.assay.sealOpen)

/-- SHDONE and SHFLT_N (17 R411, R415, R421). -/
def pinShdone (s : State) : PinLevel := whilePowered s (openDrain (!s.casc.shdone))
def pinShflt (s : State) : PinLevel := whilePowered s (openDrain s.casc.shflt)

end Sys2Proof.Machine
end

