-- ==== Sys2Proof/Tests/Slice0.lean ====
section
/-! SUPPORT. Tests of the model on small states, and, for each statement with hypotheses, concrete states and operands that meet them.
Expected results come from the spec's text. -/

namespace Sys2Proof.Tests

open Sys2Proof.Machine

set_option Elab.async false

/-! ## Small states -/

/-- An instruction word: opcode, and the value of the other bits. -/
def ins (op low : Nat) : W64 := BitVec.ofNat 64 (op * 2 ^ 56 + low)

/-- A head that nothing has sent yet. -/
def entry (w : W64) : QEntry :=
  { idx := 3, seq := 0, word := w, a := 0, b := 0, loops := [], sent := false, ready := false }

/-- The reset state with tile 0 replaced. -/
def tile0 (tl : Tile) : State := setTile State.reset 0 tl

/-- A running sequencer at index pc holding w there. -/
def seqAt (pc : Nat) (w : W64) : Sequencer := { seqReset with st := .running, pc := pc, imem := [(pc, w)] }

/-- Tile 0 runs, with e at the head of unit queue k. -/
def headTile (k : Nat) (e : QEntry) : Tile := { tileReset with sq := { seqReset with st := .running }, q := qSet queuesReset k [e] }

def headState (k : Nat) (e : QEntry) : State := tile0 (headTile k e)

/-- Tile 0 runs instruction w at index pc. -/
def runState (pc : Nat) (w : W64) : State := tile0 { tileReset with sq := seqAt pc w }

/-- The same with a full MXQ. -/
def fullState (w : W64) : State :=
  tile0 { tileReset with sq := seqAt 0 w, q := qSet queuesReset 0 (List.replicate 16 (entry (ins 0x10 0))) }

/-- Best-effort job 1 of port 0, in a state. -/
def job1 : Job :=
  { id := 1, port := 0, lc := false, split := 0, adopt := false, casc := false, client := 0, evcq := 0, tier := 0, seed := 0, key := some 1,
    state := .computing, area := [], saved := none, wepoch := 0, enq := none, pre := none, qwait := 0, preempts := 0, ptime := 0, energy := 0,
    fail := 0, preBy := 0, doomed := false }

/-- Job 1 computes. -/
def computing (s : State) : State := { s with jobs := [job1], comp := some 1 }

/-- The state after a row, the state before where it stops. -/
def after (c : Instr) (s : State) : State := match exec c s with
  | .next u => u
  | _ => s


/-! ## Ill-formed commands, one for each check, and the last well-formed one -/

theorem test_wf_tile : (Instr.dispatch 2304).wf = false ∧ (Instr.dispatch 2303).wf = true := by decide
theorem test_wf_unit_queue : (Instr.mark 0 5).wf = false ∧ (Instr.mark 0 4).wf = true := by decide
theorem test_wf_slot : (Instr.descriptorFetch 0 6).wf = false ∧ (Instr.descriptorFetch 0 5).wf = true := by decide
theorem test_wf_recv_queue : (Instr.spill 0 16).wf = false ∧ (Instr.spill 0 15).wf = true := by decide
theorem test_wf_port : (Instr.hotReset 2).wf = false ∧ (Instr.hotReset 1).wf = true := by decide
theorem test_wf_port_queue : (Instr.packetTake 0 17 []).wf = false ∧ (Instr.packetTake 0 16 []).wf = true := by decide
theorem test_wf_function : (Instr.registerWrite 0 4 0 0 0).wf = false ∧ (Instr.registerWrite 0 3 0 0 0).wf = true := by decide
theorem test_wf_config_register :
    (Instr.configurationRequest 0 2 0 none).wf = false ∧ (Instr.configurationRequest 0 1 1024 none).wf = false ∧
    (Instr.configurationRequest 0 1 1023 none).wf = true := by decide
theorem test_wf_jorzin_port : (Instr.jorzinAckTimeout 12).wf = false ∧ (Instr.jorzinAckTimeout 11).wf = true := by decide
theorem test_wf_level : (Instr.enterS2 4).wf = false ∧ (Instr.enterS2 3).wf = true := by decide
theorem test_wf_barrier : (Instr.barrierTimeout 68).wf = false ∧ (Instr.barrierTimeout 67).wf = true := by decide
theorem test_wf_barrier_line : (Instr.shbarReleased 4).wf = false ∧ (Instr.shbarReleased 3).wf = true := by decide
theorem test_wf_die : (Instr.thermalSample 9 0).wf = false ∧ (Instr.thermalSample 8 0).wf = true := by decide
theorem test_wf_transport : (Instr.getVersion 5).wf = false ∧ (Instr.getVersion 4).wf = true := by decide
theorem test_wf_queue_ref :
    (Instr.queuePointerReset (.jorzinIn 0 3)).wf = false ∧ (Instr.queuePointerReset (.tileQ 0 16)).wf = false ∧
    (Instr.queuePointerReset (.hostFifo 1)).wf = true := by decide
theorem test_wf_power_unit : (Instr.enterA1 (.level 4)).wf = false ∧ (Instr.enterA1 .device).wf = true := by decide
theorem test_wf_error_event :
    (Instr.errorEvent (.dieLost 9)).wf = false ∧ (Instr.errorEvent (.counted (.stack 16) 0 0)).wf = false ∧
    (Instr.errorEvent (.dieLost 8)).wf = true := by decide
theorem test_wf_summary : (Instr.summaryRecord (.channel 16 0)).wf = false ∧ (Instr.summaryRecord (.tile 2303)).wf = true := by decide

/-- The check value of CRC-32 (IEEE 802.3): "123456789". -/
theorem test_crc32 : crc32 [0x31, 0x32, 0x33, 0x34, 0x35, 0x36, 0x37, 0x38, 0x39] = 0xCBF43926 := by decide +kernel

/-- No row of the table gives bits (log 8). -/
theorem test_no_bits : decodeTableWord 64 0 = none ∧ State.withFetchWord State.reset 64 0 = State.reset := ⟨rfl, rfl⟩

/-! ## Queue of commands, memory, sequencer, matrix unit, vector engine -/

abbrev isNext (o : Machine.Outcome) : Bool := match o with
  | .next _ => true
  | _ => false

theorem witness_step_on_an_empty_queue : State.reset.pending = [] := by decide +kernel

theorem witness_a_command_answers : isNext (exec .flashCountWrite State.reset) = true := by decide +kernel

theorem witness_memory_canonical :
    let s : State := { State.reset with mem := [(padBase 0, 1)], pending := [.flashCountWrite] }
    memWf s = true ∧ isNext (step s) = true := by decide +kernel

abbrev Settled (s : State) (ls : List ActiveLoop) : Prop :=
  (match refreshLoops (flushPtr s 0) 0 (tileAt (flushPtr s 0) 0).sq.loops with
    | .ok r => decide (r = (ls, false))
    | .error _ => false) = true

abbrev Blocked (s : State) : Bool :=
  let q := (tileAt (flushPtr s 0) 0).sq
  (regsRead (instrAt q q.pc) ++ regsWritten (instrAt q q.pc)).any fun r => bitAt q.pend r

/-- Register s0 is pending. -/
def pendState (w : W64) : State := tile0 { tileReset with sq := { seqAt 0 w with pend := 1 } }

/-- Register s0 holds 0x10000: its low 16 bits are zero. -/
def jnzState (w : W64) : State := tile0 { tileReset with sq := { seqAt 4094 w with s := [(0, 0x10000)] } }

/-- A unit instruction with room and with a full queue, one that reads a pending register, HALT, JMP, a JNZ not taken (TAGT) and one
taken, a JNZ on a pending register; index 4,094 is the last that advances. -/
theorem witness_dispatch :
    (SeqRuns (runState 4094 (ins 0x10 0)) 0 ∧ Settled (runState 4094 (ins 0x10 0)) [] ∧ queueOf (ins 0x10 0) = some 0 ∧
      Blocked (runState 4094 (ins 0x10 0)) = false) ∧
    (SeqRuns (fullState (ins 0x10 0)) 0 ∧ Settled (fullState (ins 0x10 0)) [] ∧
      16 ≤ (qGet (tileAt (fullState (ins 0x10 0)) 0).q 0).length) ∧
    (SeqRuns (pendState (ins 0x21 (2 ^ 36))) 0 ∧ Settled (pendState (ins 0x21 (2 ^ 36))) [] ∧
      queueOf (ins 0x21 (2 ^ 36)) = some 2 ∧ Blocked (pendState (ins 0x21 (2 ^ 36))) = true) ∧
    (SeqRuns (pendState (ins 0x02 0)) 0 ∧ Settled (pendState (ins 0x02 0)) [] ∧ queueOf (ins 0x02 0) = none ∧
      Blocked (pendState (ins 0x02 0)) = true) ∧
    (SeqRuns (runState 4095 0) 0 ∧ Settled (runState 4095 0) [] ∧ opc (0 : W64) = 0x00) ∧
    (SeqRuns (runState 4095 (ins 0x01 5)) 0 ∧ Settled (runState 4095 (ins 0x01 5)) [] ∧ opc (ins 0x01 5) = 0x01) ∧
    (SeqRuns (jnzState (ins 0x02 (2 ^ 50))) 0 ∧ Settled (jnzState (ins 0x02 (2 ^ 50))) [] ∧ opc (ins 0x02 (2 ^ 50)) = 0x02 ∧
      Blocked (jnzState (ins 0x02 (2 ^ 50))) = false ∧ bitAt (ins 0x02 (2 ^ 50)) 50 = true ∧
      fld (arrGet (tileAt (jnzState (ins 0x02 (2 ^ 50))) 0).sq.s 0 0) 15 0 = 0) ∧
    (SeqRuns (jnzState (ins 0x02 (2 ^ 51))) 0 ∧ Settled (jnzState (ins 0x02 (2 ^ 51))) [] ∧ Blocked (jnzState (ins 0x02 (2 ^ 51))) = false ∧
      bitAt (ins 0x02 (2 ^ 51)) 50 = false ∧ (arrGet (tileAt (jnzState (ins 0x02 (2 ^ 51))) 0).sq.s 0 0).toNat ≠ 0) := by
  decide +kernel

/-- JNZ with DEC subtracts 1 and jumps; TAGT tests bits [15:0] only (06 R148). -/
theorem test_jnz :
    (let u := after (.dispatch 0) (jnzState (ins 0x02 (2 ^ 51 + 7)))
     (arrGet (tileAt u 0).sq.s 0 0, (tileAt u 0).sq.pc) = (0xFFFF, 7)) ∧
    (let u := after (.dispatch 0) (jnzState (ins 0x02 (2 ^ 51 + 2 ^ 50 + 7)))
     (arrGet (tileAt u 0).sq.s 0 0, (tileAt u 0).sq.pc) = (0x10000, 4095)) := by decide +kernel

/-- One active loop of descriptor 0 with one pointer level whose list begins at byte 8. -/
def ptrLoop : ActiveLoop :=
  { ld := 0, at_ := 1, desc := [(0, 1), (8, 2 ^ 48 + 4)], idx := [1, 0, 0, 0, 0, 0], lists := [some (8, 4)], entries := [none] }

def ptrState (e : Byte) : State :=
  memPut (tile0 { tileReset with sq := { seqAt 5 0 with loops := [ptrLoop] } }) (padBase 0 + 16) [7, 0, 0, 0, 0, 0, e, 0]

theorem witness_pointer_entry :
    (let u := flushPtr (ptrState 0x80) 0
     let v : W64 := BitVec.ofNat 64 (leNat (padBytes u 0 (ptrAddr ptrLoop 0) 8))
     SeqRuns (ptrState 0x80) 0 ∧ (tileAt u 0).sq.loops = [ptrLoop] ∧ ptrNeeded ptrLoop = some 0 ∧
       slotEmptyAt u 0 (ptrAddr ptrLoop 0 / 512) = false ∧ fld v 62 48 ≠ 0) ∧
    (let u := flushPtr (ptrState 0) 0
     let v : W64 := BitVec.ofNat 64 (leNat (padBytes u 0 (ptrAddr ptrLoop 0) 8))
     SeqRuns (ptrState 0) 0 ∧ (tileAt u 0).sq.loops = [ptrLoop] ∧ slotEmptyAt u 0 (ptrAddr ptrLoop 0 / 512) = false ∧
       fld v 62 48 = 0 ∧ ptrNeeded { ptrLoop with entries := ptrLoop.entries.set 0 (some v) } = none) := by decide +kernel

/-- The entry's 64 bits at the list address plus 8 times the index (07 R174). -/
theorem test_pointer_entry :
    (let u := after (.pointerEntryRead 0) (ptrState 0)
     (tileAt u 0).sq.loops.map (·.entries) = [[some 7]]) := by decide +kernel

def lendLoop : ActiveLoop := { ld := 0, at_ := 1, desc := [(0, 1)], idx := [0, 0, 0, 0, 0, 0], lists := [none], entries := [none] }

/-- A unit instruction, a JNZ not taken, a LEND that ends its loop, and a PLIST whose list ends at the scratchpad's last byte. -/
theorem witness_dispatch_past_the_last_index :
    (SeqRuns (runState 4095 (ins 0x10 0)) 0 ∧ Settled (runState 4095 (ins 0x10 0)) [] ∧ Blocked (runState 4095 (ins 0x10 0)) = false) ∧
    (SeqRuns (runState 4095 (ins 0x02 0)) 0 ∧ Settled (runState 4095 (ins 0x02 0)) [] ∧ Blocked (runState 4095 (ins 0x02 0)) = false ∧
      (arrGet (tileAt (runState 4095 (ins 0x02 0)) 0).sq.s 0 0).toNat = 0) ∧
    (let s := tile0 { tileReset with sq := { seqAt 4095 (ins 0x09 0) with loops := [lendLoop] } }
     SeqRuns s 0 ∧ Settled s [lendLoop] ∧ Blocked s = false ∧ ldAdvance lendLoop.desc (ldLevels lendLoop.desc) lendLoop.idx = none) ∧
    (let w := ins 0x0A (0x3FFFE * 2 ^ 30 + 1)
     SeqRuns (runState 4095 w) 0 ∧ Settled (runState 4095 w) [] ∧ Blocked (runState 4095 w) = false ∧
       8 * fld w 47 30 + 8 * (fld w 11 0 + 1) = 0x200000) ∧
    ((∀ x, x < 3 → (tileAt (runState 4095 0) x).sq.pc ≤ 4095) ∧ isNext (exec (.dispatch 0) (runState 4095 0)) = true) := by
  decide +kernel

theorem test_dispatch_past_the_last_index :
    let u := after (.dispatch 0) (computing (runState 4095 (ins 0x10 0)))
    u.errs.ring.map (fun r => (r.status, r.sev, r.job, r.loc0, r.loc1)) = [(0x0101, 2, 1, 0, 8 + 256 * 4095)] ∧
      u.jobs.map (·.state) = [.failed] := by decide +kernel

/-- A MARK for count 2. -/
def markEntry : QEntry := entry (ins 0x03 2)

def shaftState (c : W64) (e : QEntry) : State := { headState 0 e with casc := { cascReset with count := c } }

theorem witness_mark :
    (AtHead (shaftState 1 markEntry) 0 0 0x03 markEntry ∧ shaftCount (shaftState 1 markEntry) < 2) ∧
    (AtHead (shaftState 2 markEntry) 0 0 0x03 markEntry ∧ shaftCount (shaftState 2 markEntry) = 2) ∧
    (AtHead (shaftState 3 markEntry) 0 0 0x03 markEntry ∧ 2 < shaftCount (shaftState 3 markEntry) ∧ markEntry.sent = false) := by
  decide +kernel

/-- A MARK that reaches its head past its target is late; at its target it is not (06 R149). -/
theorem test_mark_late :
    (let u := after (.mark 0 0) (shaftState 3 markEntry)
     (tileAt u 0).sq.markLate = 1) ∧
    (let u := after (.mark 0 0) (shaftState 2 markEntry)
     ((tileAt u 0).sq.markLate, (tileAt u 0).q.mxq.length) = (0, 0)) := by decide +kernel

/-- CSET of 3 to byte offset 0, and of a tagged region of 2 slots from slot 4,095 to TREG0, which passes the end. -/
theorem witness_cset_cget :
    (∃ w, let e := entry (ins 0x0C w)
      AtHead (headState 0 e) 0 0 0x0C e ∧ csetHeld (headTile 0 e) e = false ∧
        (ctlWrite .cset (headTile 0 e) 0 (4 * fld e.word 46 33) (bitAt e.word 52) (BitVec.ofNat 64 (fld e.word 31 0))).isOk = true) ∧
    (∃ w, let e := entry (ins 0x0C w)
      AtHead (headState 0 e) 0 0 0x0C e ∧ csetHeld (headTile 0 e) e = false ∧
        (ctlWrite .cset (headTile 0 e) 0 (4 * fld e.word 46 33) (bitAt e.word 52) (BitVec.ofNat 64 (fld e.word 31 0))).isOk = false) ∧
    (let e := entry (ins 0x0D 0)
     AtHead (headState 0 e) 0 0 0x0D e) :=
  ⟨⟨3, by decide +kernel⟩, ⟨0xC0 * 2 ^ 33 + 2 ^ 25 + 2 * 2 ^ 12 + 4095, by decide +kernel⟩, by decide +kernel⟩
def mmaEntry : QEntry := entry (ins 0x10 0)

/-- MXD0 of an I8 product of 16 × 16 with K = 1, windows at 0 and 1,088; A(0, 0) = 3 and B(0, 0) = −2. -/
def i8Unit : MxUnit := { mxReset with mxd := [(0, 2 ^ 24 + 0x66), (1, 17 * 2 ^ 12)], opc := [(64, 3), (1152, 0xFE)] }

def i8State : State := tile0 { headTile 0 (entry (ins 0x11 0)) with mx := i8Unit }

/-- The product runs, and an all-zero descriptor (K = 0, 03 R70) is refused. -/
theorem witness_products :
    (AtHead i8State 0 0 0x11 (entry (ins 0x11 0)) ∧ (tileAt i8State 0).mx.busy = none ∧
      flightHolds i8Unit (fillBank i8Unit) = false ∧
      mmaHeld i8State 0 (tileAt i8State 0) (fillBank i8Unit) 0 = false ∧ (mmaStart true (tileAt i8State 0) 0).isOk = true) ∧
    (let s := headState 0 mmaEntry
     AtHead s 0 0 0x10 mmaEntry ∧ mmaEntry.sent = false ∧ (tileAt s 0).mx.busy = none ∧
       flightHolds (tileAt s 0).mx (fillBank (tileAt s 0).mx) = false ∧
       mmaHeld s 0 (tileAt s 0) (fillBank (tileAt s 0).mx) mmaEntry.seq = false ∧ (mmaStart false (tileAt s 0) 0).isOk = false) := by
  decide +kernel

/-- 3 × −2 in the INT32 accumulator of element (0, 0); every other sum is 0 (03 R67, R77). -/
theorem test_mmaz_i8 :
    let u := after (.mmaz 0) i8State
    let v := after (.mmaComplete 0) u
    (tileAt u 0).mx.busy.map (·.bank) = some 0 ∧ (tileAt v 0).mx.acc0 = [(0, 0xFFFFFFFA)] ∧ (tileAt v 0).mx.busy = none ∧
      (tileAt v 0).q.mxq = [] := by decide +kernel

theorem witness_product_completes :
    let e := { mmaEntry with sent := true }
    let r : MmaRun := { bank := 0, zero := false, desc := [], touch := false, bad := false, was := [] }
    let s := tile0 { headTile 0 e with mx := { mxReset with busy := some r } }
    tileLive (tileAt s 0) = true ∧ headOf (tileAt s 0) 0 = some e ∧ e.sent = true ∧ (tileAt s 0).mx.busy = some r ∧
      arrSorted (bankArr (tileAt s 0).mx r.bank) = true ∧ r.bank < 2 := by decide +kernel

theorem witness_accsw :
    let e := entry (ins 0x12 0)
    (AtHead (headState 0 e) 0 0 0x12 e ∧ bankSt (headTile 0 e).mx (1 - fillBank (headTile 0 e).mx) = .idle ∧
      (headTile 0 e).mx.st0 = .fill) ∧
    (let s := tile0 { headTile 0 e with mx := { mxReset with st0 := .idle, st1 := .fill } }
     AtHead s 0 0 0x12 e ∧ bankSt (tileAt s 0).mx (1 - fillBank (tileAt s 0).mx) = .idle ∧ (tileAt s 0).mx.st0 ≠ .fill) ∧
    (let s := tile0 { headTile 0 e with mx := { mxReset with st1 := .drain } }
     AtHead s 0 0 0x12 e ∧ bankSt (tileAt s 0).mx (1 - fillBank (tileAt s 0).mx) ≠ .idle) := by decide +kernel

/-- ACCSW makes the FILL bank DRAIN and the other one FILL (03 R79). -/
theorem test_accsw :
    let u := after (.accsw 0) (headState 0 (entry (ins 0x12 0)))
    ((tileAt u 0).mx.st0, (tileAt u 0).mx.st1, (tileAt u 0).q.mxq.length) = (.drain, .fill, 0) := by decide +kernel

/-- A run of an empty program; a VSCAN without a scan instruction, refused (04 R97); a run in progress. -/
theorem witness_runs :
    (let e := entry (ins 0x18 0)
     AtHead (headState 1 e) 0 1 0x18 e ∧ e.sent = false ∧ runHeld (headTile 1 e) e = false ∧ runRefused (headTile 1 e) e false = none) ∧
    (let e := entry (ins 0x19 0)
     AtHead (headState 1 e) 0 1 0x19 e ∧ e.sent = false ∧ runHeld (headTile 1 e) e = false ∧
       (runRefused (headTile 1 e) e true).isSome = true) ∧
    (let s := after (.vrun 0) (headState 1 (entry (ins 0x18 0)))
     tileLive (tileAt s 0) = true ∧ (tileAt s 0).vx.run.isSome = true ∧ (tileAt s 0).vx.run.all (·.recPorts = []) = true) := by
  decide +kernel

theorem test_run_completes :
    let u := after (.runComplete 0) (after (.vrun 0) (headState 1 (entry (ins 0x18 0))))
    (tileAt u 0).vx.run = none ∧ (tileAt u 0).q.vxq = [] := by decide +kernel

/-! ## Streams -/

/-- A 64-byte descriptor from its 32-bit words. -/
def descBytes (ws : List Nat) : List Byte := (List.range 16).flatMap fun k => leBytes 4 (ws.getD k 0)

/-- An attribute descriptor: I8 to I8, local address 0x1000, relative deadline of dl ticks when dlm is 2. -/
def attrBytes (dlm dl : Nat) : List Byte :=
  descBytes [0x1000, 4 + 2 * 2 ^ 16 + 6 * 2 ^ 23, 0x3F800000, 0, 0, 0, dlm * 2 ^ 16 + 6 * 2 ^ 18, 0, dl, 0, 1]

/-- The last transfer: 4 elements from byte 0x4000 of tile 0's scratchpad, stride 1. -/
def xferBytes : List Byte := descBytes [0x4000, 0x0800 + 1 * 2 ^ 16 + 2 ^ 21, 4 + 1 * 2 ^ 24]

def strmEntry : QEntry := entry (ins 0x20 0)

/-- A STRM at the head; an attribute and a transfer descriptor at slot 0; four bytes at 0x4000; tagged slots as given. -/
def strmState (dlm dl : Nat) (treg : Arr W64) (tags : Arr Bool) : State :=
  let s := tile0 { headTile 2 strmEntry with pad := { padReset with treg := treg, tags := tags } }
  memPut (memPut s (padBase 0) (attrBytes dlm dl ++ xferBytes)) (padBase 0 + 0x4000) [1, 2, 3, 0xFF]

def chain0 (s : State) : Option Chain := (slotN (tileAt s 0).pad 0).chain

def fetched (s : State) : State := after (.descriptorFetch 0 0) (after (.strm 0) s)

theorem witness_chains :
    (AtHead (strmState 0 0 [] []) 0 2 0x20 strmEntry ∧ strmEntry.sent = false ∧ fld strmEntry.word 55 53 ≤ 5 ∧
      (slotN (tileAt (strmState 0 0 [] []) 0).pad (fld strmEntry.word 55 53)).chain = none) ∧
    (let s := after (.strm 0) (strmState 0 0 [] [])
     tileLive (tileAt s 0) = true ∧ tilePaused s 0 = false ∧ (chain0 s).isSome = true ∧
       ((chain0 s).all fun c => c.burst = [] ∧ slotEmptyAt s 0 (c.next / 8) = false ∧
         burstCheck c.loops 0 (fixDeadlines (shaftCount s) (fetchBurst (flushPad s 0 (64 * c.next) 512) 0 (8 - c.next % 8) c.next))
           (c.attr.map attrOf) c.row (if c.row = 0 then none else some c.count0) = none) = true) ∧
    (let s := after (.strm 0) (strmState 0 0 [(0, 2 ^ 25 + 2 ^ 12)] [])
     (chain0 s).isSome = true ∧ ((chain0 s).all fun c => c.burst = [] ∧ slotEmptyAt s 0 (c.next / 8) = true) = true) := by
  decide +kernel

/-- The transfer descriptor that slot 0's chain is at, with its attribute: what the statement's hypotheses say of them. -/
def atTransfer (s : State) (p : Chain → Move → Bool) : Bool :=
  match chain0 s with
  | none => false
  | some c0 =>
    let c := skipAttrs c0 8
    match c.burst, c.attr with
    | d :: _, some ad => tileLive (tileAt s 0) && !tilePaused s 0 && !c0.burst.isEmpty && p c (moveOf s 0 0 c (attrOf ad) d)
    | _, _ => false

/-- A transfer to accumulator bank 0, whose MMAZ before the STRM is in flight. -/
def bankHeldState : State :=
  let s := fetched (strmState 0 0 [] [])
  modTile s 0 fun t => { t with
    mx := { t.mx with busy := some { bank := 0, zero := true, desc := [], touch := false, bad := false, was := [] } }
    q := { t.q with mxq := [{ entry (ins 0x11 0) with seq := 0, sent := true }] }
    pad := { t.pad with slots := t.pad.slots.map fun x => { x with chain := x.chain.map fun c => { c with
      seq := 1, burst := c.burst.map fun d => if d.addr = 0 then { d with bytes := splice d.bytes 0 [0, 0, 0x20, 0, 0, 2] } else d } } } }

/-- Free bank and tags; a tagged and empty source slot; the same with the slot waiting and its tag full; a bank that is held. -/
theorem witness_transfers :
    atTransfer (fetched (strmState 0 0 [] [])) (fun c m =>
      moveBankFree (tileAt (fetched (strmState 0 0 [] [])) 0) c m.a && tagsLet (fetched (strmState 0 0 [] [])) m) = true ∧
    (slotN (tileAt (fetched (strmState 0 0 [] [])) 0).pad 0).tagw = false ∧
    atTransfer (fetched (strmState 0 0 [(0, 2 ^ 25 + 2 ^ 12 + 32)] [])) (fun c m =>
      moveBankFree (tileAt (fetched (strmState 0 0 [(0, 2 ^ 25 + 2 ^ 12 + 32)] [])) 0) c m.a &&
        !tagsLet (fetched (strmState 0 0 [(0, 2 ^ 25 + 2 ^ 12 + 32)] [])) m) = true ∧
    atTransfer bankHeldState (fun c m => !moveBankFree (tileAt bankHeldState 0) c m.a) = true := by decide +kernel

/-- DESCRIPTOR_COMPLETE on the tagged empty slot, then its tag becomes full. -/
def resumeState : State :=
  setSlotTag (after (.descriptorComplete 0 0) (fetched (strmState 0 0 [(0, 2 ^ 25 + 2 ^ 12 + 32)] []))) 0 32 true

theorem witness_resume :
    (slotN (tileAt resumeState 0).pad 0).tagw = true ∧
    atTransfer resumeState (fun c m => tagsLet resumeState m && moveBankFree (tileAt resumeState 0) c m.a &&
      (runMove (progress resumeState 0) m c.hdr).err.isNone) = true ∧
    ((chain0 resumeState).all fun c => !headWaits resumeState 0 c && resumeReady resumeState 0 0 c &&
      !goesFirst resumeState { tile := 0, place := 0, slots := waitedSlots resumeState 0 0 c }) = true := by decide +kernel

/-- The four bytes reach the local address, the chain ends, and the resumed one empties the source slot's tag (08 R186, R198, R203). -/
theorem test_transfer_moves :
    let u := after (.descriptorComplete 0 0) (fetched (strmState 0 0 [] []))
    memRead u (padBase 0 + 0x1000) 5 = [1, 2, 3, 0xFF, 0] ∧ chain0 u = none ∧ u.errs.ring = [] := by decide +kernel

theorem test_tag_wait_resumes :
    let u := after (.tagWaitResume 0 0) resumeState
    memRead u (padBase 0 + 0x1000) 4 = [1, 2, 3, 0xFF] ∧ chain0 u = none ∧ slotEmptyAt u 0 32 = true := by decide +kernel

/-- A relative deadline of 5 ticks fixed at the fetch, at count 0. -/
def deadlineState (c : W64) : State :=
  let s := fetched (strmState 2 5 [] [])
  { s with casc := { s.casc with count := c } }

def deadlineOf (s : State) : Option Nat := (chain0 s).bind fun c => (skipAttrs c 8).attr.bind (·.dl)

theorem witness_deadline :
    deadlineOf (deadlineState 4) = some 5 ∧ shaftCount (deadlineState 4) < 5 ∧
    deadlineOf (deadlineState 5) = some 5 ∧ 5 ≤ shaftCount (deadlineState 5) ∧ tilePaused (deadlineState 5) 0 = false ∧
    (chain0 (deadlineState 5)).map (·.missed) = some false ∧
    ((chain0 (deadlineState 5)).all fun c0 => let c := skipAttrs c0 8
      c.attr.any fun ad => governedLeft (deadlineState 5) 0 0 c.loops (attrOf ad) 32768 c.burst c.next) = true := by decide +kernel

/-- At its deadline, not before, and once (08 R213). -/
theorem test_deadline :
    let u := after (.deadlineMiss 0 0) (deadlineState 5)
    ((slotN (tileAt u 0).pad 0).dlmiss, (slotN (tileAt (after (.deadlineMiss 0 0) u) 0).pad 0).dlmiss,
      (slotN (tileAt (after (.deadlineMiss 0 0) (deadlineState 4)) 0).pad 0).dlmiss) = (1, 1, 0) := by decide +kernel

/-- STRW of 7 to word 0 of the descriptor at 64 × 2, of an attribute word with the reserved format code 8, and on a tagged empty slot. -/
theorem witness_strw :
    (let e := entry (ins 0x21 (2 * 2 ^ 41 + 7))
     AtHead (headState 2 e) 0 2 0x21 e ∧ slotEmptyAt (headState 2 e) 0 (64 * 2 / 512) = false ∧ e.sent = false ∧
       strwReserved (padBytes (headState 2 e) 0 128 64) 0 7 = false) ∧
    (let e := entry (ins 0x21 (2 * 2 ^ 41 + 1 * 2 ^ 37 + 2 ^ 17 + 2 ^ 26))
     AtHead (headState 2 e) 0 2 0x21 e ∧ slotEmptyAt (headState 2 e) 0 (64 * 2 / 512) = false ∧
       strwReserved (padBytes (headState 2 e) 0 128 64) 1 (2 ^ 17 + 2 ^ 26) = true) ∧
    (let e := entry (ins 0x21 (2 * 2 ^ 41 + 7))
     let s := tile0 { headTile 2 e with pad := { padReset with treg := [(0, 2 ^ 25 + 2 ^ 12)] } }
     AtHead s 0 2 0x21 e ∧ slotEmptyAt s 0 0 = true) := by decide +kernel

theorem test_strw_and_flush :
    memRead (after (.strw 0) (headState 2 (entry (ins 0x21 (2 * 2 ^ 41 + 3 * 2 ^ 37 + 0x0102))))) (padBase 0 + 128 + 12) 3 = [2, 1, 0] ∧
    (let s := tile0 { tileReset with pad := { padReset with wgb := [{ line := 1, bytes := [(5, 9)], ofRun := false, idle := 64 }] } }
     memByte (after (.wgbIdleFlush 0 1) s) (padBase 0 + 128 + 5) = 9 ∧ (tileAt (after (.wgbIdleFlush 0 1) s) 0).pad.wgb = [] ∧
       (tileAt (after (.wgbIdleFlush 0 0) s) 0).pad.wgb.length = 1) := by decide +kernel

/-- R193, R212: an attribute descriptor fetched behind the chain's end governs nothing and has no deadline. -/
theorem test_deadline_ends_with_chain :
    (let d := fun (n : Nat) => ({ addr := 16, bytes := leBytes 64 n, dl := none, missed := false } : Desc)
     let attr := d (2 * 2 ^ 48 + 2 ^ 209 + 5 * 2 ^ 256)
     let last := d (2 ^ 48 + 2 ^ 53)
     (fixDeadlines 10 [attr, last, attr]).map (·.dl) = [some 15, none, none]) := by
  decide +kernel

/-! ## Messages -/

/-- A SEND (or COMB) of one flit at byte 0x40 to queue 2 of tile 5, tag 9; payload register part unused. -/
def sendEntry (op : Nat) (hi : Nat) : QEntry :=
  { entry (ins op (2 * 2 ^ 36)) with a := BitVec.ofNat 64 (hi * 2 ^ 38 + 5 * 2 ^ 20 + 2 * 2 ^ 16 + 9) }

/-- A message of one flit from tile 0 to queue 2 of tile t, epoch e, generation g. -/
def msgTo (t e g kind : Nat) : Msg :=
  { ddev := 0, dtile := t, dq := 2, tag := 9, kind := kind, rank := 0, sdev := 0, stile := 0, epoch := e, dgen := g,
    payload := List.replicate 32 7 }

def netOf (m : Msg) (waiting hub : Bool) : NetMsg := { msg := m, waiting := waiting, age := 0, held := false, old := false, hub := hub }

def withNet (s : State) (ns : List NetMsg) : State := { s with net := ns }

theorem witness_send :
    (AtHead (headState 3 (sendEntry 0x28 0)) 0 3 0x28 (sendEntry 0x28 0) ∧ sendRefused false (sendEntry 0x28 0) = none ∧
      injectionFull (headState 3 (sendEntry 0x28 0)) 0 = false ∧ (sendEntry 0x28 0).sent = false) ∧
    (let e := { sendEntry 0x28 0 with sent := true }
     AtHead (headState 3 e) 0 3 0x28 e ∧ sendRefused false e = none ∧ injectionFull (headState 3 e) 0 = false) ∧
    (AtHead (headState 3 (sendEntry 0x28 1)) 0 3 0x28 (sendEntry 0x28 1) ∧ sendRefused false (sendEntry 0x28 1) = some 1) ∧
    (let s := withNet (headState 3 (sendEntry 0x2A 4095)) (List.replicate 5 (netOf (msgTo 1 1 0 0) true false))
     AtHead s 0 3 0x2A (sendEntry 0x2A 4095) ∧ sendRefused true (sendEntry 0x2A 4095) = none ∧ injectionFull s 0 = true) := by
  decide +kernel

/-- A SEND of 8 payload flits to the tile beside it stays at the head, its last flit beyond the 8 of the link (10 R265, R272). -/
theorem test_send_stays :
    let e := { entry (ins 0x28 (7 * 2 ^ 30)) with a := BitVec.ofNat 64 (1 * 2 ^ 20 + 2 * 2 ^ 16) }
    let s := after (.send 0) (headState 3 e)
    (headOf (tileAt s 0) 3).map (·.sent) = some true ∧ s.net.length = 1 ∧
      (headOf (tileAt (after (.send 0) { s with net := [] }) 0) 3).isNone = true := by decide +kernel

/-- A COMB carries its rank; the payload is the scratchpad's (06 R156). -/
theorem test_comb :
    let s := memPut (headState 3 (sendEntry 0x2A 4095)) (padBase 0 + 0x40) [0xAA]
    (after (.comb 0) s).net.map (fun n => [n.msg.dtile, n.msg.dq, n.msg.tag, n.msg.kind, n.msg.rank]) = [[5, 2, 9, 1, 4095]] ∧
    (after (.comb 0) s).net.map (fun n => n.msg.payload.take 2) = [[0xAA, 0]] := by decide +kernel

/-- A queue of one slot (16 positions) for payloads of 1 flit, with items. -/
def queueOf1 (items : List QItem) (lost : Nat) : RecvQueue :=
  { recvReset with w0 := BitVec.ofNat 64 (1 * 2 ^ 12), opened := true, items := items, wr := 2 * items.length, lost := lost }

def item (pos : Nat) (acq : Bool) : QItem := { pos := pos, flits := 2, skip := 0, tag := 9, stile := 4, sdev := 0, acq := acq }

def recvState (w : W64) (q2 q3 : RecvQueue) : State :=
  tile0 { headTile 3 (entry w) with net := { netReset with queues := [(2, q2), (3, q3)] } }

/-- RECV: nothing visible; 127 acquired; one visible. Paired. FREE: a lost acquisition; none acquired; one acquired. -/
theorem witness_recv :
    (let w := ins 0x29 (2 * 2 ^ 48)
     AtHead (recvState w (queueOf1 [] 0) recvReset) 0 3 0x29 (entry w) ∧ bitAt w 42 = false ∧ bitAt w 47 = false ∧ fld w 51 48 = 2 ∧
       visibleHead (queueOf1 [item 0 true] 0) = none ∧
       (visibleHead (queueOf1 (List.replicate 127 (item 0 true) ++ [item 2 false]) 0)).isSome = true ∧
       queueAcq (queueOf1 (List.replicate 127 (item 0 true) ++ [item 2 false]) 0) = 127 ∧
       queueAcq (queueOf1 (List.replicate 126 (item 0 true) ++ [item 2 false]) 0) = 126) ∧
    (let w := ins 0x29 (15 * 2 ^ 52 + 2 * 2 ^ 48 + 2 ^ 47 + 3 * 2 ^ 43)
     let q := queueOf1 [item 0 false] 0
     AtHead (recvState w q q) 0 3 0x29 (entry w) ∧ bitAt w 42 = false ∧ bitAt w 47 = true ∧ fld w 46 43 = 3 ∧ fld w 55 52 = 15 ∧
       visibleHead q = some (item 0 false)) ∧
    (let w := ins 0x29 (2 * 2 ^ 48 + 2 ^ 42)
     AtHead (recvState w (queueOf1 [item 0 true] 1) recvReset) 0 3 0x29 (entry w) ∧ bitAt w 42 = true ∧
       queueAcq (queueOf1 [item 0 false] 0) = 0 ∧ queueAcq (queueOf1 [item 0 true] 0) ≠ 0) := by decide +kernel

/-- The header of RECV (06 R157), paired at s15 and s0; FREE removes the acquired message. -/
theorem test_recv :
    let w := ins 0x29 (15 * 2 ^ 52 + 2 * 2 ^ 48 + 2 ^ 47 + 3 * 2 ^ 43)
    let u := after (.recvPair 0) (recvState w (queueOf1 [item 0 false] 0) (queueOf1 [item 0 false] 0))
    (arrGet (tileAt u 0).sq.s 15 0, arrGet (tileAt u 0).sq.s 0 0) = (0x10000400009, 0x10000400009) ∧
    (queueN (tileAt (after (.recvFree 0) (recvState (ins 0x29 (2 * 2 ^ 48 + 2 ^ 42)) (queueOf1 [item 0 true, item 2 false] 0)
      recvReset)) 0).net 2).items = [item 2 false] := by decide +kernel

/-- Tile 5 with EPOCH 1 and queue 2 as given; message m first on its way to it. -/
def arriving (q : RecvQueue) (m : Msg) : State :=
  withNet (setTile State.reset 5 { tileReset with net := { netReset with epoch := 1, queues := [(2, q)] } }) [netOf m false false]

abbrev CanArrive (s : State) (m : Msg) : Prop :=
  s.net[0]? = some (netOf m false false) ∧ m.ddev = deviceId s ∧ tileRetired s m.dtile = false ∧ mayLeave s 0 (netOf m false false) = true ∧
    tilePaused s m.dtile = false ∧ drainingOut s m = false

/-- Wrong epoch; wrong generation; closed queue; too long; a kind the queue does not take; accepted, plain and combining. -/
theorem witness_arrivals :
    (∀ m ∈ [msgTo 5 2 0 0, msgTo 5 1 1 0, msgTo 5 1 0 0, msgTo 5 1 0 1], CanArrive (arriving (queueOf1 [] 0) m) m) ∧
    (let n := (tileAt (arriving (queueOf1 [] 0) (msgTo 5 1 0 0)) 5).net
     epochOk n 2 = false ∧ epochOk n 1 = true ∧ n.gen = 0) ∧
    qDeclared recvReset = false ∧ qDeclared (queueOf1 [] 0) = true ∧
    qMaxFlits (queueOf1 [] 0) < msgFlits { msgTo 5 1 0 0 with payload := List.replicate 64 7 } ∧
    msgFlits (msgTo 5 1 0 0) ≤ qMaxFlits (queueOf1 [] 0) ∧ kindBad (queueOf1 [] 0) (msgTo 5 1 0 1) = true ∧
    kindBad (queueOf1 [] 0) (msgTo 5 1 0 0) = false ∧
    kindBad { queueOf1 [] 0 with w0 := BitVec.ofNat 64 (2 ^ 12 + 2 * 2 ^ 36) } (msgTo 5 1 0 1) = false := by decide +kernel

/-- The first accepted message stands at position 0 of two flits; a late one counts LENGTH (10 R255, R264). -/
theorem test_arrivals :
    (let u := after (.dataMessage 0) (arriving (queueOf1 [] 0) (msgTo 5 1 0 0))
     (queueN (tileAt u 5).net 2).items.map (fun i => (i.pos, i.flits, i.tag)) = [(0, 2, 9)] ∧ u.net = []) ∧
    (let u := after (.dataMessage 0) (arriving (queueOf1 [] 0) { msgTo 5 1 0 0 with payload := List.replicate 64 7 })
     (arrGet (tileAt u 5).net.spoil 2 0, u.ctl) = (1, [.notice 0 0 2 0 5 2 9])) := by decide +kernel

theorem witness_stored_whole :
    let s := arriving (queueOf1 [] 0) (msgTo 5 1 0 0)
    arrSorted s.tiles = true ∧ arrSorted (tileAt s 5).net.queues = true ∧ (tileAt s 5).pad.wgb = [] ∧
      (queueN (tileAt s 5).net 2).spilling = false ∧ roomFor (queueN (tileAt s 5).net 2) (msgFlits (msgTo 5 1 0 0) + 1) = true := by
  decide +kernel

/-- A combining queue in free mode that sums n contributions. -/
def sumQueue (n : Nat) : RecvQueue := { recvReset with w0 := BitVec.ofNat 64 (2 ^ 12 + 2 * 2 ^ 36 + (n - 1) * 2 ^ 39), opened := true }

/-- A first contribution of two, and one that completes its tag, with a tag place free and room for the sum. -/
theorem witness_stored_contribution :
    let m := msgTo 5 1 0 1
    (∀ n ∈ [1, 2], let s := arriving (sumQueue n) m
      CanArrive s m ∧ m.kind = 1 ∧ arrSorted s.tiles = true ∧ arrSorted (tileAt s 5).net.queues = true ∧ kindBad (sumQueue n) m = false ∧
        msgFlits m ≤ qMaxFlits (sumQueue n) ∧ (sumQueue n).tags.length < qTags (sumQueue n)) ∧
    qContribs (sumQueue 1) = 1 ∧ qContribs (sumQueue 2) = 2 ∧ roomFor (sumQueue 1) (msgFlits m + 1) = true := by decide +kernel

/-- One of two contributions is held in its tag; the second ends the tag with one message under it (10 R266, R268). -/
theorem test_contributions :
    let m := msgTo 5 1 0 1
    let u := after (.contribution 0) (arriving (sumQueue 2) m)
    let v := after (.contribution 0) { u with net := [netOf { m with rank := 1 } false false] }
    ((queueN (tileAt u 5).net 2).tags.map (·.count), (queueN (tileAt u 5).net 2).items.length) = ([1], 0) ∧
      ((queueN (tileAt v 5).net 2).tags.length, (queueN (tileAt v 5).net 2).items.map (fun i => (i.tag, i.flits))) = (0, [(9, 2)]) := by
  decide +kernel

/-- Device 1 is a member and present. -/
def linked : State :=
  { State.reset with casc := { cascReset with ready := true, members := some 3, present := [0, 1] } }

def farMsg : Msg := { msgTo 5 1 0 0 with ddev := 1 }

theorem witness_refused_messages :
    (let s : State := { State.reset with ctl := [.notice 0 3 1 0 5 2 9] }
     s.ctl[0]? = some (.notice 0 3 1 0 5 2 9) ∧ deviceId s = 0) ∧
    (let s : State := { linked with ctl := [.notice 1 3 1 0 5 2 9] }
     s.ctl[0]? = some (.notice 1 3 1 0 5 2 9) ∧ deviceId s ≠ 1) ∧
    (let s : State := { arriving (queueOf1 [] 0) (msgTo 5 1 0 0) with retired := [5] }
     s.net[0]? = some (netOf (msgTo 5 1 0 0) false false) ∧ (msgTo 5 1 0 0).ddev = deviceId s ∧ tileRetired s 5 = true) ∧
    (∀ s ∈ [withNet State.reset [netOf farMsg false true], withNet linked [netOf farMsg false true]],
      s.net[0]? = some (netOf farMsg false true) ∧ farMsg.sdev = deviceId s ∧ farMsg.ddev ≠ deviceId s ∧
        mayLeave s 0 (netOf farMsg false true) = true ∧ s.casc.heldFor.contains farMsg.ddev = false ∧
        (countOutbound (progress { s with net := dropAt s.net 0 } 0) farMsg).2 = true) ∧
    deviceReady State.reset = false ∧ deviceReady linked = true ∧ inMembers linked 1 = true ∧ linked.casc.present.contains 1 = true ∧
    (let s := withNet State.reset [{ netOf (msgTo 5 1 0 0) false false with held := true }]
     s.net.all (fun n => n.held) = true) := by decide +kernel

/-- A send notice counts at the sender and writes SEND_TO_CLOSED (10 R262). -/
theorem test_notice :
    let u := after (.sendNotice 0) { State.reset with ctl := [.notice 0 3 1 0 5 2 9] }
    (arrGet (tileAt u 3).net.spoil 7 0, u.errs.ring.map fun r => (r.status, r.sev, r.loc1, r.detail)) =
      (1, [(stSendToClosed, 1, 5, [1, 0, 5, 2, 9])]) := by decide +kernel

/-- A plain queue with a spill area whose message has waited SPTHR = 3 M-cycles. -/
def spillState (age : Nat) : State :=
  withNet (setTile State.reset 5 { tileReset with net := { netReset with epoch := 1, queues := [(2, { queueOf1 [] 0 with
    w2 := BitVec.ofNat 64 (3 * 2 ^ 24 + 2 ^ 12) })] } }) [{ netOf (msgTo 5 1 0 0) true false with age := age }]

/-- A tile whose MXQ head is a RECV-like wait: NXQ holds a RECV with nothing visible, and the limit is reached. -/
def stuckState : State :=
  tile0 { headTile 3 (entry (ins 0x29 (2 * 2 ^ 48))) with
    net := { netReset with npCount := 0x10000, queues := [(2, queueOf1 [] 0)] } }

theorem witness_spill_reset_timeout :
    (let q := queueN (tileAt (spillState 3) 5).net 2
     qMode q = 0 ∧ fld q.w2 23 12 ≠ 0 ∧ q.spilling = false ∧ fld q.w1 16 0 = 0 ∧ fld q.w2 55 24 = 3 ∧
       (spillState 3).net.any (fun m => m.waiting && m.msg.dtile = 5 && m.msg.dq = 2 && decide (3 ≤ m.age)) = true) ∧
    overThreshold (after (.queuePointerReset (.tileQ 5 2)) (arriving (queueOf1 [item 0 true] 0) (msgTo 5 1 0 0))) (.queue 5) = false ∧
    (launchOn State.reset 5).all (fun x => !imageRpl x.img) = true ∧
    tileLive (tileAt stuckState 0) = true ∧ tilePaused stuckState 0 = false ∧ (tileAt stuckState 0).net.npLimit ≠ 0 ∧
    (tileAt stuckState 0).net.npLimit.toNat ≤ (tileAt stuckState 0).net.npCount ∧
    (deadlockWait stuckState 0 (tileAt stuckState 0)).isSome = true := by decide +kernel

theorem test_spill_and_deadlock :
    (queueN (tileAt (after (.spill 5 2) (spillState 3)) 5).net 2).spilling = true ∧
    (queueN (tileAt (after (.spill 5 2) (spillState 2)) 5).net 2).spilling = false ∧
    (after (.noProgressTimeout 0) stuckState).errs.ring.map (·.status) = [stDeadlock] ∧
    (queueN (tileAt (after (.queuePointerReset (.tileQ 5 2)) (arriving (queueOf1 [item 0 true] 0) (msgTo 5 1 0 0))) 5).net 2).lost = 1 := by
  decide +kernel

/-! ## Tallies, barriers and work counters -/

/-- Virtual tally 1 is physical tally 2 of Level 0, limit lim. -/
def mapped (lim : Nat) : Arr W64 := [(1, BitVec.ofNat 64 (2 ^ 14 + 2 + lim * 2 ^ 16))]

/-- The tally holds v with waiters ws; op of tile 0's MXQ is on its way. -/
def tallyState (lim v : Nat) (ws : List Waiter) (op n : Nat) : State :=
  { State.reset with
    tmap := mapped lim
    levels := [{ levelReset with tally := [(2, { value := BitVec.ofNat 24 v, fault := false, waiters := ws })] }, levelReset, levelReset, levelReset]
    ctl := [.tallyOp 0 op 1 n 0 0] }

theorem witness_tally_instructions :
    (let e := entry (ins 0x30 (1 * 2 ^ 32 + 5))
     AtHead (headState 0 e) 0 0 0x30 e ∧ earlierDone (headTile 0 e) 0 e = true) ∧
    (let e := entry (ins 0x32 (4 * 2 ^ 53 + 1 * 2 ^ 32 + 5))
     AtHead (headState 4 e) 0 4 0x32 e ∧ earlierDone (headTile 4 e) 4 e = true) ∧
    (let e := entry (ins 0x31 (1 * 2 ^ 32 + 5))
     AtHead (headState 0 e) 0 0 0x31 e ∧ e.sent = false ∧ AtHead (headState 0 { e with sent := true }) 0 0 0x31 { e with sent := true }) ∧
    (let e := entry (ins 0x38 (2 * 2 ^ 40 + 1))
     AtHead (headState 4 e) 0 4 0x38 e ∧ e.sent = false ∧ AtHead (headState 4 { e with sent := true }) 0 4 0x38 { e with sent := true }) ∧
    (let e := entry (ins 0x34 67)
     AtHead (headState 0 e) 0 0 0x34 e ∧ earlierDone (headTile 0 e) 0 e = true ∧
       (arrGet (headTile 0 e).net.arrived 67 (0, true)).2 = true ∧
       (let s := tile0 { headTile 0 e with net := { netReset with arrived := [(67, (0, false))] } }
        AtHead s 0 0 0x34 e ∧ (arrGet (tileAt s 0).net.arrived 67 (0, true)).2 = false)) := by decide +kernel

/-- Barrier 0 has members 0 and 1; TMO 4. -/
def bar0 (arr : List Nat) (first : Option Nat) : Barrier :=
  { en := true, phase := 7, tmo := 4, bmask := 1, tmask := [(0, 3)], arr := arr, first := first, out := false }

def barState (arr : List Nat) (first : Option Nat) (s : State) : State :=
  { s with levels := [{ levelReset with bar := [(0, bar0 arr first)] }, levelReset, levelReset, levelReset] }

/-- Barrier 67 with members 0 and 1, in which this device takes part. -/
def cbarState (arr : List Nat) : State :=
  { State.reset with cbar := [(3, bar0 arr none)], casc := { cascReset with barpart := 8 }, ctl := [.arrival 0 67 0] }

theorem witness_bwait :
    (let e := entry (ins 0x35 0)
     AtHead (headState 0 e) 0 0 0x35 e ∧ barOk (headState 0 e) 0 0 = false ∧ barOk (barState [] none (headState 0 e)) 0 0 = true ∧
       AtHead (barState [] none (headState 0 e)) 0 0 0x35 e ∧ (arrGet (headTile 0 e).net.arrived 0 (0, true)).2 = true ∧
       (let s := barState [0] (some 0) (tile0 { headTile 0 e with net := { netReset with arrived := [(0, (7, false))] } })
        AtHead s 0 0 0x35 e ∧ barOk s 0 0 = true ∧ (arrGet (tileAt s 0).net.arrived 0 (0, true)).2 = false)) := by decide +kernel

/-- Each clause's operation: stale; subtraction covered and not; addition to the limit, past the limit, past 24 bits; a wait of more
than the limit, and within it. -/
theorem witness_tally_operations :
    (∀ s ∈ [tallyState 0 5 [] 1 5, tallyState 0 5 [] 1 6, tallyState 9 5 [] 0 4, tallyState 9 5 [] 3 5, tallyState 0 0xFFFFFF [] 0 1,
        tallyState 9 5 [] 2 10, tallyState 9 5 [] 2 9],
      s.ctl.length = 1 ∧ workEpoch s = 0 ∧ (mapEntry s 1).isSome = true) ∧
    mapEntry (tallyState 9 5 [] 0 4) 1 = some (0, 2, 9) ∧ (tallyAt (tallyState 9 5 [] 0 4) 0 2).value = 5 ∧
    tallyBehind (tallyState 9 5 [] 0 4).ctl 0 (.tallyOp 0 0 1 4 0 0) = false ∧
    (let w := ins 0x31 (1 * 2 ^ 32 + 5)
     let s := { headState 0 { entry w with sent := true } with ctl := [.twaitReply 0 0 1] }
     headIs (tileAt s 0) 0 0x31 = some { entry w with sent := true } ∧ leaveWait s 0 = false ∧ fld w 43 32 = 1) := by decide +kernel

/-- An addition serves the oldest waiters as far as the value reaches; one past the limit sets FAULT (11 R283, R285). -/
theorem test_tally_operations :
    (let s := tallyState 0 5 [.tile 1 0 1 6, .tile 2 0 1 4] 0 3
     let u := after (.tallyOperation 0) s
     (tallyAt u 0 2).value = 2 ∧ (tallyAt u 0 2).waiters = [.tile 2 0 1 4] ∧ u.ctl = [.twaitReply 1 0 1]) ∧
    (let u := after (.tallyOperation 0) (computing (tallyState 9 5 [] 0 5))
     u.jobs.map (·.state) = [.failed] ∧ u.errs.ring.map (·.status) = [stTallyOverflow]) := by decide +kernel

theorem witness_waiters : (serveWaiters 7 [.tile 0 0 1 3, .tile 1 0 1 5]).2.1.head? = some (.tile 1 0 1 5) := by decide +kernel

theorem witness_barriers :
    (let s := { State.reset with ctl := [.arrival 0 0 0] }
     s.ctl[0]? = some (.arrival 0 0 0) ∧ barOk s 0 0 = false ∧ barOk (barState [] none s) 0 0 = true ∧
       missing { bar0 [] none with arr := [0] } ≠ [] ∧ missing { bar0 [1] none with arr := [0, 1] } = []) ∧
    barOk (cbarState []) 67 0 = true ∧
    (let s := { State.reset with ctl := [.release 0 0 7] }
     s.ctl[0]? = some (.release 0 0 7)) ∧
    (let s := { barState [0] (some 1) State.reset with casc := { cascReset with count := 5 } }
     (barrierAt s 0).first = some 1 ∧ (barrierAt s 0).en = true ∧ (barrierAt s 0).tmo ≠ 0 ∧ 1 + (barrierAt s 0).tmo.toNat ≤ shaftCount s) := by
  decide +kernel

/-- The last arrival advances the phase and sends a release to both members; the DEADLOCK record names the missing tile 1 (11 R291). -/
theorem test_barriers :
    (let u := after (.barrierArrival 0) (barState [1] (some 0) { State.reset with ctl := [.arrival 0 0 0] })
     (barrierAt u 0).phase = 8 ∧ (barrierAt u 0).arr = [] ∧ u.ctl.length = 2) ∧
    (barrierAt (after (.barrierArrival 0) (cbarState [1])) 67).out = true ∧
    (let s := { barState [0] (some 1) State.reset with casc := { cascReset with count := 5 } }
     (after (.barrierTimeout 0) s).errs.ring.map (fun r => (r.status, r.detail.getD 1 0)) = [(stDeadlock, 0xFFFF0001)]) := by
  decide +kernel

def ctrState (x : WorkCtr) (inc : Nat) : State :=
  { State.reset with levels := [{ levelReset with ctr := [(2, x)], home := [(0, 100), (1, 1)] }, levelReset, levelReset, levelReset]
                     ctl := [.fetch 0 2 inc 4] }

def plainCtr (v : Nat) : WorkCtr := { value := BitVec.ofNat 32 v, task := false, hbase := 0, hcnt := 0, radius := 0, taken := [] }

def taskCtr (taken : List Nat) : WorkCtr := { value := 0, task := true, hbase := 0, hcnt := 2, radius := 1, taken := taken }

theorem witness_work :
    (ctrAt (ctrState (plainCtr 0xFFFFFFFE) 1) (levelOf 0) 2).value.toNat + 1 ≤ 0xFFFFFFFF ∧
    0xFFFFFFFF < (ctrAt (ctrState (plainCtr 0xFFFFFFFE) 2) (levelOf 0) 2).value.toNat + 2 ∧
    (let s := ctrState (taskCtr []) 1
     let x := ctrAt s (levelOf 0) 2
     x.task = true ∧ homeOk x = true ∧ pickTask (substT s) (levelN s 0).home x 0 = some 1) ∧
    (let s := ctrState (taskCtr [0, 1]) 1
     pickTask (substT s) (levelN s 0).home (ctrAt s 0 2) 0 = none) ∧
    (let w := ins 0x38 (4 * 2 ^ 52 + 2 * 2 ^ 40 + 1)
     let s := { headState 4 { entry w with sent := true } with ctl := [.fetchReply 0 3 0 4] }
     s.ctl[0]? = some (.fetchReply 0 3 0 4) ∧ headIs (tileAt s 0) 4 0x38 = some { entry w with sent := true } ∧ leaveWait s 0 = false) ∧
    (let s := tile0 { tileReset with sq := { seqReset with st := .halted } }
     (tileAt s 0).sq.st = .halted ∧ (tileAt s 0).sq.fault = false ∧ tileDrained (tileAt s 0) = true ∧ tilePaused s 0 = false) := by
  decide +kernel

/-- The nearest task within the radius comes before task 0 (11 R298); a finished tile closes its queues (06 R139). -/
theorem test_work :
    (after (.workFetch 0) (ctrState (taskCtr []) 1)).ctl = [.fetchReply 0 1 0 4] ∧
    (after (.workFetch 0) (ctrState (plainCtr 9) 5)).ctl = [.fetchReply 0 9 0 4] ∧
    (let s := tile0 { tileReset with sq := { seqReset with st := .halted }, net := { netReset with queues := [(2, queueOf1 [] 0)] } }
     (queueN (tileAt (after (.tileFinished 0) s) 0).net 2).opened = false) := by decide +kernel

/-! ## Commands and queues -/

/-- A packet with this opcode and job, and fields given by offset, size and value. -/
def pkt (op job : Nat) (fs : List (Nat × Nat × Nat)) : Packet :=
  { ticket := 0, port := 0, sq := 0, sqhead := 1
    bytes := (fs ++ [(0, 2, op), (2, 1, 1), (0x0A, 2, job)]).foldl (fun b (f : Nat × Nat × Nat) => splice b f.1 (leBytes f.2.1 f.2.2)) (List.replicate 64 0)
    sent := false, count := 0, drop := false, sub := none, res := none, away := false, fast := false }

def withPkt (x : Packet) (s : State) : State := { s with out := [x], ticket := 1 }

/-- PF0 of port 0 is up, with SQ 0 and CQ 0 of 16 entries enabled in host memory at 0x1000 and 0x2000. -/
def hostUp (s : State) : State :=
  { s with ports := [{ portReset with
      link := true, perst := false
      sq := { sqReset with base := 0x1000, cfg := BitVec.ofNat 64 (15 + 2 ^ 17) } :: List.replicate 16 sqReset
      cq := { cqReset with base := 0x2000, cfg := BitVec.ofNat 64 (15 + 2 ^ 23) } :: List.replicate 16 cqReset }, portReset] }

def aReply (n : Nat) : Reply :=
  { htag := n, status := 0, sq := 0, async := false, detail := 0, sqhead := 0, job := 0, r0 := 0, r1 := 0, shaft := none }

theorem witness_queue_registers :
    hostReaches (hostUp State.reset) 0 0 = true ∧ sqEn (sqN (portN (hostUp State.reset) 0) 0) = true ∧
    cqEn (cqN (portN (hostUp State.reset) 0) 0) = true ∧ sqSize (sqN (portN (hostUp State.reset) 0) 0) = 16 ∧
    cqSize (cqN (portN (hostUp State.reset) 0) 0) = 16 ∧
    (let x := sqN (portN (hostUp State.reset) 0) 1
     let m := beMask 0xFF &&& BitVec.ofNat 64 0x7FFFF
     bitAt (merge64 x.cfg (BitVec.ofNat 64 (15 + 2 ^ 17)) m) 17 = true ∧ bitAt x.cfg 17 = false ∧ bitAt (merge64 x.cfg 15 m) 17 = false) ∧
    (let x := cqN (portN (hostUp State.reset) 0) 1
     let m := beMask 0xFF &&& BitVec.ofNat 64 0xFFFFFFFFFFFF
     x.held = [] ∧ bitAt (merge64 x.cfg (BitVec.ofNat 64 (15 + 2 ^ 23)) m) 23 = true ∧ bitAt x.cfg 23 = false) ∧
    (let s := modCq (hostUp State.reset) 0 0 fun x => { x with held := [aReply 1], unsig := 1 }
     (cqN (portN s 0) 0).held = [aReply 1] ∧ cqOpen (portN s 0) (cqN (portN s 0) 0) = true ∧ (cqN (portN s 0) 0).unsig ≠ 0) := by
  decide +kernel

/-- The last index is taken; SIZE itself stops the queue with a queue error (14 R324, R327). -/
theorem test_doorbell :
    (sqN (portN (after (.sqTailDoorbell 0 0 15) (hostUp State.reset)) 0) 0).tail = 15 ∧
    (sqN (portN (after (.sqTailDoorbell 0 0 16) (hostUp State.reset)) 0) 0).err = true ∧
    (after (.sqTailDoorbell 0 0 16) (hostUp State.reset)).errs.ring.map (fun r => (r.sev, r.src)) = [(1, 0x0D)] ∧
    (after (.cqReplyWrite 0 0) (modCq (hostUp State.reset) 0 0 fun x => { x with held := [aReply 1] })).dma.map (fun w => (w.addr, w.bytes.length))
      = [(0x2000, 32)] := by decide +kernel

/-- A tail of 1, a NOP in slot 0, and a NOP of two slots. -/
def tailState (n : Nat) : State := modSq (hostUp State.reset) 0 0 fun y => { y with tail := n }

def nopBytes (len : Nat) : List Byte := [1, 0, BitVec.ofNat 8 len, 0, 0xEE] ++ List.replicate 59 0

theorem witness_packet_take :
    (tailState 1).module = .on ∧ (tailState 1).s3 = false ∧ (portN (tailState 1) 0).link = true ∧ nextSq (portN (tailState 1) 0) = some 0 ∧
    bitAt (sqN (portN (tailState 1) 0) 0).cfg 12 = false ∧ leAt (slice (nopBytes 2) 0 64) 2 1 = 2 ∧
    ((sqN (portN (tailState 1) 0) 0).tail + 16 - (sqN (portN (tailState 1) 0) 0).head) % 16 = 1 ∧ cpHeld (tailState 1) 0 < 256 ∧
    (let k := { pkt 1 0 [] with bytes := nopBytes 1 }
     devTest (tailState 1) k ≠ .forward ∧ (checkForm (tailState 1) k).isNone = true ∧ (checkJob (tailState 1) k).isNone = true) ∧
    (checkForm (tailState 1) (pkt 0xFFFF 0 [])).isSome = true ∧
    (let s := { tailState 2 with casc := { linked.casc with jports := [{ jportReset with trained := true }] } }
     let k := pkt 1 0 [(8, 1, 1)]
     ((sqN (portN (tailState 2) 0) 0).tail + 16 - (sqN (portN (tailState 2) 0) 0).head) % 16 = 2 ∧ (nopBytes 2).length = 64 ∧
       devTest s k = .forward ∧ (checkForm s k).isNone = true) ∧
    (checkForm (tailState 1) (pkt 0x0201 7 [])).isNone = true ∧ (checkJob (tailState 1) (pkt 0x0201 7 [])).isSome = true := by
  decide +kernel

theorem test_packet_take :
    (let u := after (.packetTake 0 0 (nopBytes 1)) (tailState 1)
     (u.out.map (·.ticket), (sqN (portN u 0) 0).head) = ([0], 1)) ∧
    (let u := after (.packetTake 0 0 (nopBytes 2)) (tailState 1)
     (u.out.length, (sqN (portN u 0) 0).head) = (0, 0)) := by decide +kernel

/-- BAR2 addresses a region of port 0's job 1 in LPDDR5X of Level 0 from its base. -/
def regionState (s : State) : State :=
  { computing (hostUp s) with
    regions := [{ base := 0x10000000000, gran := 1, tier := 1, level := 0, prot := 0, job := 1, port := 0, tw := false, hr := true, hw := true,
                  zero := true, salt := 0, fresh := 0 }]
    ports := (hostUp s).ports.map fun p => { p with apbase := 0x10000000000 } }

theorem witness_host_accesses :
    hostReaches (regionState State.reset) 0 0 = true ∧ 0 + accLen (.read 8) ≤ 2 ^ bar2Bits (portN (regionState State.reset) 0).pf0 ∧
    0 < accLen (.read 8) ∧
    (let a := (portN (regionState State.reset) 0).apbase.toNat / 2 ^ bar2Bits (portN (regionState State.reset) 0).pf0 *
        2 ^ bar2Bits (portN (regionState State.reset) 0).pf0
     isLpddr a = true ∧ isLpddr (a + 7) = true ∧ spanOk (regionState State.reset) 0 a 8 false = true ∧
       spanOk (regionState State.reset) 1 a 8 false = false ∧ lostIn (regionState State.reset) a 8 = none) ∧
    portComputes (regionState State.reset) 0 = true ∧ (portN (regionState State.reset) 0).perst = false ∧
    (portN State.reset 0).link = false ∧ (portN (hostUp State.reset) 0).link = true := by decide +kernel

theorem test_host_accesses :
    (let u := after (.bar2Access 0 4 (.read 4)) (memPut (regionState State.reset) 0x10000000004 [5, 6])
     u.answers.map (·.bytes) = [[5, 6, 0, 0]]) ∧
    (after (.hostFifoWrite 0 (List.replicate 64 3)) (hostUp State.reset)).ports.map (·.fifo.bytes.length) = [64, 0] := by decide +kernel

theorem witness_identification :
    Taken (withPkt (pkt 0x0001 0 []) State.reset) 0 0x0001 (pkt 0x0001 0 []) ∧
    Taken (withPkt (pkt 0x0002 0 [(0x10, 8, 0x5000)]) State.reset) 0 0x0002 (pkt 0x0002 0 [(0x10, 8, 0x5000)]) ∧
    Taken (withPkt (pkt 0x0003 0 []) State.reset) 0 0x0003 (pkt 0x0003 0 []) ∧
    (let x := pkt 0x0004 0 [(0x10, 2, 2), (0x14, 4, 3)]
     Taken (withPkt x State.reset) 0 0x0004 x ∧ (featRange (pfld x 0x10 2)).isSome = true) ∧
    (featRange 1).isSome = true ∧ featRange 0xFFFF = none ∧ feature { State.reset with feat := [(1, 1)] } 1 = 1 ∧
    (let x := pkt 0x0005 0 [(0x10, 2, 1)]
     Taken (withPkt x State.reset) 0 0x0005 x) := by decide +kernel

/-- A NOP posts one entry with status OK to CQ 0 (14 R329, R337). -/
theorem test_nop :
    (after (.nop 0) (withPkt (pkt 1 0 []) (hostUp State.reset))).dma.map (fun w => (w.addr, leAt w.bytes 4 2)) = [(0x2000, 0)] := by
  decide +kernel

def jobOpenPkt : Packet := pkt 0x0200 0 [(0x10, 1, 0)]

/-- A switch of job 1 has begun. -/
def switchDrains : State :=
  { computing State.reset with sw := some { job := 1, phase := .drain, forced := false, ticket := none, cause := 2, start := 0 } }

theorem witness_jobs :
    (Taken (withPkt jobOpenPkt State.reset) 0 0x0200 jobOpenPkt ∧ openField (withPkt jobOpenPkt State.reset) jobOpenPkt = none) ∧
    (let x := pkt 0x0200 0 [(0x10, 1, 1)]
     let s := withPkt x State.reset
     Taken s 0 0x0200 x ∧ openField s x = none ∧ (freeSlot s).isSome = true ∧ s.sec.rngWait = false ∧
       (saveArea s (pfld x 0x16 1)).isSome = true) ∧
    (let x := pkt 0x0201 1 []
     let s := withPkt x (computing State.reset)
     TakenJob s 0 0x0201 x job1 ∧ carryingQueue s x 1 = none ∧ switchOf s 1 = false) ∧
    (let x := pkt 0x0203 1 [(0x10, 8, 0x5000)]
     TakenJob (withPkt x (computing State.reset)) 0 0x0203 x job1 ∧ pfld x 0x18 1 = 0) ∧
    (let x := pkt 0x0203 0 [(0x10, 8, 0x5000), (0x18, 1, 1)]
     Taken (withPkt x State.reset) 0 0x0203 x ∧ pfld x 0x18 1 = 1) ∧
    (let x := pkt 0x0202 1 []
     TakenJob (withPkt x (computing State.reset)) 0 0x0202 x job1 ∧ job1.lc = false ∧ (computing State.reset).comp = some job1.id ∧
       TakenJob (withPkt x { State.reset with jobs := [job1] }) 0 0x0202 x job1) := by decide +kernel

theorem witness_preempt_joins :
    TakenJob (withPkt (pkt 0x0202 1 []) switchDrains) 0 0x0202 (pkt 0x0202 1 []) job1 ∧ switchDrains.sw.isSome = true ∧
      switchDrains.comp = some job1.id ∧ (pkt 0x0202 1 []).sent = false := by decide +kernel

theorem test_jobs :
    (after (.jobOpen 0) (withPkt jobOpenPkt State.reset)).jobs.map (fun j => (j.id, j.lc, j.state)) = [(1, true, .opened)] ∧
    (after (.jobClose 0) (withPkt (pkt 0x0201 1 []) (computing State.reset))).jobs = [] ∧
    (after (.jobPreempt 0) (withPkt (pkt 0x0202 1 []) (computing State.reset))).sw.isSome = true ∧
    (let u := after (.jobOpen 0) (withPkt (pkt 0x0200 0 [(0x10, 1, 1)]) State.reset)
     (u.jobs.map (·.key), u.keys.map (·.1), u.rng) = ([some 1], [0, 1], 8)) := by decide +kernel

/-! ## Regions, loads, sections, tallies of the host -/

/-- Job 1 computes and owns 4 granules at the base of Level 0's LPDDR5X. -/
def region0 : Region :=
  { base := 0x10000000000, gran := 4, tier := 1, level := 0, prot := 0, job := 1, port := 0, tw := true, hr := true, hw := true, zero := true,
    salt := 0, fresh := 0 }

def jobState (x : Packet) : State := withPkt x { computing State.reset with regions := [region0] }

theorem witness_regions :
    (let x := pkt 0x0100 1 [(0x10, 1, 1), (0x18, 4, 1)]
     TakenJob (jobState x) 0 0x0100 x job1 ∧ (jobState x).sec.rngWait = false ∧ createField (jobState x) x = none ∧ job1.key.isSome = true ∧
       (createBase (jobState x) x).toOption = some 0x10000800000) ∧
    (let x := pkt 0x0100 1 [(0x10, 1, 2), (0x18, 4, 1)]
     TakenJob (jobState x) 0 0x0100 x job1 ∧ createField (jobState x) x = some 0x10) ∧
    (let x := pkt 0x0100 1 [(0x10, 1, 1), (0x14, 1, 1), (0x18, 4, 1), (0x20, 8, 0x10000600000)]
     TakenJob (jobState x) 0 0x0100 x job1 ∧ createField (jobState x) x = none ∧ (createBase (jobState x) x).toOption = none) ∧
    (let x := pkt 0x0101 1 [(0x10, 8, 0x10000000000)]
     let s := { jobState x with comp := none }
     TakenJob s 0 0x0101 x job1 ∧ regionBase s 1 (pfld x 0x10 8) = some region0 ∧ boundQueue s region0 = none ∧
       regionLocked s region0.base = false ∧ jobRunning s 1 = false ∧
       (boundQueue (modSq s 0 3 fun q => { q with base := 0x10000000000, cfg := BitVec.ofNat 64 (2 ^ 17 + 2 ^ 12) }) region0) = some 3) ∧
    (let x := pkt 0x0104 1 [(0x10, 8, 0x10000000000), (0x18, 1, 5)]
     TakenJob (jobState x) 0 0x0104 x job1 ∧ regionBase (jobState x) 1 (pfld x 0x10 8) = some region0) := by decide +kernel

/-- The lowest free range after the four granules; the rights of REGION_PROTECT (09 R227, R230). -/
theorem test_regions :
    (after (.regionCreate 0) (jobState (pkt 0x0100 1 [(0x10, 1, 1), (0x18, 4, 1)]))).regions.map (·.base) = [0x10000000000, 0x10000800000] ∧
    (after (.regionProtect 0) (jobState (pkt 0x0104 1 [(0x10, 8, 0x10000000000), (0x18, 1, 5)]))).regions.map
      (fun r => (r.tw, r.hr, r.hw)) = [(true, false, true)] := by decide +kernel

theorem witness_transfers_of_the_host :
    (∀ x ∈ [pkt 0x0102 1 [(0x10, 8, 0x10000000000), (0x18, 8, 0x10000000100), (0x20, 8, 4)],
        pkt 0x0102 1 [(0x10, 8, 0x7000), (0x18, 8, 0x10000000100), (0x20, 8, 4), (0x28, 1, 1)],
        pkt 0x0102 1 [(0x10, 8, 0x10000000000), (0x18, 8, 0x7000), (0x20, 8, 4), (0x28, 1, 2)]],
      TakenJob (jobState x) 0 0x0102 x job1 ∧ copyField (jobState x) x = none) ∧
    lostIn State.reset 0x10000000000 4 = none ∧
    (let x := pkt 0x0103 1 [(0x10, 8, 0x10000000000), (0x18, 8, 9), (0x20, 8, 0x0807060504030201)]
     TakenJob (jobState x) 0 0x0103 x job1 ∧ spanOk (jobState x) 0 0x10000000000 9 true = true) := by decide +kernel

/-- FILL repeats its 8 bytes; COPY to the host writes what the device holds (14 R337). -/
theorem test_transfers_of_the_host :
    memRead (after (.fill 0) (jobState (pkt 0x0103 1 [(0x10, 8, 0x10000000000), (0x18, 8, 9), (0x20, 8, 0x0807060504030201)])))
      0x10000000000 10 = [1, 2, 3, 4, 5, 6, 7, 8, 1, 0] ∧
    (let x := pkt 0x0102 1 [(0x10, 8, 0x10000000000), (0x18, 8, 0x7000), (0x20, 8, 2), (0x28, 1, 2)]
     (after (.copy 0 []) (memPut (jobState x) 0x10000000000 [8, 9])).dma.map (fun w => (w.addr, w.bytes)) = [(0x7000, [8, 9])]) := by
  decide +kernel

/-- An image of tile 0 alone, EPOCH 1, without its digest: the header and a body of n records. -/
def imageBytes (body : List Byte) (n : Nat) : List Byte :=
  let h := [(0, 4, 0x37444C50), (4, 2, 1), (6, 1, 2), (7, 1, 1), (0x24, 4, n), (0x28, 8, body.length)].foldl
    (fun b (f : Nat × Nat × Nat) => splice b f.1 (leBytes f.2.1 f.2.2)) (List.replicate 256 0)
  h ++ body

/-- The SHA-384 of the first 64 bytes of the header without body, as another implementation computes it. -/
def imageDigest : Nat :=
  0xdc31bb71ff43631855e3ed97d13d3fb9a7dd1c4be2b1cfa3efdb38847b0940d9773b54080a81d87a394d73ede977eb41

/-- A command record WRITE of 32 bits: value 5 to TPHASE-free control offset 0 of tile t. -/
def writeRec (op t : Nat) : List Byte :=
  [2, BitVec.ofNat 8 op, 0, 0, 0, 0, 0, 0] ++ leBytes 8 (0x090000000000 + t * 0x10000) ++ leBytes 8 5 ++
    if op = 3 then leBytes 8 0 else []

def loadPkt (mode : Nat) : Packet := pkt 0x0300 1 [(0x10, 8, 0x10000000000), (0x20, 1, mode)]

def imageState (mode : Nat) (bytes : List Byte) : State := memPut (jobState (loadPkt mode)) 0x10000000000 bytes

def anImage (n size : Nat) : Image :=
  { job := 1, region := 0x10000000000, addr := 0x10000000000, size := size, rect := { x0 := 0, x1 := 0, y0 := 0, y1 := 0 }, epoch := 1, peer := 0,
    rpl := false, drain := 0, tmax := 0, draw := [0, 0, 0, 0], nrec := n, ity := 2 }

theorem witness_section_load :
    (∀ m ∈ [0, 1, 2], TakenJob (imageState m []) 0 0x0300 (loadPkt m) job1 ∧ pfld (loadPkt m) 0x20 1 = m) ∧
    (let s := imageState 0 (imageBytes [] 0)
     s.load = none ∧ s.comp = some 1 ∧ regionBase s 1 0x10000000000 = some region0 ∧ 0 + 256 ≤ visibleBytes region0 ∧ s.resets = [] ∧
       s.s2 = [] ∧ imageOf 1 region0.base (region0.base + 0) (memRead s region0.base 256) = anImage 0 256 ∧
       unquiesced s (anImage 0 256).rect = none) ∧
    (unquiesced (modTile (imageState 1 []) 0 fun t => { t with sq := { t.sq with st := .running } }) (anImage 0 256).rect) = some 0 := by
  decide +kernel

theorem witness_image_verified :
    (verifyImage (imageState 0 (splice (imageBytes [] 0) 0x40 (leBytes 48 imageDigest))) (anImage 0 256) (visibleBytes region0) true).isOk =
      true := by decide +kernel

theorem witness_image_refused : (verifyImage (imageState 0 []) (anImage 0 256) 4096 true).isOk = false := by decide +kernel

def loadingState (phase : LoadPhase) (r : List Byte) : State :=
  { memPut (imageState 0 []) 0x10000000100 r with
    load := some { ticket := 0, img := anImage 1 (256 + r.length), phase := phase, index := 0, off := 256, tokens := 0 } }

def recAt (r : List Byte) : Rec := { index := 0, bytes := r }

def recNow (s : State) : Option Rec := s.load.bind (nextRecord s)

/-- A frame of tile 0's instruction memory: TYPE 1, column 0, row 0, one row, 8 bytes. -/
def frameBytes (col : Nat) : List Byte := [1, 1, BitVec.ofNat 8 col, 0, 1, 0, 0, 0] ++ leBytes 4 0 ++ leBytes 4 8 ++ leBytes 8 (0x10 * 2 ^ 56)

theorem witness_records_that_lie :
    (∀ r ∈ [writeRec 1 0, writeRec 3 0, frameBytes 0], recNow (loadingState .write r) = some (recAt r) ∧
      recLies (anImage 1 (256 + r.length)) (recAt r) = true) ∧
    (∀ r ∈ [writeRec 1 1, writeRec 3 1, frameBytes 1], recNow (loadingState .write r) = some (recAt r) ∧
      recLies (anImage 1 (256 + r.length)) (recAt r) = false) ∧
    recFrame (recAt (frameBytes 0)) = true ∧ recOp (recAt (writeRec 1 0)) = 1 ∧ recOp (recAt (writeRec 3 0)) = 3 := by decide +kernel

def bcastRec (y : Byte) : List Byte := [2, 2, 0, 0, 0, y, 0, y] ++ leBytes 8 0 ++ leBytes 8 5

/-- A BCAST inside the image's tiles and one outside; a WAIT whose mask tests a bit that is 0. -/
theorem witness_bcast_and_wait :
    (recNow (loadingState .write (bcastRec 0)) = some (recAt (bcastRec 0)) ∧ recLies (anImage 1 280) (recAt (bcastRec 0)) = true) ∧
    (recNow (loadingState .write (bcastRec 1)) = some (recAt (bcastRec 1)) ∧ recLies (anImage 1 280) (recAt (bcastRec 1)) = false) ∧
    waitMet (loadingState .write (writeRec 3 0)) (recAt (writeRec 3 0)) = true ∧
    (let r := (writeRec 3 0).take 24 ++ leBytes 8 1
     recNow (loadingState .write r) = some (recAt r) ∧ waitMet (loadingState .write r) (recAt r) = false) := by decide +kernel

/-- A BCAST to tile 0's TREG0: FIRST 4,095 and COUNT 2 reach past the granules, COUNT 1 does not (08 R184). -/
def tregRec (count : Nat) : List Byte := [2, 2, 0, 0, 0, 0, 0, 0] ++ leBytes 8 0x300 ++ leBytes 8 (4095 + count * 4096)

theorem witness_records_that_break :
    recordBreaks (loadingState .write (writeRec 1 0)) [0] 0 (recAt (writeRec 1 0)) = none ∧
    recordBreaks (loadingState .write (bcastRec 0)) [0] 0 (recAt (bcastRec 0)) = none ∧
    (recNow (loadingState .write (tregRec 2)) = some (recAt (tregRec 2)) ∧ recLies (anImage 1 280) (recAt (tregRec 2)) = true ∧
      (recordBreaks (loadingState .write (tregRec 2)) [0] 0x300 (recAt (tregRec 2))).map (·.1) = some 0 ∧
      (loadingState .write (tregRec 2)).comp.isSome = true) ∧
    recordBreaks (loadingState .write (tregRec 1)) [0] 0x300 (recAt (tregRec 1)) = none := by decide +kernel

theorem witness_load_drain :
    unquiesced (loadingState .drain []) (anImage 1 256).rect = none ∧
    (unquiesced (modTile (loadingState .drain []) 0 fun t => { t with sq := { t.sq with st := .running } }) (anImage 1 256).rect) = some 0 := by
  decide +kernel

/-- The last record ends the load with OK and writes the frame's bytes (12 R303, R313). -/
theorem test_frame_record :
    let u := after .frameRecord (loadingState .write (frameBytes 0))
    u.load = none ∧ arrGet (tileAt u 0).sq.imem 0 0 = 0x1000000000000000 ∧ (tileAt u 0).net.epoch = 1 := by decide +kernel

def launchPkt (epoch : Nat) : Packet := pkt 0x0301 1 [(0x14, 1, epoch)]

/-- Tile 0 loaded with EPOCH 1. -/
def loadedTile : Tile := { tileReset with net := { netReset with epoch := 1 } }

def aLaunch (st : LaunchStage) (at_ tmo : Nat) : Launch :=
  { ticket := 0, job := 1, rect := { x0 := 0, x1 := 0, y0 := 0, y1 := 0 }, epoch := 1, at_ := at_, tmo := tmo, stage := st, img := none,
    started := [], stopped := 0, begin_ := 0, committed := false }

def launchState (st : LaunchStage) (at_ tmo : Nat) : State :=
  { setTile (jobState (launchPkt 1)) 0 loadedTile with launches := [aLaunch st at_ tmo], casc := { cascReset with count := 5 } }

theorem witness_sections :
    (TakenJob (jobState (launchPkt 0)) 0 0x0301 (launchPkt 0) job1 ∧ pfld (launchPkt 0) 0x14 1 = 0 ∧ (jobState (launchPkt 0)).comp = some 1) ∧
    (let s := { jobState (launchPkt 0) with comp := none }
     TakenJob s 0 0x0301 (launchPkt 0) job1 ∧ s.comp ≠ some 1) ∧
    (let x := pkt 0x0301 1 [(0x10, 1, 48), (0x14, 1, 1)]
     TakenJob (jobState x) 0 0x0301 x job1 ∧ rectField (pRect x) = some 0x10) ∧
    (TakenJob (jobState (launchPkt 1)) 0 0x0301 (launchPkt 1) job1 ∧ rectField (pRect (launchPkt 1)) = none ∧
      switching (jobState (launchPkt 1)) 1 = false ∧ loadMeets (jobState (launchPkt 1)) (pRect (launchPkt 1)) = false) ∧
    loadMeets (jobState (launchPkt 1)) (pRect (launchPkt 1)) = false := by decide +kernel

theorem witness_section_start :
    (∀ a ∈ [5, 6], let s := launchState .ready a 0
      s.launches.find? (·.ticket = 0) = some (aLaunch .ready a 0) ∧ s.resets = [] ∧ s.comp = some 1 ∧ switching s 1 = false ∧
        loadMeets s (aLaunch .ready a 0).rect = false ∧ imageRpl (aLaunch .ready a 0).img = false ∧
        launchBad s (launchTiles s (aLaunch .ready a 0).rect) 1 = none ∧ launchBad s (launchTiles s (aLaunch .ready a 0).rect) 2 = some 0) ∧
    (launchState .leave 0 9).launches.find? (·.ticket = 0) = some (aLaunch .leave 0 9) ∧
    (let x := pkt 0x0302 1 []
     TakenJob (jobState x) 0 0x0302 x job1 ∧ rectField (pRect x) = none) := by decide +kernel

theorem witness_section_commit :
    (let x := pkt 0x0303 1 []
     let s := { launchState .running 0 0 with
       out := [x], launches := [{ aLaunch .running 0 0 with ticket := 7, img := some { anImage 0 256 with rpl := true } }] }
     TakenJob s 0 0x0303 x job1 ∧ rectField (pRect x) = none ∧
       (s.launches.filter fun l => l.job = 1 && l.stage = .running && imageRpl l.img && rectsMeet l.rect (pRect x)) ≠ []) := by
  decide +kernel

/-- At its START count, not before; HALT ends the section with OK (14 R343). -/
theorem test_section_start :
    (tileAt (after (.sectionStart 0) (launchState .ready 5 0)) 0).sq.st = .running ∧
    (tileAt (after (.sectionStart 0) (launchState .ready 6 0)) 0).sq.st = .idle := by decide +kernel

def savePkt (op : Nat) : Packet := pkt op 1 [(0x18, 8, 0x10000000000)]

theorem witness_section_save :
    (let x := savePkt 0x0304
     let s := jobState x
     TakenJob s 0 0x0304 x job1 ∧ rectField (pRect x) = none ∧ switching s 1 = false ∧ rectTiles (pRect x) = [0] ∧
       tileRunning (tileAt s 0) = false ∧ (launchTiles s (pRect x)).length = 1 ∧ (saveLevels (pRect x)).length = 1 ∧
       hostRange s 0 (pfld x 0x18 8) (4096 + 2555904 + 2097152) true = true ∧ regionAt s 0x10000000000 = some region0) ∧
    (let x := savePkt 0x0305
     let s := memPut (jobState x) 0x10000000000 ((saveHeader (jobState x) 1 (pRect x) [0]).take 64)
     TakenJob s 0 0x0305 x job1 ∧ launchTiles s (pRect x) = [0] ∧ hostRange s 0 (pfld x 0x18 8) (saveSize 1 1) false = true ∧
       slice (memRead s 0x10000000000 64) 0 0x18 = slice (saveHeader s 1 (pRect x) [0]) 0 0x18 ∧
       slice (memRead s 0x10000000000 64) 0x20 1 = slice (saveHeader s 1 (pRect x) [0]) 0x20 1) := by decide +kernel

def dmaState (x : Packet) (n : Nat) : State :=
  modPort (jobState x) 0 fun p => { p with fifo := { fifoReset with bytes := List.replicate n 1, thr := 1 } }

theorem witness_host_tallies :
    (let x := pkt 0x0400 1 [(0x10, 2, 1), (0x12, 2, 1), (0x20, 8, 2 ^ 14)]
     TakenJob (jobState x) 0 0x0400 x job1 ∧ switchingNow (jobState x) = false ∧ jobRunning (jobState x) 1 = false ∧
       mapField (jobState x) x = none) ∧
    (let x := pkt 0x0400 1 [(0x10, 2, 1), (0x12, 2, 0)]
     TakenJob (jobState x) 0 0x0400 x job1 ∧ mapField (jobState x) x = some 0x12) ∧
    (let x := pkt 0x0401 1 [(0x10, 2, 4095), (0x14, 3, 1)]
     TakenJob (jobState x) 0 0x0401 x job1 ∧ pfld x 0x10 2 ≤ 4095 ∧ pfld x 0x17 1 = 0 ∧ replayRunning (jobState x) 1 = false) ∧
    (let x := pkt 0x0402 1 [(0x10, 2, 4095), (0x14, 3, 1)]
     TakenJob (jobState x) 0 0x0402 x job1 ∧ waitsOf (jobState x) 0 < 64) ∧
    (let x := pkt 0x0403 1 [(0x10, 1, 67), (0x11, 1, 1)]
     TakenJob (jobState x) 0 0x0403 x job1 ∧ (barrierAt (jobState x) 67).arr = []) := by decide +kernel

theorem witness_host_streams :
    (let x := pkt 0x0500 1 [(0x10, 8, 2303 * 2 ^ 20), (0x19, 1, 1), (0x20, 8, 32)]
     TakenJob (dmaState x 32) 0 0x0500 x job1 ∧ nbits (pfld x 0x10 8) 63 38 = 0 ∧ nbits (pfld x 0x10 8) 31 20 ≤ 2303 ∧
       (dmaState x 32).out.any (fun y => y.port = x.port && y.ticket ≠ 0 && y.sent && pOpcode y = 0x0500) = false ∧
       min (portN (dmaState x 32) 0).fifo.thr (32 / 32) ≤ fifoOcc (portN (dmaState x 32) 0).fifo) ∧
    (let x := pkt 0x0501 0 [(0x10, 4, 262144), (0x14, 4, 262143)]
     Taken (jobState x) 0 0x0501 x) ∧
    (let x := pkt 0x0501 0 [(0x10, 4, 262145)]
     Taken (jobState x) 0 0x0501 x ∧ 262144 < pfld x 0x10 4) := by decide +kernel

/-- TALLY_SIGNAL of the host is an operation on its way; STREAM_SUBMIT sends one message of one flit (14 R337, 22 R504). -/
theorem test_host_tallies :
    (after (.tallySignal 0) (jobState (pkt 0x0401 1 [(0x10, 2, 4095), (0x14, 3, 1)]))).ctl = [.tallyHost 0 0 4095 1] ∧
    (let u := after (.streamSubmit 0) (dmaState (pkt 0x0500 1 [(0x10, 8, 2303 * 2 ^ 20), (0x19, 1, 1), (0x20, 8, 32)]) 32)
     u.net.map (fun n => (n.msg.dtile, n.msg.payload.length)) = [(2303, 32)] ∧ (portN u 0).fifo.bytes = [] ∧ u.out = []) := by decide +kernel

/-! ## Transfers that wait, saves of a job that does not compute -/

/-- Nothing more may be booked in this window. -/
def bookedOut (s : State) : State := { s with power := { s.power with booked := 100000 } }

def zeroPkt : Packet := pkt 0x0100 1 [(0x10, 1, 1), (0x13, 1, 1), (0x18, 4, 1)]

/-- A region to be initialised: leave granted at once; leave awaited; the row that ends it (09 R229, 16 R377). -/
theorem witness_region_zeroed :
    TakenJob (jobState zeroPkt) 0 0x0100 zeroPkt job1 ∧ zeroPkt.sent = false ∧ createField (jobState zeroPkt) zeroPkt = none ∧
    hasAsked (startTransfer (jobState zeroPkt) 0 false [(0x10000800000, 0x200000)]) (.command 0) = false ∧
    hasAsked (startTransfer (bookedOut (jobState zeroPkt)) 0 false [(0x10000800000, 0x200000)]) (.command 0) = true ∧
    (let y := { zeroPkt with sent := true, count := 0x10000800000 }
     TakenJob (jobState y) 0 0x0100 y job1 ∧ y.sent = true) := by decide +kernel

theorem test_region_zeroed :
    let u := after (.regionCreate 0) (bookedOut (jobState zeroPkt))
    u.out.map (fun y => (y.sent, y.count)) = [(true, 0x10000800000)] ∧ u.regions.length = 2 ∧ (after (.regionCreate 0) u).out = [] := by
  decide +kernel

def copyPkt : Packet := pkt 0x0102 1 [(0x10, 8, 0x10000000000), (0x18, 8, 0x10000000100), (0x20, 8, 4)]

/-- A COPY that waits for leave, and is then in the region; one that has been sent; a stack that is lost under the source (18 R429). -/
theorem witness_transfer_waits :
    hasAsked (startTransfer (early (bookedOut (jobState copyPkt)) copyPkt) 0 false [(0x10000000000, 4), (0x10000000100, 4)]) (.command 0) = true ∧
    hasAsked (startTransfer (early (jobState copyPkt) copyPkt) 0 false [(0x10000000000, 4), (0x10000000100, 4)]) (.command 0) = false ∧
    (let y := { copyPkt with sent := true }
     TakenJob (jobState y) 0 0x0102 y job1 ∧ y.sent = true ∧ transferIn (jobState y) (region0.base, region0.gran * 0x200000) = true) ∧
    (lostIn { jobState copyPkt with retiredStack := [0] } 0 4).isSome = true ∧
    (let x := pkt 0x0104 1 [(0x10, 8, 0x10000000000), (0x18, 1, 1)]
     let s := modSq (jobState x) 0 3 fun q => { q with base := 0x10000000000, cfg := BitVec.ofNat 64 (2 ^ 17 + 2 ^ 12) }
     TakenJob s 0 0x0104 x job1 ∧ (nbit (pfld x 0x18 1) 1 && nbit (pfld x 0x18 1) 2) = false ∧ boundQueue s region0 = some 3) := by
  decide +kernel

/-- A COPY starts, waits, and moves its bytes in its next row (log 50). -/
theorem test_transfer_waits :
    let s := bookedOut (memPut (jobState copyPkt) 0x10000000000 [1, 2])
    let u := after (.copy 0 []) s
    memRead u 0x10000000100 2 = [0, 0] ∧ memRead (after (.copy 0 []) u) 0x10000000100 2 = [1, 2] := by decide +kernel

/-- An image whose first line lies in a lost stack; none under way when the job is leaving (09 R224, 15 R359). -/
theorem witness_load_lost :
    (let i := { anImage 0 256 with addr := 0 }
     (loadLost { imageState 0 [] with retiredStack := [0] } i 4096).isSome = true ∧ leaving (imageState 0 []) 1 = false ∧
       loadLost (imageState 0 (imageBytes [] 0)) (anImage 0 256) (visibleBytes region0) = none) ∧
    (let s := { loadingState .write (frameBytes 0) with retiredStack := [0] }
     let l : Load := { ticket := 0, img := { anImage 1 272 with addr := 0 }, phase := .write, index := 0, off := 256, tokens := 0 }
     (recordLost { s with load := some l } l).isSome = true ∧ (s.load.bind (recordLost s)) = none) := by decide +kernel

/-- A replayable launch at its count; SECTION_STOP of a job that is not scanned. -/
theorem witness_section_start_more :
    (let l := { aLaunch .ready 5 0 with img := some { anImage 0 256 with rpl := true } }
     let s := { launchState .ready 5 0 with launches := [l] }
     swapHolds s l = false ∧ imageRpl l.img = true ∧ launchBad s (launchTiles s l.rect) l.epoch = none ∧ l.at_ ≤ shaftCount s ∧
       s.launches.find? (·.ticket = l.ticket) = some l) ∧
    swapHolds (launchState .ready 5 0) (aLaunch .ready 5 0) = false ∧ scanning (jobState (pkt 0x0302 1 [])) 1 = false := by decide +kernel

/-- Job 1 does not compute, and has a saved state. -/
def savedJob : Job := { job1 with state := .preempted, saved := some (liveState State.reset [0] 3) }

def awayState (x : Packet) : State := { jobState x with jobs := [savedJob], comp := none }

/-- A save of a job that does not compute, and a restore into its saved state (15 R356). -/
theorem witness_saves_away :
    (let x := savePkt 0x0304
     TakenJob (awayState x) 0 0x0304 x savedJob ∧ (awayState x).comp ≠ some 1 ∧ savedJob.saved.isSome = true ∧
       tileRunning (tileAt (jobView (awayState x) savedJob) 0) = false ∧ launchTiles (jobView (awayState x) savedJob) (pRect x) = [0]) ∧
    (let x := savePkt 0x0305
     TakenJob (awayState x) 0 0x0305 x savedJob ∧ lostIn (awayState x) 0x10000000000 4096 = none) := by decide +kernel

/-! ## Cascade and Shaft bus -/

/-- A ready cascade of devices 0 and 1; this device is the Pithead, or Member 1. -/
def pithead (s : State) : State :=
  { s with casc := { s.casc with pith := true, id := 0, ready := true, members := some 3, present := [0, 1] } }

def member (s : State) : State :=
  { s with casc := { s.casc with pith := false, id := 1, ready := true, members := some 3, present := [0, 1] } }

def configPkt (topo members bar : Nat) : Packet := pkt 0x0600 0 [(0x10, 1, topo), (0x11, 1, bar), (0x18, 8, members)]

theorem witness_cascade_config :
    (∀ x ∈ [configPkt 3 3 0, configPkt 0 3 0, configPkt 0 5 0],
      Taken (pithead (withPkt x State.reset)) 0 0x0600 x ∧ (pithead (withPkt x State.reset)).casc.shdone = true ∧
        deviceReady (pithead (withPkt x State.reset)) = true ∧ (pithead (withPkt x State.reset)).casc.pith = true ∧
        pfld x 0x10 1 ≤ 3 ∧ nbit (pfld x 0x18 8) 0 = true) ∧
    ((List.range 64).filter (nbit 5)).find? (fun d => !([0, 1] : List Nat).contains d) = some 2 ∧
    (∀ d < 64, nbit 3 d = true → d ∈ [0, 1]) ∧
    (let x := configPkt 0 0 15
     Taken (member (withPkt x State.reset)) 0 0x0600 x ∧ (member (withPkt x State.reset)).casc.pith = false ∧
       deviceReady (member (withPkt x State.reset)) = true ∧ pfld x 0x20 4 = 0) := by decide +kernel

/-- A Member keeps only BARPART (17 R421). -/
theorem test_member_config :
    let u := after (.cascadeConfig 0) (member (withPkt (configPkt 0 0 15) State.reset))
    (u.casc.barpart, u.casc.members, u.out.length) = (15, some 3, 0) := by decide +kernel

theorem witness_cascade_forward :
    (let x := pkt 0x0601 0 [(0x10, 8, 2)]
     let s := pithead (withPkt x State.reset)
     Taken s 0 0x0601 x ∧ deviceReady s = true ∧ x.sent = false ∧ maskDevices 2 = [1] ∧ reachable s 1 = true) ∧
    (let x := pkt 0x0601 0 [(0x10, 8, 3)]
     let s := pithead (withPkt x State.reset)
     Taken s 0 0x0601 x ∧ (packetN (startForward s x true [0, 1]) 0).isSome = true) ∧
    (let x := { pkt 0x0601 0 [(0x10, 8, 2)] with sent := true }
     Taken (pithead (withPkt x State.reset)) 0 0x0601 x ∧ [(1, stOk)].find? (fun r => r.1 = 1) = some (1, stOk)) ∧
    (let x := { pkt 0x0601 0 [(0x10, 8, 6)] with sent := true }
     Taken (pithead (withPkt x State.reset)) 0 0x0601 x ∧ maskDevices 6 = [1, 2] ∧ reachable (pithead State.reset) 2 = false) := by
  decide +kernel

theorem test_cascade_forward :
    let x := { pkt 0x0601 0 [(0x10, 8, 6)] with sent := true }
    (after (.cascadeForward 0 [(1, stOk)]) (pithead (withPkt x (hostUp State.reset)))).dma.map (fun w => leAt w.bytes 4 2) =
      [stCascadeNotReady] := by decide +kernel

def cascJob : Job := { job1 with casc := true }

def collPkt : Packet :=
  pkt 0x0602 1 [(0x10, 8, 0x10000000000), (0x18, 8, 0x10000000100), (0x20, 8, 32), (0x28, 8, 3), (0x31, 1, 1)]

def collState : State :=
  pithead { jobState collPkt with
    jobs := [cascJob], colls := [(0, 0)], power := { powerReset with grants := [{ who := .command 0, lc := false, draw := [0, 0, 0, 0] }] } }

theorem witness_collective :
    TakenJob collState 0 0x0602 collPkt cascJob ∧ collectiveField collState collPkt cascJob = none ∧ deviceId collState = 0 ∧
    (∀ d ∈ maskDevices 3, d ∈ collState.casc.present) ∧ spanOk collState 0 0x10000000000 32 false = true ∧
    nbit (pfld collPkt 0x18 8) 63 = false ∧ spanOk collState 0 0x10000000100 32 true = true ∧
    collState.colls.any (fun c => c.1 = 0) = true ∧ hasGrant collState (.command 0) = true ∧ pfld collPkt 0x31 1 = 1 := by decide +kernel

/-- Leave not granted yet; a COLLECTIVE that begins, in free mode, with its leave granted at once. -/
theorem witness_collective_begins :
    collsRunning collState = [(0, 0)] ∧ lostIn collState 0x10000000000 32 = none ∧
    (let s := { collState with power := powerReset }
     hasGrant s (.command 0) = false ∧ hasGrant (bookedOut s) (.command 0) = false ∧
       hasGrant (askLeave (bookedOut s) (.command 0) false [30, 0, 0, 0]) (.command 0) = false) ∧
    (let s := { collState with power := powerReset, colls := [] }
     collsRunning s = [] ∧ neverAdmissible s.power [30, 0, 0, 0] = false ∧
       hasGrant (askLeave { early s collPkt with colls := [(0, 0)] } (.command 0) false [30, 0, 0, 0]) (.command 0) = true) := by
  decide +kernel

/-- The sum of the two devices' FP32 words: 1.0 + 2.0 = 3.0 (17 R407). -/
theorem test_collective :
    let s := memPut collState 0x10000000000 (leBytes 4 0x3F800000 ++ List.replicate 28 0)
    let u := after (.collective 0 [(1, leBytes 4 0x40000000 ++ List.replicate 28 0)]) s
    memRead u 0x10000000100 4 = leBytes 4 0x40400000 ∧ u.out = [] := by decide +kernel

def due (c : ShCmd) (s : State) : State := { s with casc := { s.casc with due := [c] } }

theorem witness_shaft_commands :
    (∀ c ∈ [ShCmd.freeze, .halt, .barrier, .mark], sampled (due c (pithead State.reset)) c = true ∧ sampled (member State.reset) c = true) ∧
    (pithead State.reset).casc.shfltSeen = false ∧ (pithead State.reset).module = .on ∧
    (let s := due .halt (pithead { computing State.reset with jobs := [cascJob] })
     sampled s .halt = true ∧ compJob s = some cascJob ∧ cascJob.casc = true) ∧
    (let s := due .mark (pithead State.reset)
     let s2 : State := { s with casc := { s.casc with staged := some 9 } }
     sampled s2 .mark = true ∧ s2.casc.staged = some 9) ∧
    (pithead State.reset).casc.due = [] ∧ shbarOut (pithead State.reset) 3 (barrierAt (pithead State.reset) 67) = true ∧ (pithead State.reset).casc.shflt = false ∧
    (let s : State := { State.reset with casc := { cascReset with acking := true } }
     s.casc.acking = true ∧ s.casc.ackTickets = [] ∧ s.resets = []) ∧
    cascReset.shdone = true ∧ cascReset.clash = false ∧ cascReset.ready = false ∧ cascReset.pith = true ∧
    (∀ j ∈ cascReset.jports, j.trained = false) := by decide +kernel

theorem test_shaft_commands :
    (let s := due .mark (pithead State.reset)
     (after .shcmdMark { s with casc := { s.casc with staged := some 9 } }).casc.count = 9) ∧
    (after .throttle (member State.reset)).power.throt = true ∧ (after .resume (after .throttle (member State.reset))).power.throt = false ∧
    (after .shcmdHalt (due .halt (pithead { computing State.reset with jobs := [cascJob] }))).jobs.map (·.state) = [.failed] := by
  decide +kernel

/-- Port 0 trained to device 1, having sent frame 0 and expecting frame 5. -/
def portUp (rx : Nat) (replay : List SentFrame) : State :=
  pithead { State.reset with casc := { cascReset with
    jports := { jportReset with trained := true, up := true, lanes := 4, dev := 1, rx := rx, tx := 1, replay := replay } ::
      List.replicate 11 jportReset } }

/-- Ratio 4 in force, 16 ticks owed. -/
def timed (skip : Nat) (stopped : Bool) : State :=
  { portUp 0 [] with casc := { (portUp 0 []).casc with
    ratio := 4, force := 4, refSkip := skip, owed := 16, stopped := stopped, refInterval := some 70 } }

theorem witness_shaft_time :
    (let s := { State.reset with casc := { cascReset with force := 4 } }
     s.casc.lost = false ∧ s.casc.pith = true ∧ s.casc.force ≠ 0 ∧ s.casc.owed = 0) ∧
    (State.reset.casc.stopped = false ∧ State.reset.casc.force = 0) ∧
    (∀ n ∈ [0, 1, 2], let s := timed n false
      s.casc.ratio ≠ 0 ∧ inCascade s = true ∧ s.casc.owed ≤ 16 ∧ s.casc.refSkip = n ∧ s.casc.stopped = false) ∧
    (let s := timed 0 true
     s.casc.stopped = true ∧ s.casc.refSkip = 0) ∧
    (let s := timed 0 false
     s.casc.refInterval = some 70 ∧ s.casc.stopped = false) ∧
    (compJob (member State.reset) = none ∧ (member State.reset).casc.lost = false ∧ (member State.reset).casc.pith = false) ∧
    ({ State.reset with casc := { cascReset with lost := true } } : State).casc.lost = true := by decide +kernel

/-- A tick adds 1; at a multiple of 600,000,000 an INTERVAL notice goes out (17 R411, 21 R484). -/
theorem test_shaft_tick :
    (after .shaftTick { State.reset with casc := { cascReset with count := 599999999 } }).notices = [.interval 600000000] ∧
    (after .shaftTick State.reset).casc.count = 1 := by decide +kernel

def aFrame (seq : Nat) : Frame := { ftype := 0, lvc := 0, seq := seq, sdev := 1, body := [] }

theorem witness_jorzin :
    (jportN (portUp 5 []) 0).trained = true ∧ (jportN (portUp 5 []) 0).up = true ∧ (portUp 5 []).casc.ready = true ∧
    (jportN (portUp 5 []) 0).rx = 5 ∧ ((jportN (portUp 5 []) 0).rx + 4096 - 4) % 4096 ≤ 2048 ∧
    2048 < ((jportN (portUp 5 []) 0).rx + 4096 - 6) % 4096 ∧ (jportN (portUp 5 []) 0).nacked = false ∧
    indexWhere (fun x : SentFrame => x.seq = 0) (jportN (portUp 5 [{ seq := 0, frame := aFrame 0 }]) 0).replay = some 0 ∧
    (jportN (pithead State.reset) 0).trained = false ∧ 1 % 64 ≠ deviceId State.reset ∧
    (let s := modJPort (portUp 5 []) 0 fun j => { j with retraining := true }
     (jportN s 0).retraining = true ∧ retrainOf s 0 = none) ∧
    1 ∈ (portUp 5 []).casc.present ∧ inMembers (portUp 5 []) 1 = true ∧ inMembers State.reset 1 = false ∧
    2 ∉ (portUp 5 []).casc.present ∧ deviceReady (portUp 5 []) = true ∧ unackedDests (portUp 5 []) = [] := by decide +kernel

/-- The RETRAIN of port 0 that a retraining belongs to; a far end with this device's ID; a held flow; a port wired against the topology. -/
theorem witness_jorzin_more :
    (let x := { pkt 0x0A04 0 [(0x10, 1, 2)] with sent := true }
     let s := withPkt x (modJPort (portUp 5 []) 0 fun j => { j with retraining := true })
     (jportN s 0).retraining = true ∧ retrainOf s 0 = some x) ∧
    64 % 64 = deviceId State.reset ∧
    (let s : State := { portUp 5 [] with casc := { (portUp 5 []).casc with heldFor := [1] } }
     1 ∉ unackedDests s ∧ 1 ∈ s.casc.heldFor) ∧
    (let s := modJPort (portUp 5 []) 0 fun j => { j with fport := 7 }
     (firstMismatch s 1 2).isSome = true ∧ ∀ d < 64, nbit 3 d = true → d ∈ s.casc.present) := by decide +kernel

theorem witness_retrain :
    ∀ x ∈ [pkt 0x0A04 0 [(0x10, 1, 0), (0x12, 2, 15)], pkt 0x0A04 0 [(0x10, 1, 1), (0x12, 2, 23)], pkt 0x0A04 0 [(0x10, 1, 2), (0x12, 2, 11)]],
      Taken (withPkt x State.reset) 0 0x0A04 x ∧ x.sent = false ∧ (jportN (withPkt x State.reset) 11).retraining = false := by decide +kernel

/-- An acknowledged frame leaves the replay buffer; a gap is answered by one nack (17 R402). -/
theorem test_jorzin :
    (jportN (after (.jorzinAck 0 0) (portUp 5 [{ seq := 0, frame := aFrame 0 }])) 0).replay = [] ∧
    (after (.jorzinFrame 0 (aFrame 6) true) (portUp 5 [])).casc.wire =
      [(0, [4, 0, 0, 0x80, 0xA0] ++ List.replicate 11 0 ++ [0xDD, 0x96, 0x16, 0xE0] ++ List.replicate 12 0)] ∧
    (after (.deviceLoss 1) (portUp 5 [])).casc.present = [0] := by decide +kernel

/-! ## Power, supply, heat, switches -/

theorem witness_power :
    (∀ x ∈ [pkt 0x0700 0 [(0x10, 4, 1001)], pkt 0x0700 0 [(0x10, 4, 995)], pkt 0x0700 0 [(0x10, 4, 3205)], pkt 0x0700 0 [(0x10, 4, 1000)],
        pkt 0x0700 0 [(0x10, 4, 3200)]], Taken (withPkt x State.reset) 0 0x0700 x ∧ pfld x 0x14 1 = 0) ∧
    powerReset.inlet = false ∧ State.reset.casc.pith = true ∧
    (let x := pkt 0x0700 0 [(0x10, 4, 6400), (0x14, 1, 1)]
     Taken (pithead (withPkt x State.reset)) 0 0x0700 x ∧ ((List.range 64).filter (inMembers (pithead State.reset))).length = 2) ∧
    (let x := pkt 0x0701 0 []
     Taken (withPkt x State.reset) 0 0x0701 x) ∧
    inMembers (pithead State.reset) 1 = true ∧ deviceReady (member State.reset) = true ∧ deviceId (member State.reset) = 1 ∧ (member State.reset).casc.pith = false := by decide +kernel

theorem test_power_ceiling :
    (after (.powerCeiling 0) (withPkt (pkt 0x0700 0 [(0x10, 4, 3200)]) State.reset)).power.ceil = 3200 ∧
    (after (.powerCeiling 0) (withPkt (pkt 0x0700 0 [(0x10, 4, 1001)]) State.reset)).power.ceil = 3000 ∧
    (after .rampWindow State.reset).power.window = 1 := by decide +kernel

def supply (last : Option Nat) (brown : Bool) : State := { State.reset with power := { powerReset with last := last, brown := brown } }

theorem witness_supply :
    feature State.reset 4 = 485 ∧ (supply none false).power.brown = false ∧
    (supply (some 484) false).power.last.any (fun u => decide (u < feature (supply (some 484) false) 4)) = true ∧
    ({ State.reset with module := .held } : State).module = .held ∧
    (supply (some 495) true).power.brown = true ∧ feature (supply (some 495) true) 4 + 10 ≤ 495 := by decide +kernel

/-- Two samples below BROWN_LEVEL enter the hold; one does not (16 R389). -/
theorem test_brownout :
    (after (.supplySample 399) (supply none false)).module = .off ∧ (after (.supplySample 400) (supply none false)).module = .held ∧
    (after (.supplySample 484) (supply (some 484) false)).power.brown = true ∧
    (after (.supplySample 484) (supply none false)).power.brown = false ∧
    (after .brownoutEnd (supply (some 495) true)).power.brown = false := by decide +kernel

def hot (e : Nat) : State :=
  { State.reset with power := { powerReset with heat := true, eHeat := [e, 16, 16, 16] } }

theorem witness_heat :
    (hot 15).power.heat = true ∧ hotNow (hot 15).power = false ∧
    ((List.range 4).filter fun n => decide ((hot 15).power.eHeat.getD n 16 < forceE (hot 15).power)) = [0] ∧
    grantedOn (hot 15).power 0 ≤ 16 * headroom (hot 15) ∧ ({ State.reset with module := .mrst } : State).module ≠ .off ∧
    State.reset.power.heat = false := by decide +kernel

theorem test_heat :
    (after (.thermalSample 0 105) State.reset).power.heat = true ∧ (after (.thermalSample 0 104) State.reset).power.heat = false ∧
    (after (.thermalSample 0 120) State.reset).module = .off ∧ (after .thermalRestoreStep (hot 15)).power.heat = false := by decide +kernel

def switchState (ph : SwPhase) (forced : Bool) (run : Bool) : State :=
  { computing State.reset with
    sw := some { job := 1, phase := ph, forced := forced, ticket := none, cause := 1, start := 0 }
    launches := if run then [aLaunch .running 0 0] else []
    jobs := [{ job1 with state := if ph = .restore then .preempted else .computing }]
    comp := if ph = .restore then none else some 1 }

theorem witness_switch :
    (waitingSwitch (switchState .wait true false)).isSome = true ∧
    (waitingSwitch (switchState .wait false false)).isSome = true ∧ runningOf (switchState .wait false false) 1 = [] ∧
    (waitingSwitch (switchState .wait false true)).isSome = true ∧ runningOf (switchState .wait false true) 1 ≠ [] ∧
    (switchState .wait false true).clock < 0 + feature (switchState .wait false true) 2 * 3600 ∧
    drained (switchState .drain false false) = true ∧ (switchState .scan false false).sw.map (·.phase) = some .scan ∧
    (let s := { switchState .restore false false with sw := none, beq := [1] }
     s.comp = none ∧ s.lcq = [] ∧ (jobOf s 1).map (·.state) = some .preempted) ∧
    (switchState .restore false false).sw.map (·.phase) = some .restore := by decide +kernel

/-- At the end of the scan the job is there; its save area lies in a lost stack; a restore likewise. -/
theorem witness_switch_scan :
    jobOf (switchState .scan false false) 1 = some job1 ∧ job1.casc = false ∧ areaLost (switchState .scan false false) job1 = false ∧
    areaLost { switchState .scan false false with retiredStack := [0] } { job1 with area := [0] } = true ∧
    (let s := switchState .restore false false
     (jobOf s 1).isSome = true ∧ areaLost s job1 = false ∧ s.errs.fatal = false ∧ decidedElsewhere s job1 = false) := by decide +kernel

/-- A decided switch of a forced job begins to drain; the preempted head of the queue is restored (15 R358, R362). -/
theorem test_switch :
    (after .forcedSwitch (switchState .wait true false)).sw.map (·.phase) = some .drain ∧
    (after .jobRestore { switchState .restore false false with sw := none, beq := [1] }).sw.map (·.phase) = some .restore := by
  decide +kernel

/-! ## Resets, power states, ports -/

def resetPkt (kind lvl tile : Nat) : Packet := pkt 0x0010 0 [(9, 1, lvl), (0x10, 1, kind), (0x12, 2, tile)]

def aReset (kind : Nat) (levels : List Nat) (tile : Nat) (ks : List Nat) : Reset :=
  { kind := kind, levels := levels, tile := tile, tickets := ks }

theorem witness_resets :
    (∀ x ∈ [resetPkt 0 0 0, resetPkt 1 1 0, resetPkt 2 0 2303, resetPkt 3 0 0],
      Taken (withPkt x State.reset) 0 0x0010 x ∧ x.sent = false ∧ (pfld x 0x10 1 = 1 ↔ pLvl x ≠ 0)) ∧
    (let x := { resetPkt 0 0 0 with port := 1 }
     Taken (withPkt x (computing State.reset)) 0 0x0010 x ∧ resetBusy (withPkt x (computing State.reset)) x (aReset 0 [] 0 [0]) = true) ∧
    resetBusy State.reset (resetPkt 0 0 0) (aReset 0 [] 0 [0]) = false ∧
    sampled (due .reset (pithead State.reset)) .reset = true ∧
    ({ State.reset with errs := { errsReset with reloading := [false, false, false, true] } } : State).errs.reloading.getD 3 false = true ∧
    resetVictim State.reset (aReset 0 [] 0 []) = none ∧
    (let s : State := { State.reset with resets := [aReset 2 [] 7 [3]] }
     (∀ a ∈ s.resets, widerReset a (aReset 0 [] 0 []) = false) ∧ s.resets[0]? = some (aReset 2 [] 7 [3]) ∧
       resetCovers (aReset 2 [] 7 [3]) 7 = true ∧ tileRetired s 7 = false) := by decide +kernel

/-- A WARM reset absorbs a TILE reset and takes over its reply; the release makes the tile IDLE (19 R446, R451). -/
theorem test_resets :
    (startReset { State.reset with resets := [aReset 2 [] 7 [3]] } (aReset 0 [] 0 [4]) 0 0).resets = [aReset 0 [] 0 [4, 3]] ∧
    (let s : State := { setTile State.reset 7 { tileReset with sq := { seqReset with st := .halted } } with resets := [aReset 2 [] 7 []] }
     ((tileAt (after (.resetRelease 0) s) 7).sq.st, (tileAt (after (.resetRelease 0) s) 7).net.gen) = (.idle, 1)) := by decide +kernel

theorem arrGet_const {α : Type} (v d : α) (t : Nat) : ∀ n a, a ≤ t → t < a + n → arrGet ((List.range' a n).map fun i => (i, v)) t d = v := by
  intro n
  induction n with
  | zero => intro a h1 h2; omega
  | succ n ih =>
    intro a h1 h2
    by_cases h : a = t
    · subst h; simp [List.range'_succ, arrGet]
    · have := ih (a + 1) (by omega) (by omega)
      simpa [List.range'_succ, arrGet, h, (by omega : ¬ t < a)] using this

/-- Every tile is in S1. -/
def asleep : State := { State.reset with tiles := (List.range' 0 2304).map fun t => (t, { tileReset with s1 := true }) }

theorem witness_enter_s2 : asleep.comp = none ∧ 0 ∉ asleep.s2 ∧ asleep.jobs = [] ∧ ∀ t ∈ levelTiles asleep 0, (tileAt asleep t).s1 = true := by
  refine ⟨rfl, by decide, rfl, fun t ht => ?_⟩
  have h : t < 2304 := List.mem_range.mp (List.mem_filter.mp ht).1
  have e : tileAt asleep t = { tileReset with s1 := true } := arrGet_const _ _ t 2304 0 (by omega) (by omega)
  rw [e]

theorem witness_power_states :
    tileAtRest (tileAt State.reset 0) = true ∧ tileRetired State.reset 0 = false ∧ (tileAt State.reset 0).s1 = false ∧
    (tileAt State.reset 0).net.epoch = 0 ∧ (tileAt State.reset 0).sq.st = .idle ∧ State.reset.load = none ∧ levelOf 0 ∉ State.reset.s2 ∧
    (let s : State := { State.reset with s2 := [0, 1, 2, 3] }
     s.module = .on ∧ s.s3 = false ∧ s.out = [] ∧ ∀ n < 4, n ∈ s.s2) ∧
    ({ State.reset with s2 := [0, 1, 2, 3], s3 := true } : State).s3 = true ∧
    State.reset.module ≠ .off ∧ State.reset.module ≠ .held ∧ State.reset.sec.floor.isSome = true ∧ State.reset.sec.update = none ∧
    State.reset.sec.header = [] ∧ ({ State.reset with sec := { secReset with floor := none } } : State).sec.floor = none ∧
    ({ State.reset with module := .mrst } : State).module = .mrst ∧
    (let s : State := { State.reset with module := .off, power := { powerReset with trip := true, rearm := true } }
     s.module = .off ∧ s.power.rearm = true) := by decide +kernel

theorem test_power_states :
    (after (.mrst 1000) State.reset).module = .mrst ∧ (after (.mrst 499) State.reset).module = .on ∧
    (after (.powerOff .thermal) State.reset).module = .off ∧ (tileAt (after (.enterS1 0) State.reset) 0).s1 = true := by decide +kernel

theorem witness_ports :
    State.reset.module = .on ∧ (portN State.reset 0).perst = true ∧ (portN (hostUp State.reset) 0).perst = false ∧
    (portN (hostUp State.reset) 0).link = true ∧
    (let s := modPort State.reset 1 fun x => { x with perst := false, timer := true }
     (portN s 1).link = false ∧ (portN s 1).perst = false ∧ (portN s 1).timer = true ∧ s.load = none ∧
       ((loadingState .write []).load.map (·.phase)) = some .write) ∧
    (let s := modPort { State.reset with jobs := [{ job1 with adopt := true, port := 1 }] } 0 fun x => { x with link := true }
     s.jobs.length = 1 ∧ (portN s (1 - 1)).link = true) ∧ State.reset.casc.pinPith = decide (State.reset.casc.pinId = 0) ∧
    (let s : State := { State.reset with casc := { cascReset with pinPith := false } }
     s.casc.pinPith ≠ decide (s.casc.pinId = 0)) := by decide +kernel

/-- The link's loss starts the timer and tells the other port; after it the adoptable job belongs to that port (15 R370, 22 R507). -/
theorem test_ports :
    (portN (after (.linkDown 0) (hostUp State.reset)) 0).timer = true ∧
    (failover (modPort { State.reset with jobs := [{ job1 with adopt := true, port := 1 }] } 0 fun x => { x with link := true }) 1 true).jobs.map
      (·.port) = [0] ∧
    (after (.perstRelease 0 true) State.reset).ports.map (·.refclk) = [true, false] := by decide +kernel

/-! ## Faults and service commands -/

def corrected (n : Nat) : State :=
  { State.reset with errs := { errsReset with wins := [{ unit := .tile 0, times := List.replicate n 0, life := n, since := 1 }] } }

theorem witness_fault_events :
    (∀ u ∈ [CountUnit.tile 0, .router 2303, .link 0 0, .channel 0 0, .package 0, .lane 0 0], unitExists u = true ∧
      actionsWait (correctedEvent State.reset u 1 0) = false) ∧
    (∀ e ∈ [FaultEvent.dieLost 8, .channelLost 15 0, .stackLost 0, .laneFault 0 0, .tileUnit 0 3 0, .flit 0 0], eventExists e = true) ∧
    actionsWait State.reset = false ∧
    (let s := switchState .drain false false
     actionsWait s = true ∧ actsAtOnce s (.dieLost 0) = true ∧ actsAtOnce s (.stackLost 0) = false) := by decide +kernel

theorem witness_watchers :
    64 ≤ windowCount (corrected 64) (.tile 0) ∧ errsReset.reloading.getD 3 false = false ∧ errsReset.misses.getD 3 0 < 2 ∧
    2 ≤ [2, 2, 2, 2].getD 3 0 ∧
    (let s : State := { loadingState .write (frameBytes 0) with images := [anImage 1 280] }
     (scrubImage (setTile s 0 { tileReset with sq := { seqReset with imem := [(0, 0x1000000000000000)] } }) 0 0x8000).isSome = true) := by
  decide +kernel

/-- A replay of 36 delivered edges, of a section whose TMAX is 10 and of one whose TMAX is 11 (in units of 10 cycles: 18 R439). -/
theorem witness_replay_timeout :
    (∀ t ∈ [10, 11],
      let i := { anImage 0 256 with tmax := t }
      let s : State := { State.reset with
        launches := [{ aLaunch .running 0 0 with img := some i }]
        errs := { errsReset with recov := some { ticket := 0, unit := 0, spare := 0, seq := 0, since := 0, edges := 36 } } }
      s.errs.recov.map (·.edges) = some 36 ∧
      s.launches.find? (·.ticket = 0) = some { aLaunch .running 0 0 with img := some i } ∧ i.tmax ≠ 0) ∧
    10 * 36 ≤ 36 * 10 ∧ 36 * 10 < 11 * 36 := by decide +kernel

/-- Events with a detection record and without; a scrubbed image in memory that is not lost (18 R424, R440). -/
theorem witness_detection :
    (∀ e ∈ [FaultEvent.tileUnit 0 3 0, .flit 0 0, .linkFlit 0 0 0], (detect State.reset (faultEffect State.reset e) e).isSome = true) ∧
    (∀ e ∈ [FaultEvent.dieLost 8, .channelLost 15 0, .hbm 0], (detect State.reset (faultEffect State.reset e) e).isNone = true) ∧
    imageLost State.reset (anImage 1 280) = none := by decide +kernel

/-- The 32nd corrected event of a tile within 60 s retires it (18 R425). -/
theorem test_fault_events :
    (after (.errorEvent (.counted (.tile 0) 1 0)) (corrected 30)).retired = [] ∧
    (after (.errorEvent (.counted (.tile 0) 1 0)) (corrected 31)).retired = [0] ∧
    (after (.errorEvent (.counted (.tile 0) 1 0)) State.reset).errs.ring.map (fun r => (r.status, r.sev, r.src)) = [(stCorrected, 0, 1)] := by
  decide +kernel

def svc (x : Packet) : State := withPkt x State.reset

theorem witness_service_commands :
    (∀ v ∈ [3, 4], let x := pkt 0x0A00 0 [(0x18, 2, v)]
      Taken (svc x) 0 0x0A00 x ∧ pfld x 0x18 2 = v) ∧
    (∀ n ∈ [1, 1024], let x := pkt 0x0A01 0 [(0x20, 2, n)]
      Taken (svc x) 0 0x0A01 x ∧ pfld x 0x20 2 = n) ∧
    (let x := pkt 0x0800 0 []
     Taken (svc x) 0 0x0800 x ∧ (svc x).assay.running = true) ∧
    (∀ n ∈ [1, 256], let x := pkt 0x0801 0 [(0x20, 2, n)]
      Taken (svc x) 0 0x0801 x ∧ pfld x 0x20 2 = n ∧ (svc x).assay.running = true) ∧
    (∀ n ∈ [1183, 1184], let x := pkt 0x0901 0 [(0x18, 4, n)]
      Taken (svc x) 0 0x0901 x ∧ pfld x 0x18 4 = n) := by decide +kernel

theorem witness_selftest_retire_unlock :
    (let x := { pkt 0x0A02 0 [(0x10, 1, 1), (9, 1, 3)] with sent := true }
     let s : State := { svc x with power := { powerReset with grants := [{ who := .command 0, lc := false, draw := [1, 1, 0, 0] }] } }
     Taken s 0 0x0A02 x ∧ pfld x 0x10 1 ≤ 1 ∧ x.sent = true ∧ hasGrant s (.command 0) = true ∧ s.s2 = []) ∧
    (∀ t ∈ [0, 2303], let x := pkt 0x0A03 0 [(0x10, 2, t)]
      Taken (svc x) 0 0x0A03 x ∧ pfld x 0x10 2 = t ∧ launchOn (svc x) t = none ∧ actionsWait (svc x) = false) ∧
    (∀ n ∈ [0, 128], let x := pkt 0x0902 0 [(0x18, 4, n)]
      Taken (svc x) 0 0x0902 x ∧ pfld x 0x18 4 = n ∧ (svc x).sec.update = none ∧ (svc x).sec.rngWait = false) := by decide +kernel

/-- The newest record's number is returned, and 0xFFFF_FFFF with no record (14 R337); a retired tile is in the map. -/
theorem test_service_commands :
    (after (.errlogRead 0) (svc (pkt 0x0A01 0 [(0x20, 2, 1)]))).ports.map (fun p => (cqN p 0).held.map fun r => (r.r0, r.r1)) =
      [[(0, 0xFFFFFFFF)], []] ∧
    (after (.tileRetire 0) (svc (pkt 0x0A03 0 [(0x10, 2, 7)]))).retired = [7] := by decide +kernel

/-! ## Firmware, ownership, SPDM -/

/-- The SHA-384 of no bytes (FIPS 180-4), as a little-endian number. -/
def shaOfNothing : Nat := 0x5bb99848f1d21ad5fb656fe7bfde4e27dae1f663bfc70c4c4307be1411b7fd216ae3b1b17e32d94c3896ac51a760b038

/-- An image header whose bodies are empty. -/
def aHeader : List Byte :=
  (List.range 11).foldl (fun h c => splice (splice h (0x10 + 80 * c) [BitVec.ofNat 8 c, 1]) (0x10 + 80 * c + 0x10)
      (leBytes 4 (0x1000 * (c + 1)) ++ leBytes 4 0 ++ leBytes 4 0 ++ leBytes 4 0 ++ leBytes 48 shaOfNothing))
    ([0x50, 0x4C, 0x46, 0x37, 1, 0, 11, 0] ++ List.replicate 4088 0)

def updatePkt : Packet := pkt 0x0900 0 [(0x18, 4, 4096), (0x1C, 1, 6)]

def updateState : State := { svc updatePkt with sec := { secReset with header := aHeader } }

theorem test_header : aHeader.length = 4096 ∧ imageHeaderOk aHeader = true ∧ imageHeaderOk (splice aHeader 0x450 [1]) = false := by decide +kernel

theorem witness_update_command :
    Taken updateState 0 0x0900 updatePkt ∧ pfld updatePkt 0x18 4 = 4096 ∧ pfld updatePkt 0x1C 1 = 6 ∧ updateState.sec.update = none ∧
    needsCosign updateState = false ∧ slice aHeader 0 4096 = aHeader ∧ slice aHeader 4096 0 = [] := by
  refine ⟨by decide +kernel, by decide +kernel, by decide +kernel, rfl, rfl, ?_, by simp [slice]⟩
  have h : aHeader.length = 4096 := test_header.1
  simp [slice, ← h]

theorem witness_update_accepted : manifestOk updateState aHeader [] 6 = true ∧ floorOf updateState 6 ≤ entrySvn aHeader 6 := by decide +kernel

theorem witness_update_rollback :
    let s : State := { updateState with sec := { updateState.sec with
      floor := some { floors := List.replicate 11 1, owner := [], cosign := false, keys := [], counter := 0 } } }
    Taken s 0 0x0900 updatePkt ∧ entrySvn aHeader 6 < floorOf s 6 := by decide +kernel

def anUpdate (swapped : Bool) : Update := { ticket := 0, comp := 6, body := [], header := aHeader, osig := true, swapped := swapped }

theorem witness_swap_and_write :
    (let s : State := { updateState with sec := { updateState.sec with update := some (anUpdate false) } }
     s.sec.update = some (anUpdate false) ∧ s.module = .on ∧ (anUpdate false).swapped = false ∧ (anUpdate false).comp ≠ 0 ∧ quiescent s 6 = true) ∧
    (let s : State := { updateState with sec := { updateState.sec with update := some (anUpdate true) } }
     s.sec.update = some (anUpdate true) ∧ (anUpdate true).swapped = true ∧ (anUpdate true).comp < 11 ∧
       s.sec.floor = some { floors := List.replicate 11 0, owner := [], cosign := false, keys := [], counter := 0 } ∧
       entryFloor (anUpdate true).header 6 = true) :=
  ⟨⟨rfl, rfl, rfl, by decide, rfl⟩, rfl, rfl, by decide, rfl, by decide +kernel⟩

/-- A header whose INIT has SVN 5 raises its floor to 5, and no other (20 R467). -/
theorem test_floor_raised :
    let h := splice aHeader (0x10 + 80 * 6 + 4) [5]
    (applyUpdate updateState { anUpdate true with header := h }).sec.floor.map (·.floors) = some [0, 0, 0, 0, 0, 0, 5, 0, 0, 0, 0] := by
  decide +kernel

/-- The floor record, unowned and owned. -/
def aFloor (owner : List Byte) : FloorRec := { floors := List.replicate 11 0, owner := owner, cosign := false, keys := [], counter := 0 }

def ownedState (owner : List Byte) (nonce : Nat) : State :=
  { State.reset with sec := { secReset with floor := some (aFloor owner), mctpNonce := some nonce } }

theorem witness_signed_messages :
    let m : SignedMsg := { keyid := Config.deviceKeyId, challenge := 1, sigOk := true }
    m.sigOk = true ∧ m.keyid = Config.deviceKeyId ∧ (ownedState [1] 1).sec.floor = some (aFloor [1]) ∧
    (ownedState [1] 2).sec.mctpNonce ≠ some m.challenge ∧ (ownedState [1] 1).sec.mctpNonce = some m.challenge ∧ (aFloor []).owner = [] ∧
    (aFloor [1]).owner ≠ [] ∧ (ownedState [1] 1).jobs = [] ∧ ({ m with sigOk := false } : SignedMsg).sigOk = false :=
  ⟨rfl, rfl, rfl, (by decide : some 2 ≠ some 1), rfl, rfl, by decide, rfl, rfl⟩

theorem witness_deliver_image :
    State.reset.module = .on ∧ State.reset.sec.update = none ∧ deviceReady { State.reset with casc := { cascReset with ready := true } } = true ∧ State.reset.jobs = [] ∧
    State.reset.sec.rngWait = false ∧ State.reset.errs.fatal = false ∧ State.reset.sec.rngFails < 2 ∧
    2 ≤ ({ secReset with rngFails := 2 } : Sec).rngFails := by decide +kernel

theorem witness_spdm :
    (∀ tr ∈ [0, 4], spdmUp (hostUp State.reset) tr = true) ∧ 4 ∉ secReset.negotiated ∧
    (let s : State := { State.reset with sec := { secReset with versioned := [4], capable := [4], negotiated := [4] } }
     spdmUp s 4 = true ∧ 4 ∈ s.sec.versioned ∧ 4 ∈ s.sec.capable ∧ 4 ∈ s.sec.negotiated ∧ freeSession s 4 = some 0 ∧ s.sec.rngWait = false) ∧
    (∀ b ∈ [true, false],
      let s : State := { hostUp State.reset with sec := { secReset with sessions := [{ tr := 0, id := 3, finished := b, keygen := 0 }] } }
      spdmUp s 0 = true ∧ sessionOf s 0 3 = some { tr := 0, id := 3, finished := b, keygen := 0 }) ∧ 0 = 2 * 0 ∧ (2 : Nat) ≤ 2 := by
  decide +kernel

/-- A request before its turn is UnexpectedRequest; the fifth session is refused (20 R469). -/
theorem test_spdm :
    (after (.getDigests 4) State.reset).answers.map (·.code) = [spdmUnexpected] ∧
    freeSession { State.reset with sec := { secReset with sessions := (List.range 4).map fun i =>
      { tr := 4, id := i, finished := false, keygen := 0 } } } 4 = none := by decide +kernel

/-! ## The Assay Office -/

def heard (n : Notice) : State := { State.reset with notices := [n] }

theorem witness_notices :
    ∀ n ∈ [Notice.own 1 0 0 0 0 0 0, .switch 1 0, .restore 1 2 0, .free 0, .close 1 0, .interval 0, .brown true 90 0, .read 0 1, .beat 0],
      (heard n).assay.running = true ∧ (heard n).notices = n :: [] := by decide +kernel

theorem witness_assay :
    assayReset.running = true ∧ assayReset.cur = .idle ∧ ({ assayReset with cur := .job 1 } : Assay).cur ≠ .idle ∧
    ({ assayReset with running := false } : Assay).running = false ∧ assayReset.lostLink = false ∧ assayReset.sealOpen = false ∧
    ({ assayReset with sealOpen := true } : Assay).sealOpen = true := by decide +kernel

/-- A sample reaches the total and idle; FREE turns the charge to idle (21 R482, R485). -/
theorem test_assay :
    ((after (.assaySample 5 485) State.reset).assay.total, (after (.assaySample 5 485) State.reset).assay.idle) = (5, 5) ∧
    (after .free { heard (.free 0) with assay := { assayReset with cur := .job 1 } }).assay.cur = .idle ∧
    (after .sealOpen State.reset).assay.marked = true := by decide +kernel

/-! ## Rules over every state -/

theorem witness_records_of_no_job : (0 = 0 ∨ (3 : Nat) = 3) ∧ numIsNan (.fin { neg := true, num := 0, den := 1, exp := 0 }) = false := by decide +kernel

theorem witness_long_runs :
    exec (.nop 7) State.reset = .next State.reset ∧ State.reset.sec.floor = some (aFloor []) ∧ (aFloor []).floors.length = 11 ∧
    (∀ k, Instr.nop 7 ≠ .powerCeiling k) ∧ (∀ k, Instr.nop 7 ≠ .setFeature k) ∧ State.reset.module ≠ .off ∧
    ({ State.reset with module := .mrst } : State).module = .mrst := by
  refine ⟨rfl, rfl, rfl, fun k => by simp, fun k => by simp, by decide, rfl⟩

theorem witness_ranges : (takenRanges State.reset).Pairwise fun a b => meetsRange a b = false := by decide +kernel

theorem witness_canonical : memWf State.reset = true ∧ step State.reset = .next (tick State.reset) := ⟨rfl, rfl⟩

/-! ## Pins -/

/-- After reset the rails are good and both PERST pins low, so the hosts are held off; a module that is OFF drives only THERMTRIP_N
and SEAL_OPEN (22 R505, 23 R511, R514). -/
theorem test_pins :
    pinPwrgd State.reset = .z ∧ pinHold State.reset 0 = .low ∧ pinHold (modPort State.reset 0 fun p => { p with perst := false }) 0 = .high ∧
    pinCfgErr State.reset = .z ∧ pinCfgErr { State.reset with module := .failed 3 } = .low ∧ pinAlert { State.reset with alert := true } = .low ∧
    pinHold { State.reset with module := .off } 0 = .z ∧ pinPwrgd { State.reset with module := .off } = .low ∧
    pinThermtrip { State.reset with module := .off, power := { powerReset with trip := true } } = .low ∧ pinSealOpen State.reset = .low := by
  decide +kernel

/-- Two ramp windows pass after a swap of BK before anything is booked (20 R475, 16 R381). -/
theorem test_booking_pause :
    (let s : State := askLeave { State.reset with power := { powerReset with quiet := 2 } } (.command 0) true [100, 0, 0, 0]
     s.power.grants = [] ∧ (after .rampWindow s).power.grants = [] ∧ (after .rampWindow (after .rampWindow s)).power.grants.length = 1) := by
  decide +kernel

end Sys2Proof.Tests
end

/-! PROOF. The codes that rounding to F8V and F8G gives (02 R38, R39, R48, R51, R52). -/

namespace Sys2Proof.Machine

section EightBitFloat

variable {f : Fmt} (hf : f = .f8v ∨ f = .f8g)
include hf

theorem eightBit_not_ieee : fmtIeee f = false := by rcases hf with rfl | rfl <;> rfl

theorem eightBit_fMax : fMax f = 0x7F := by rcases hf with rfl | rfl <;> rfl

theorem eightBit_fNan : fNan f = 0x80 := by rcases hf with rfl | rfl <;> rfl

theorem eightBit_signBit : 2 ^ (fmtBits f - 1) = 0x80 := by rcases hf with rfl | rfl <;> rfl

theorem storeElem_eightBit (m : RMode) (r : Nat) (z : Int) (x : Num) : storeElem f m r z x = roundNum f m r x := by
  rcases hf with rfl | rfl <;> rfl

theorem decodeElem_eightBit_zero : ∃ e : Exact, decodeElem f 0 = .fin e ∧ e.neg = false ∧ e.num = 0 := by
  refine ⟨magOf f false 0, ?_⟩
  rcases hf with rfl | rfl <;> decide

/-- Only the second branch of `roundFinite` can give a magnitude of 0, and it drops the sign there. -/
theorem roundFinite_eightBit (m : RMode) (r : Nat) (x : Exact) :
    ∃ mag ≤ 0x7F, (roundFinite f m r x).1 = if mag = 0 then 0 else b2n x.neg * 0x80 + mag := by
  simp only [roundFinite, eightBit_not_ieee hf, eightBit_fMax hf, eightBit_signBit hf]
  generalize (if m = .sr then (roundMag f .rne r x).1 else (roundMag f m r x).1) = probe
  by_cases hover : probe > 0x7F
  · exact ⟨0x7F, le_rfl, by simp [hover]⟩
  · exact ⟨min (roundMag f m r x).1 0x7F, min_le_right _ _, by simp [hover]⟩

theorem roundNum_eightBit {x : Num} (hx : numIsNan x = false) (m : RMode) (r : Nat) :
    ∃ mag ≤ 0x7F, (roundNum f m r x).1 = if mag = 0 then 0 else b2n (numNeg x) * 0x80 + mag := by
  cases x with
  | nan s => simp [numIsNan] at hx
  | inf n => exact ⟨0x7F, le_rfl, by simp [roundNum, numNeg, eightBit_not_ieee hf, eightBit_fMax hf, eightBit_signBit hf]⟩
  | fin x => exact roundFinite_eightBit hf m r x

theorem roundNum_eightBit_zero_magnitude {x : Num} (hx : numIsNan x = false) (m : RMode) (r : Nat)
    (h0 : (roundNum f m r x).1 % 0x80 = 0) : (roundNum f m r x).1 = 0 := by
  obtain ⟨mag, hle, hcode⟩ := roundNum_eightBit hf hx m r
  by_cases hmag : mag = 0
  · simp [hcode, hmag]
  · rw [if_neg hmag] at hcode
    omega

theorem roundNum_eightBit_eq_nan_iff (m : RMode) (r : Nat) (x : Num) :
    (roundNum f m r x).1 = 0x80 ↔ numIsNan x = true := by
  constructor
  · intro hcode
    by_contra hx
    have hzero := roundNum_eightBit_zero_magnitude hf (by simpa using hx) m r (by rw [hcode])
    omega
  · intro hx
    cases x with
    | nan s => exact eightBit_fNan hf
    | inf n => simp [numIsNan] at hx
    | fin x => simp [numIsNan] at hx

end EightBitFloat

/-- An ingot with a NaN source has the fine code 255 (R48). -/
theorem numIsNan_of_ingotFine_ne {f : Fmt} {ys : List Num} (hfine : ingotFine f ys ≠ 255) {y : Num} (hy : y ∈ ys) :
    numIsNan y = false := by
  by_contra hnan
  have hany : ys.any numIsNan = true := List.any_eq_true.mpr ⟨y, hy, by simpa using hnan⟩
  exact hfine (by simp [ingotFine, hany])

/-- An ingot is either invalid, all its codes 0, or each code is rounded from a value that is not NaN (R48). -/
theorem storeIngot_code_cases {f : Fmt} {m : RMode} {ys : List (Num × Nat)} {c : Nat} (hc : c ∈ (storeIngot f m ys).2.1) :
    c = 0 ∨ ∃ x r, numIsNan x = false ∧ c = (roundNum f m r x).1 := by
  simp only [storeIngot] at hc
  split at hc
  next =>
    obtain ⟨_, _, rfl⟩ := List.mem_map.mp hc
    exact .inl rfl
  next hfine =>
    simp only [List.map_map] at hc
    obtain ⟨⟨y, r⟩, hy, rfl⟩ := List.mem_map.mp hc
    have hnan : numIsNan y = false := numIsNan_of_ingotFine_ne hfine (List.mem_map_of_mem (f := (·.1)) hy)
    cases y with
    | nan s => simp [numIsNan] at hnan
    | inf n => exact .inr ⟨.inf n, r, rfl, rfl⟩
    | fin x => exact .inr ⟨.fin _, r, rfl, rfl⟩

theorem storeIngot_eightBit_no_nan {f : Fmt} (hf : f = .f8v ∨ f = .f8g) (m : RMode) (ys : List (Num × Nat)) :
    0x80 ∉ (storeIngot f m ys).2.1 := by
  intro hmem
  obtain hzero | ⟨x, r, hx, hcode⟩ := storeIngot_code_cases hmem
  · omega
  · have hnan := (roundNum_eightBit_eq_nan_iff hf m r x).mp hcode.symm
    simp [hx] at hnan

/-- Settles O57: a magnitude of 0 drops its sign, so the sign bit alone (0x80) is never the code of a number. -/
theorem shortFloatsKeepNegativeZeroForNaN : Obligations.ShortFloatsKeepNegativeZeroForNaN := by
  intro f hf
  refine ⟨fun m r x => ⟨?nan, ?zero, ?store⟩, ?ingot, ?read⟩
  case nan => exact roundNum_eightBit_eq_nan_iff hf m r x
  case zero => exact fun hx h0 => roundNum_eightBit_zero_magnitude hf hx m r h0
  case store => exact fun z => storeElem_eightBit hf m r z x
  case ingot => exact storeIngot_eightBit_no_nan hf
  case read => exact decodeElem_eightBit_zero hf

end Sys2Proof.Machine

/-! PROOF. The matrix unit: products into the bank in FILL, the sums they leave, and the switch of the banks (03 R66 to R82). -/

namespace Sys2Proof.Machine

/-! ### Fields and sparse arrays -/

theorem fld_lt {n : Nat} (x : BitVec n) (hi lo : Nat) : fld x hi lo < 2 ^ (hi + 1 - lo) :=
  Nat.mod_lt _ (Nat.two_pow_pos _)

section FoldOfWrites

variable {α β : Type} [DecidableEq α] (key : β → Nat) (val : β → α) (d : α)

theorem arrGet_foldl_arrSet_ne {l : List β} {k : Nat} (hk : ∀ c ∈ l, key c ≠ k) (a : Arr α) :
    arrGet (l.foldl (fun a c => arrSet a (key c) (val c) d) a) k d = arrGet a k d := by
  induction l generalizing a with
  | nil => rfl
  | cons c l ih =>
    rw [List.foldl_cons, ih fun b hb => hk b (List.mem_cons_of_mem c hb)]
    exact arrGet_arrSet_ne a (key c) k (val c) d (hk c List.mem_cons_self).symm

theorem arrGet_foldl_arrSet_mem {l : List β} {c : β} (hc : c ∈ l) (hinj : ∀ b ∈ l, key b = key c → b = c) {a : Arr α}
    (ha : arrSorted a = true) : arrGet (l.foldl (fun a c => arrSet a (key c) (val c) d) a) (key c) d = val c := by
  induction l generalizing a with
  | nil => cases hc
  | cons x l ih =>
    have hinjl : ∀ b ∈ l, key b = key c → b = c := fun b hb => hinj b (List.mem_cons_of_mem x hb)
    rw [List.foldl_cons]
    by_cases hcl : c ∈ l
    · exact ih hcl hinjl (arrSorted_arrSet a (key x) (val x) d ha)
    · obtain rfl : c = x := (List.mem_cons.mp hc).resolve_right hcl
      rw [arrGet_foldl_arrSet_ne key val d fun b hb heq => hcl (hinjl b hb heq ▸ hb)]
      exact arrGet_arrSet_self a (key c) (val c) d ha

end FoldOfWrites

/-! ### A head that acts, and what leaving it keeps -/

theorem withHead_of_atHead {s : State} {t k op : Nat} {e : QEntry} (h : AtHead s t k op e) (f : Tile → QEntry → Outcome) :
    withHead s t k op f = f (tileAt s t) e := by
  obtain ⟨ht, hlive, hpaused, hleave, hhead⟩ := h
  simp [withHead, withTile, ht, hlive, hpaused, hleave, hhead]

@[simp] theorem popHead_mx (x : Tile) (k : Nat) : (popHead x k).mx = x.mx := rfl

/-! ### The two banks -/

section
variable (m : MxUnit) (b c : Nat)

@[simp] theorem bankArr_setBankScale (v : W32) : bankArr (setBankScale m b v) c = bankArr m c := by
  by_cases hb : b = 0 <;> simp [setBankScale, bankArr, hb]

@[simp] theorem bankScale_setBankScale_same (v : W32) : bankScale (setBankScale m b v) b = v := by
  by_cases hb : b = 0 <;> simp [setBankScale, bankScale, hb]

@[simp] theorem bankArr_setBankArr_same (a : Arr W32) : bankArr (setBankArr m b a) b = a := by
  by_cases hb : b = 0 <;> simp [setBankArr, bankArr, hb]

theorem bankArr_setBankArr_ne {b c : Nat} (hb : b < 2) (hc : c < 2) (hne : c ≠ b) (a : Arr W32) :
    bankArr (setBankArr m b a) c = bankArr m c := by
  obtain ⟨rfl, rfl⟩ | ⟨rfl, rfl⟩ : (b = 0 ∧ c = 1) ∨ (b = 1 ∧ c = 0) := by omega
  · rfl
  · rfl

end

theorem fillBank_of_fill {m : MxUnit} (h : m.st0 = .fill) : fillBank m = 0 := if_pos h

theorem fillBank_of_not_fill {m : MxUnit} (h : m.st0 ≠ .fill) : fillBank m = 1 := if_neg h

/-! ### ACCSW (R80) -/

theorem exec_accsw_of_atHead {s : State} {t : Nat} {e : QEntry} (h : AtHead s t 0 0x12 e) :
    exec (.accsw t) s =
      let m := (tileAt s t).mx
      if bankSt m (1 - fillBank m) ≠ .idle then .next s
      else .next (setTile s t (popHead { tileAt s t with
        mx := setBankSt (setBankSt m (fillBank m) .drain) (1 - fillBank m) .fill } 0)) := by
  show execAccsw t s = _
  rw [execAccsw, withHead_of_atHead h]

/-- Settles O13: whichever bank is in FILL, the other one is the bank that takes its place. -/
theorem accswSwapsTheBanks : Obligations.AccswSwapsTheBanks := by
  intro s t e h m
  refine ⟨fun hother => ?waits, fun hidle hfill => ?first, fun hidle hfill => ?second⟩
  case waits => exact (exec_accsw_of_atHead h).trans (if_pos hother)
  all_goals refine (exec_accsw_of_atHead h).trans ((if_neg (not_not_intro hidle)).trans ?_)
  case first => rw [fillBank_of_fill hfill]; rfl
  case second => rw [fillBank_of_not_fill hfill]; rfl

/-! ### MMA and MMAZ begin (R69, R70, R74, R78) -/

/-- What the matrix unit keeps of an MMA or MMAZ that starts with descriptor dn: the descriptor as read now, and bank and mode. -/
def startedRun (zero : Bool) (t : Tile) (dn : Nat) : MmaRun :=
  { bank := fillBank t.mx, zero := zero, desc := (List.range 4).map (mxdWord t.mx dn), touch := touchMode t
    bad := (coarseOf t.mx (mdesc t.mx dn)).2.2, was := match t.vx.run with | some r => r.was | none => [] }

theorem mmaDesc_startedRun (zero : Bool) (t : Tile) (dn : Nat) : mmaDesc (startedRun zero t dn) = mdesc t.mx dn := rfl

/-- The matrix unit once an MMA or MMAZ has started: MMAZ has set the scale of the bank. -/
def startedUnit (zero : Bool) (t : Tile) (dn : Nat) : MxUnit :=
  { (if zero then setBankScale t.mx (fillBank t.mx) (coarseOf t.mx (mdesc t.mx dn)).1 else t.mx) with busy := some (startedRun zero t dn) }

theorem startedUnit_bankArr (zero : Bool) (t : Tile) (dn b : Nat) : bankArr (startedUnit zero t dn) b = bankArr t.mx b := by
  cases zero with
  | false => rfl
  | true => exact bankArr_setBankScale t.mx (fillBank t.mx) b _

theorem startedUnit_bankScale (t : Tile) (dn : Nat) :
    bankScale (startedUnit true t dn) (fillBank t.mx) = (coarseOf t.mx (mdesc t.mx dn)).1 :=
  bankScale_setBankScale_same t.mx (fillBank t.mx) _

/-- A start that passes its checks: an MMA has found the scale of the bank equal to its own coarse product (R78). -/
theorem mmaStart_ok {zero : Bool} {t t2 : Tile} {dn : Nat} (h : mmaStart zero t dn = .ok t2) :
    (zero = false → (coarseOf t.mx (mdesc t.mx dn)).1 = bankScale t.mx (fillBank t.mx)) ∧ t2.mx = startedUnit zero t dn := by
  simp only [mmaStart] at h
  split at h
  next => cases h
  next =>
    split at h
    next => cases h
    next hscale =>
      cases h
      exact ⟨fun hz => by simpa [hz] using hscale, rfl⟩

theorem exec_product (zero : Bool) (t : Nat) (s : State) :
    exec (if zero then .mmaz t else .mma t) s = startProduct zero (if zero then 0x11 else 0x10) t s := by
  cases zero <;> rfl

theorem startProduct_of_free {s : State} {t op : Nat} {e : QEntry} (zero : Bool) (h : AtHead s t 0 op e) (hsent : e.sent = false)
    (hbusy : (tileAt s t).mx.busy = none) (hflight : flightHolds (tileAt s t).mx (fillBank (tileAt s t).mx) = false)
    (hheld : mmaHeld s t (tileAt s t) (fillBank (tileAt s t).mx) e.seq = false) :
    (∀ t2, mmaStart zero (tileAt s t) (fld e.word 2 0) = .ok t2 →
      startProduct zero op t s = .next (setTile s t (setHead t2 0 { e with sent := true }))) ∧
    ∀ x, mmaStart zero (tileAt s t) (fld e.word 2 0) = .error x → startProduct zero op t s = .next (tileFatal s t 8 e.idx x) := by
  rw [startProduct, withHead_of_atHead h, if_neg (by simp [hsent, hbusy, hflight, hheld])]
  exact ⟨fun t2 hok => by rw [hok], fun x herr => by rw [herr]⟩

/-- Settles O11: a start either fails a check of R70 or R78, or keeps the descriptor as read and leaves the sums alone. -/
theorem productsFillTheBank : Obligations.ProductsFillTheBank := by
  intro s t e zero h hsent m hbusy hflight hheld c
  obtain ⟨hstarts, hrefused⟩ := startProduct_of_free zero h hsent hbusy hflight hheld
  refine ⟨fun t2 hok => ?_, fun x herr => (exec_product zero t s).trans (hrefused x herr)⟩
  obtain ⟨hscale, hunit⟩ := mmaStart_ok hok
  refine ⟨(exec_product zero t s).trans (hstarts t2 hok), ?_⟩
  rw [hunit]
  exact ⟨⟨startedRun zero (tileAt s t) (fld e.word 2 0), rfl, rfl, rfl, mmaDesc_startedRun ..⟩,
    startedUnit_bankArr zero (tileAt s t) _, hscale, fun hz => hz ▸ startedUnit_bankScale (tileAt s t) _⟩

/-! ### MMA_COMPLETE (R66, R67, R74) -/

theorem mmaDesc_n_le (r : MmaRun) : (mmaDesc r).n ≤ 128 := by
  have hfield := fld_lt (r.desc.getD 0 0) 13 11
  show 16 * (fld (r.desc.getD 0 0) 13 11 + 1) ≤ 128
  omega

theorem mem_mmaCells {d : MDesc} {mn : Nat × Nat} : mn ∈ mmaCells d ↔ mn.1 < d.m ∧ mn.2 < d.n := by
  obtain ⟨mi, ni⟩ := mn
  simp [mmaCells]

/-- Where a bank keeps the element of row and column mn (R83). -/
def cellIndex (mn : Nat × Nat) : Nat := 128 * mn.1 + mn.2

theorem cellIndex_div_mod {r : MmaRun} {mn : Nat × Nat} (h : mn ∈ mmaCells (mmaDesc r)) :
    cellIndex mn / 128 = mn.1 ∧ cellIndex mn % 128 = mn.2 := by
  have hcol := (mem_mmaCells.mp h).2
  have hn := mmaDesc_n_le r
  simp only [cellIndex]
  omega

/-- The sum an instruction forms in element mn, and its flags (R74). -/
def cellSum (seed fresh : Nat) (m : MxUnit) (r : MmaRun) (mn : Nat × Nat) : Nat × AFlags :=
  mmaResult seed r.touch (mixedByte m r fresh (cellIndex mn)) (mmaDesc r) r.bad mn.1 mn.2
    (if r.zero then none else some (arrGet (bankArr m r.bank) (cellIndex mn) 0).toNat)

/-- The bank with every sum of the instruction written. -/
def summedBank (seed fresh : Nat) (m : MxUnit) (r : MmaRun) : Arr W32 :=
  (mmaCells (mmaDesc r)).foldl (fun a mn => arrSet a (cellIndex mn) (BitVec.ofNat 32 (cellSum seed fresh m r mn).1) 0) (bankArr m r.bank)

/-- The matrix unit once the instruction has issued its last product (R66, R67). -/
def completedUnit (seed fresh : Nat) (m : MxUnit) (r : MmaRun) : MxUnit :=
  { setBankArr m r.bank (summedBank seed fresh m r) with busy := none, flight := m.flight ++ [mmaTail r (mmaDesc r)] }

theorem completedUnit_bankArr_same (seed fresh : Nat) (m : MxUnit) (r : MmaRun) :
    bankArr (completedUnit seed fresh m r) r.bank = summedBank seed fresh m r :=
  bankArr_setBankArr_same m r.bank _

theorem completedUnit_bankArr_ne (seed fresh : Nat) (m : MxUnit) (r : MmaRun) (hbank : r.bank < 2) {b : Nat} (hb : b < 2)
    (hne : b ≠ r.bank) : bankArr (completedUnit seed fresh m r) b = bankArr m b :=
  bankArr_setBankArr_ne m hbank hb hne _

/-- The flags that the sums gather beside the bank do not enter it. -/
theorem foldl_sums_fst (seed fresh : Nat) (m : MxUnit) (r : MmaRun) :
    ((mmaCells (mmaDesc r)).foldl (fun (a : Arr W32 × AFlags) mn =>
      (arrSet a.1 (cellIndex mn) (BitVec.ofNat 32 (cellSum seed fresh m r mn).1) 0, a.2 ||| (cellSum seed fresh m r mn).2))
      (bankArr m r.bank, 0)).1 = summedBank seed fresh m r :=
  (List.foldl_hom Prod.fst fun _ _ => rfl).symm

theorem mmaFinish_mx (seed fresh : Nat) (t : Tile) (r : MmaRun) : (mmaFinish seed fresh t r).mx = completedUnit seed fresh t.mx r := by
  rw [completedUnit, ← foldl_sums_fst]
  rfl

theorem summedBank_cell (seed fresh : Nat) (m : MxUnit) (r : MmaRun) (hsorted : arrSorted (bankArr m r.bank) = true)
    {mn : Nat × Nat} (h : mn ∈ mmaCells (mmaDesc r)) :
    arrGet (summedBank seed fresh m r) (cellIndex mn) 0 = BitVec.ofNat 32 (cellSum seed fresh m r mn).1 := by
  refine arrGet_foldl_arrSet_mem cellIndex _ 0 h (fun b hb heq => ?_) hsorted
  obtain ⟨hrow, hcol⟩ := cellIndex_div_mod h
  obtain ⟨hrow', hcol'⟩ := cellIndex_div_mod hb
  rw [heq] at hrow' hcol'
  exact Prod.ext (hrow'.symm.trans hrow) (hcol'.symm.trans hcol)

theorem summedBank_outside (seed fresh : Nat) (m : MxUnit) (r : MmaRun) {k : Nat}
    (hk : k % 128 ≥ (mmaDesc r).n ∨ k / 128 ≥ (mmaDesc r).m) :
    arrGet (summedBank seed fresh m r) k 0 = arrGet (bankArr m r.bank) k 0 := by
  refine arrGet_foldl_arrSet_ne cellIndex _ 0 (fun mn h heq => ?_) _
  obtain ⟨hrow, hcol⟩ := mem_mmaCells.mp h
  obtain ⟨hdiv, hmod⟩ := cellIndex_div_mod h
  rw [heq] at hdiv hmod
  omega

theorem exec_mmaComplete {s : State} {t : Nat} {r : MmaRun} {e : QEntry} (ht : t < 2304) (hlive : tileLive (tileAt s t) = true)
    (hhead : headOf (tileAt s t) 0 = some e) (hsent : e.sent = true) (hbusy : (tileAt s t).mx.busy = some r) :
    exec (.mmaComplete t) s = .next (finishMma s t (tileAt s t) r) := by
  show execMmaComplete t s = _
  simp [execMmaComplete, withTile, ht, hlive, hhead, hsent, hbusy]

/-- Settles O12: the cells of the output tile have distinct places in the bank, since N is at most 128. -/
theorem productCompletes : Obligations.ProductCompletes := by
  intro s t r e ht hlive hhead hsent hbusy hsorted hbank m d
  refine ⟨popHead (mmaFinish (jobSeed s) s.fresh (tileAt s t) r) 0, exec_mmaComplete ht hlive hhead hsent hbusy, rfl, rfl, rfl, ?_⟩
  rw [popHead_mx, mmaFinish_mx]
  refine ⟨rfl, rfl, fun b hb hne => ?other, ?sums⟩
  case other => exact completedUnit_bankArr_ne _ _ m r hbank hb hne
  case sums =>
    rw [completedUnit_bankArr_same]
    exact ⟨fun mi ni hmi hni => summedBank_cell (jobSeed s) s.fresh m r hsorted (mn := (mi, ni)) (mem_mmaCells.mpr ⟨hmi, hni⟩),
      fun k hk => summedBank_outside (jobSeed s) s.fresh m r hk⟩

end Sys2Proof.Machine

/-! PROOF. The vector engine: runs begin, and a run that writes no row-state record completes (04 R96, R97, R111 to R113). -/

namespace Sys2Proof.Machine

/-! ### VRUN and VSCAN begin -/

theorem exec_run (scan : Bool) (t : Nat) (s : State) :
    exec (if scan then .vscan t else .vrun t) s = startRun scan (if scan then 0x19 else 0x18) t s := by
  cases scan <;> rfl

theorem startRun_of_free {s : State} {t op : Nat} {e : QEntry} (scan : Bool) (h : AtHead s t 1 op e) (hsent : e.sent = false)
    (hheld : runHeld (tileAt s t) e = false) :
    (runRefused (tileAt s t) e scan = none →
      startRun scan op t s = .next (setTile s t (setHead (runStart (jobSeed s) scan (tileAt s t) e) 1 { e with sent := true }))) ∧
    ∀ x, runRefused (tileAt s t) e scan = some x → startRun scan op t s = .next (tileFatal s t 8 e.idx x) := by
  rw [startRun, withHead_of_atHead h, if_neg (by simp [hsent, hheld])]
  exact ⟨fun hpass => by rw [hpass], fun x hfail => by rw [hfail]⟩

/-! ### RUN_COMPLETE of a run without row-state records -/

theorem popHead_runFinish_run (x : Tile) (r : VxRun) (k : Nat) : (popHead (runFinish x r) k).vx.run = none := rfl

theorem runRecords_of_noPorts {r : VxRun} (h : r.recPorts = []) : runRecords r = [] := by
  rw [runRecords, h, List.flatMap_nil]

/-- A run without records waits on no tag (R112). -/
theorem recordSlot_of_noPorts {r : VxRun} (h : r.recPorts = []) : recordSlot r = none := by
  simp [recordSlot, runRecords_of_noPorts h]

/-- Such a run has no slot to fill: what is left of its completion is the commit, its gathered lines and its end (R97, R111). -/
theorem finishRun_of_noPorts (s : State) (t : Nat) (tl : Tile) {r : VxRun} (h : r.recPorts = []) :
    finishRun s t tl r =
      modTile (flushRunLines (setTile s t (rowCommit tl r)) t) t fun x => popHead (runFinish x { r with committed := true }) 1 := by
  have hrecs : runRecords { r with committed := true } = [] := runRecords_of_noPorts h
  simp [finishRun, hrecs, writeRecords, fillSlots]

theorem exec_runComplete_of_noPorts {s : State} {t : Nat} {r : VxRun} (ht : t < 2304) (hlive : tileLive (tileAt s t) = true)
    (hrun : (tileAt s t).vx.run = some r) (h : r.recPorts = []) :
    exec (.runComplete t) s = .next (finishRun s t (tileAt s t) r) := by
  show execRunComplete t s = _
  simp [execRunComplete, withTile, ht, hlive, hrun, recordSlot_of_noPorts h]

/-- Settles O14: no record port means no record, so no tag holds the completion and no slot is filled by it. -/
theorem runsStartAndComplete : Obligations.RunsStartAndComplete := by
  refine ⟨fun s t e scan h hsent hheld => ?starts, fun s t r ht hlive hrun hports => ?completes⟩
  case starts =>
    obtain ⟨hstarts, hrefused⟩ := startRun_of_free scan h hsent hheld
    exact ⟨fun hpass => (exec_run scan t s).trans (hstarts hpass), fun x hfail => (exec_run scan t s).trans (hrefused x hfail)⟩
  case completes =>
    refine ⟨?_, fun x => popHead_runFinish_run x _ 1⟩
    rw [exec_runComplete_of_noPorts ht hlive hrun hports, finishRun_of_noPorts s t _ hports]

end Sys2Proof.Machine

/-! PROOF. The sequencer: what DISPATCH does at the next instruction, and the bound of the PC (06 R135 to R140, R148, R151). -/

namespace Sys2Proof.Machine

/-! ### Reading a tile after a write -/

theorem arrGet_arrPut_listed {α : Type} (a : Arr α) (k : Nat) (v d : α) : arrGet (arrPut a k v false) k d = v := by
  induction a with
  | nil => simp [arrPut, arrGet]
  | cons e a ih =>
    obtain ⟨j, w⟩ := e
    simp only [arrPut]
    split
    next hlt => simpa [arrGet, Nat.ne_of_lt hlt] using ih
    next => split <;> simp [arrGet]

theorem arrGet_default_or_mem {α : Type} (a : Arr α) (k : Nat) (d : α) : arrGet a k d = d ∨ ∃ e ∈ a, arrGet a k d = e.2 := by
  induction a with
  | nil => exact .inl rfl
  | cons e a ih =>
    simp only [arrGet]
    split
    · exact .inr ⟨e, List.mem_cons_self, rfl⟩
    · exact ih.imp_right fun ⟨x, hx, h⟩ => ⟨x, List.mem_cons_of_mem e hx, h⟩

/-- A tile whose sequencer has begun differs from the reset value, so that the array lists it. -/
theorem tileAt_setTile_same {x : Tile} (hx : x.sq.st ≠ .idle) (s : State) (t : Nat) : tileAt (setTile s t x) t = x := by
  have hne : x ≠ tileReset := fun h => hx (by rw [h]; rfl)
  simp [tileAt, setTile, arrSet, hne, arrGet_arrPut_listed]

theorem tileAt_setTile_ne (s : State) {t u : Nat} (x : Tile) (h : u ≠ t) : tileAt (setTile s t x) u = tileAt s u :=
  arrGet_arrSet_ne s.tiles t u x tileReset h

theorem tileAt_congr {s u : State} (h : u.tiles = s.tiles) (t : Nat) : tileAt u t = tileAt s t := by rw [tileAt, tileAt, h]

/-! ### Gathered lines written back (08 R190) -/

def withGather (x : Tile) (ws : List WgbEntry) : Tile := { x with pad := { x.pad with wgb := ws } }

/-- From s to u the tiles change in the gather buffer of tile t alone. -/
def OnlyGather (t : Nat) (s u : State) : Prop :=
  (∃ ws, tileAt u t = withGather (tileAt s t) ws) ∧ ∀ x, x ≠ t → tileAt u x = tileAt s x

theorem OnlyGather.refl (t : Nat) (s : State) : OnlyGather t s s := ⟨⟨(tileAt s t).pad.wgb, rfl⟩, fun _ _ => rfl⟩

theorem OnlyGather.trans {t : Nat} {s u v : State} (h : OnlyGather t s u) (k : OnlyGather t u v) : OnlyGather t s v := by
  obtain ⟨⟨_, hu⟩, hrest⟩ := h
  obtain ⟨⟨ws, hv⟩, krest⟩ := k
  exact ⟨⟨ws, by rw [hv, hu]; rfl⟩, fun x hx => (krest x hx).trans (hrest x hx)⟩

theorem OnlyGather.sq {t : Nat} {s u : State} (h : OnlyGather t s u) : (tileAt u t).sq = (tileAt s t).sq := by
  obtain ⟨⟨_, hu⟩, _⟩ := h
  rw [hu]
  rfl

theorem OnlyGather.q {t : Nat} {s u : State} (h : OnlyGather t s u) : (tileAt u t).q = (tileAt s t).q := by
  obtain ⟨⟨_, hu⟩, _⟩ := h
  rw [hu]
  rfl

theorem flushWhere_onlyGather {s : State} {t : Nat} (hst : (tileAt s t).sq.st ≠ .idle) (p : WgbEntry → Bool) :
    OnlyGather t s (flushWhere s t p) := by
  simp only [flushWhere]
  split
  next =>
    generalize hu : (modTile s t fun tl => { tl with pad := { tl.pad with wgb := (tileAt s t).pad.wgb.filter fun w => !p w } }) = u
    obtain ⟨m, b, hflush⟩ := flushEntries_frame t ((tileAt s t).pad.wgb.filter p) u
    have htiles : ∀ x, tileAt (((tileAt s t).pad.wgb.filter p).foldl (flushEntry t) u) x = tileAt u x := fun x =>
      tileAt_congr (by rw [hflush]) x
    subst hu
    refine ⟨⟨(tileAt s t).pad.wgb.filter fun w => !p w, (htiles t).trans ?_⟩, fun x hx => (htiles x).trans (tileAt_setTile_ne s _ hx)⟩
    exact tileAt_setTile_same (x := withGather (tileAt s t) ((tileAt s t).pad.wgb.filter fun w => !p w)) hst s t
  next => exact .refl t s

theorem flushPtr_onlyGather {s : State} {t : Nat} (hst : (tileAt s t).sq.st ≠ .idle) : OnlyGather t s (flushPtr s t) := by
  have hfold : ∀ (a : Nat → Nat) (ls : List Nat) (u : State), (tileAt u t).sq.st ≠ .idle →
      OnlyGather t u (ls.foldl (fun s l => flushPad s t (a l) 8) u) := by
    intro a ls
    induction ls with
    | nil => exact fun u _ => .refl t u
    | cons l ls ih =>
      intro u hu
      have hl : OnlyGather t u (flushPad u t (a l) 8) := flushWhere_onlyGather hu _
      exact hl.trans (ih _ (by rw [hl.sq]; exact hu))
  unfold flushPtr
  split
  · exact .refl t s
  · exact hfold _ _ s hst

/-! ### What holds the next instruction, and what it does (R135 to R137) -/

section Stall
variable {x : Tile} {w : W64} {k : Nat}

theorem dispatchStall_full (hk : queueOf w = some k) (hfull : 16 ≤ (qGet x.q k).length) : dispatchStall x w = some (0x50 + k) := by
  simp [dispatchStall, hk, hfull]

theorem dispatchStall_pending (hroom : ∀ k, queueOf w = some k → (qGet x.q k).length < 16)
    (hpend : ((regsRead w ++ regsWritten w).any fun r => bitAt x.sq.pend r) = true) : dispatchStall x w = some 0x55 := by
  cases hk : queueOf w with
  | none => simp [dispatchStall, hk, -List.any_append, hpend]
  | some k => simp [dispatchStall, hk, -List.any_append, hpend, hroom k hk]

theorem dispatchStall_none (hroom : ∀ k, queueOf w = some k → (qGet x.q k).length < 16)
    (hpend : ((regsRead w ++ regsWritten w).any fun r => bitAt x.sq.pend r) = false) : dispatchStall x w = none := by
  cases hk : queueOf w with
  | none => simp [dispatchStall, hk, -List.any_append, hpend]
  | some k => simp [dispatchStall, hk, -List.any_append, hpend, hroom k hk]

end Stall

section Step
variable {s : State} {t : Nat}

theorem exec_dispatch_of_seqRuns (h : SeqRuns s t) : exec (.dispatch t) s = dispatchStep s t (tileAt s t) := by
  obtain ⟨ht, hst, hfault, hpaused⟩ := h
  show execDispatch t s = _
  simp [execDispatch, withTile, ht, hst, hfault, hpaused]

theorem dispatchStep_stalled {x : Tile} {c : Nat} (h : dispatchStall x (instrAt x.sq x.sq.pc) = some c) :
    dispatchStep s t x = .next (setTile s t { x with sq := bumpStall x.sq c }) := by
  simp [dispatchStep, h]

/-- With nothing that holds the instruction, the entries of its iteration decide: one that waits on a tag, or none (R151). -/
theorem dispatchStep_refreshed {x : Tile} {ls : List ActiveLoop} {wait : Bool}
    (hfree : dispatchStall x (instrAt x.sq x.sq.pc) = none)
    (hls : refreshLoops (flushPtr s t) t (tileAt (flushPtr s t) t).sq.loops = .ok (ls, wait)) :
    dispatchStep s t x =
      let u := flushPtr s t
      let y := tileAt u t
      let tl : Tile := { y with sq := { y.sq with loops := ls } }
      if wait then .next (setTile u t { tl with sq := bumpStall tl.sq 0x56 })
      else settle u t y.sq.pc (dispatchOne tl (instrAt y.sq y.sq.pc)) := by
  simp only [dispatchStep, hfree, hls]

theorem exec_dispatch_stalled (h : SeqRuns s t) {c : Nat}
    (hc : dispatchStall (tileAt s t) (instrAt (tileAt s t).sq (tileAt s t).sq.pc) = some c) :
    exec (.dispatch t) s = .next (setTile s t { tileAt s t with sq := bumpStall (tileAt s t).sq c }) :=
  (exec_dispatch_of_seqRuns h).trans (dispatchStep_stalled hc)

end Step

section One
variable {x : Tile} {w : W64} {k : Nat}

theorem dispatchOne_halt (h : opc w = 0x00) : dispatchOne x w = .ok { x with sq := { bumpDispatched x.sq with st := .halted } } := by
  simp [dispatchOne, h]

theorem dispatchOne_jmp (h : opc w = 0x01) :
    dispatchOne x w = goTo { x with sq := bumpStall (bumpDispatched x.sq) 0x57 } (fld w 11 0) := by
  simp [dispatchOne, h]

theorem dispatchOne_jnz (h : opc w = 0x02) : dispatchOne x w = doJnz x w := by simp [dispatchOne, h]

theorem dispatchOne_lend (h : opc w = 0x09) : dispatchOne x w = doLend x w := by simp [dispatchOne, h]

theorem dispatchOne_plist (h : opc w = 0x0A) : dispatchOne x w = doPlist x w := by simp [dispatchOne, h]

/-- An instruction of a unit queue has none of the sequencer's own opcodes (R135). -/
theorem dispatchOne_queue (h : queueOf w = some k) : dispatchOne x w = doEnqueue x w k := by
  simp only [dispatchOne]
  split
  case h_7 => rw [h]
  all_goals
    next hop => simp [queueOf, hop] at h

theorem goTo_of_le {pc : Nat} (h : pc ≤ 4095) : goTo x pc = .ok { x with sq := { x.sq with pc := pc } } := if_neg (by omega)

theorem goTo_past {pc : Nat} (h : 4095 < pc) : goTo x pc = .error { status := stBadParam, detail := [1] } := if_pos h

/-- The value a JNZ tests (R148). -/
def jnzTested (q : Sequencer) (w : W64) : Nat :=
  if bitAt w 50 then fld (arrGet q.s (fld w 55 52) 0) 15 0 else (arrGet q.s (fld w 55 52) 0).toNat

theorem doJnz_zero (h : jnzTested x.sq w = 0) : doJnz x w = goTo { x with sq := bumpDispatched x.sq } (x.sq.pc + 1) := if_pos h

theorem doJnz_taken (h : jnzTested x.sq w ≠ 0) :
    doJnz x w = goTo { x with sq := bumpStall (bumpDispatched (if bitAt w 51 then
      { x.sq with s := arrSet x.sq.s (fld w 55 52) (arrGet x.sq.s (fld w 55 52) 0 - 1) 0 } else x.sq)) 0x57 } (fld w 11 0) := if_neg h

theorem settle_goTo {s : State} {t i pc : Nat} (h : pc ≤ 4095) :
    settle s t i (goTo x pc) = .next (setTile s t { x with sq := { x.sq with pc := pc } }) := by
  rw [goTo_of_le h, settle]

end One

/-- Settles O6: with no stall and no entry to wait for, the opcode says which part of the sequencer's A-cycle acts. -/
theorem dispatchExecutesOrEnqueues : Obligations.DispatchExecutesOrEnqueues := by
  intro s t hruns tl0 w blocked counts
  refine ⟨fun k hk hfull => ?full, fun k hk hroom hpend => ?reg, fun hk hpend => ?regOwn, fun hpend hroom ls wait hls => ?free⟩
  case full => exact exec_dispatch_stalled hruns (dispatchStall_full hk hfull)
  case reg =>
    refine exec_dispatch_stalled hruns (dispatchStall_pending (fun j hj => ?_) hpend)
    obtain rfl : k = j := Option.some.inj (hk.symm.trans hj)
    exact hroom
  case regOwn => exact exec_dispatch_stalled hruns (dispatchStall_pending (fun j hj => nomatch hk.symm.trans hj) hpend)
  case free =>
    have hsq : (tileAt (flushPtr s t) t).sq = tl0.sq := (flushPtr_onlyGather (by rw [hruns.2.1]; decide)).sq
    have hstep := (exec_dispatch_of_seqRuns hruns).trans (dispatchStep_refreshed (dispatchStall_none hroom hpend) hls)
    intro u tl q gives
    have hw : instrAt (tileAt u t).sq (tileAt u t).sq.pc = w := by rw [hsq]
    refine ⟨fun hwait => ?waits, fun hgo => ?goes⟩
    case waits => rw [hwait] at hstep; exact hstep
    case goes =>
      have hgoes : exec (.dispatch t) s = settle u t q.pc (dispatchOne tl w) := by rw [hgo] at hstep; rw [← hw]; exact hstep
      have hjump : fld w 11 0 ≤ 4095 := Nat.le_of_lt_succ (fld_lt w 11 0)
      refine ⟨fun k hk hpc => ?queue, fun hop => ?halt, fun hop => ?jmp, fun hop => ⟨fun hzero hpc => ?stay, fun hnz => ?jump⟩⟩
      all_goals refine hgoes.trans ?_
      case queue => rw [dispatchOne_queue hk]; exact settle_goTo hpc
      case halt => rw [dispatchOne_halt hop]; rfl
      case jmp => rw [dispatchOne_jmp hop]; exact settle_goTo hjump
      case stay => rw [dispatchOne_jnz hop, doJnz_zero hzero]; exact settle_goTo hpc
      case jump => rw [dispatchOne_jnz hop, doJnz_taken hnz]; exact settle_goTo hjump

/-! ### Dispatch past index 4,095 (R140) -/

section Past
variable {x : Tile} {w : W64}

theorem doEnqueue_past (h : x.sq.pc = 4095) (k : Nat) : doEnqueue x w k = .error { status := stBadParam, detail := [1] } :=
  goTo_past (by omega)

theorem doJnz_past (h : x.sq.pc = 4095) (hzero : jnzTested x.sq w = 0) : doJnz x w = .error { status := stBadParam, detail := [1] } := by
  rw [doJnz_zero hzero]
  exact goTo_past (by omega)

/-- A LEND that ends its loop goes to the next index (R170). -/
theorem doLend_past (h : x.sq.pc = 4095) {lp : ActiveLoop} {rest : List ActiveLoop} (hloops : x.sq.loops = lp :: rest)
    (hld : lp.ld = fld w 55 52) (hlast : ldAdvance lp.desc (ldLevels lp.desc) lp.idx = none) :
    doLend x w = .error { status := stBadParam, detail := [1] } := by
  simp only [doLend, hloops, if_neg (not_not_intro hld), hlast]
  exact goTo_past (by omega)

theorem doPlist_past (h : x.sq.pc = 4095) (hlist : 8 * fld w 47 30 + 8 * (fld w 11 0 + 1) ≤ 0x200000) (hlevel : fld w 51 49 ≤ 5) :
    doPlist x w = .error { status := stBadParam, detail := [1] } := by
  simp only [doPlist]
  rw [if_neg (by omega)]
  split
  · exact goTo_past (by omega)
  · exact goTo_past (by omega)

end Past

/-- An instruction that DISPATCH would pass to the next index. -/
def Advances (x : Tile) (w : W64) : Prop :=
  (∃ k, queueOf w = some k ∧ (qGet x.q k).length < 16) ∨
  (opc w = 0x02 ∧ jnzTested x.sq w = 0) ∨
  (opc w = 0x09 ∧ ∃ lp rest, x.sq.loops = lp :: rest ∧ lp.ld = fld w 55 52 ∧ ldAdvance lp.desc (ldLevels lp.desc) lp.idx = none) ∨
  (opc w = 0x0A ∧ 8 * fld w 47 30 + 8 * (fld w 11 0 + 1) ≤ 0x200000 ∧ fld w 51 49 ≤ 5)

theorem Advances.dispatchOne_past {x : Tile} {w : W64} (h : Advances x w) (hpc : x.sq.pc = 4095) :
    dispatchOne x w = .error { status := stBadParam, detail := [1] } := by
  obtain ⟨k, hk, _⟩ | ⟨hop, hzero⟩ | ⟨hop, lp, rest, hloops, hld, hlast⟩ | ⟨hop, hlist, hlevel⟩ := h
  · rw [dispatchOne_queue hk, doEnqueue_past hpc]
  · rw [dispatchOne_jnz hop, doJnz_past hpc hzero]
  · rw [dispatchOne_lend hop, doLend_past hpc hloops hld hlast]
  · rw [dispatchOne_plist hop, doPlist_past hpc hlist hlevel]

theorem Advances.room {x : Tile} {w : W64} (h : Advances x w) (k : Nat) (hk : queueOf w = some k) : (qGet x.q k).length < 16 := by
  obtain ⟨j, hj, hroom⟩ | ⟨hop, _⟩ | ⟨hop, _⟩ | ⟨hop, _⟩ := h
  · obtain rfl : j = k := Option.some.inj (hj.symm.trans hk)
    exact hroom
  all_goals simp [queueOf, hop] at hk

theorem exec_dispatch_past {s : State} {t : Nat} {ls : List ActiveLoop} (hruns : SeqRuns s t)
    (hls : refreshLoops (flushPtr s t) t (tileAt (flushPtr s t) t).sq.loops = .ok (ls, false)) :
    let u := flushPtr s t
    let x : Tile := { tileAt u t with sq := { (tileAt u t).sq with loops := ls } }
    let w := instrAt x.sq 4095
    x.sq.pc = 4095 → ((regsRead w ++ regsWritten w).any fun r => bitAt x.sq.pend r) = false → Advances x w →
    exec (.dispatch t) s = .next (tileFatal u t 8 4095 { status := stBadParam, detail := [1] }) := by
  intro u x w hpc hpend hadv
  have hkeep : OnlyGather t s u := flushPtr_onlyGather (by rw [hruns.2.1]; decide)
  have hpc0 : (tileAt s t).sq.pc = 4095 := by rw [← hkeep.sq]; exact hpc
  have hfree : dispatchStall (tileAt s t) (instrAt (tileAt s t).sq (tileAt s t).sq.pc) = none := by
    rw [hpc0]
    rw [← hkeep.sq]
    exact dispatchStall_none (fun k hk => by rw [← hkeep.q]; exact hadv.room k hk) (by rw [← hkeep.sq]; exact hpend)
  refine ((exec_dispatch_of_seqRuns hruns).trans (dispatchStep_refreshed hfree hls)).trans ?_
  have hw : instrAt (tileAt u t).sq (tileAt u t).sq.pc = w := congrArg (instrAt (tileAt u t).sq) hpc
  show settle u t x.sq.pc (dispatchOne x (instrAt (tileAt u t).sq (tileAt u t).sq.pc)) = _
  rw [hw, hadv.dispatchOne_past hpc, hpc, settle]

/-! ### The PC stays within the 4,096 indices -/

/-- The PC of every tile is one of the indices 0 to 4,095. -/
def PcInRange (s : State) : Prop := ∀ x, (tileAt s x).sq.pc ≤ 4095

theorem PcInRange.of_tiles {s u : State} (h : PcInRange s) (htiles : u.tiles = s.tiles) : PcInRange u := fun x => by
  rw [tileAt_congr htiles]
  exact h x

theorem PcInRange.onlyGather {s u : State} {t : Nat} (h : PcInRange s) (hu : OnlyGather t s u) : PcInRange u := fun x => by
  by_cases hx : x = t
  · rw [hx, hu.sq]
    exact h t
  · rw [hu.2 x hx]
    exact h x

theorem PcInRange.setTile {s : State} (h : PcInRange s) {y : Tile} (hst : y.sq.st ≠ .idle) (hpc : y.sq.pc ≤ 4095) (t : Nat) :
    PcInRange (setTile s t y) := fun x => by
  by_cases hx : x = t
  · rw [hx, tileAt_setTile_same hst]
    exact hpc
  · rw [tileAt_setTile_ne s y hx]
    exact h x

/-- A JOB reset sets the PC of every listed tile to 0 (19 R451). -/
theorem pcInRange_of_jobReset {s u : State} (h : u.tiles = (resetTiles s tileJobReset).tiles) : PcInRange u := fun x => by
  obtain hdefault | ⟨e, he, hget⟩ := arrGet_default_or_mem u.tiles x tileReset
  · rw [tileAt, hdefault]
    exact Nat.zero_le _
  · rw [h] at he
    obtain ⟨e0, _, hreset⟩ := List.mem_filterMap.mp he
    simp only [Option.ite_none_left_eq_some, Option.some.injEq] at hreset
    rw [tileAt, hget, ← hreset.2]
    exact Nat.zero_le _

/-! ### What the failure of a job changes of the tiles: nothing, or the JOB reset (14 R335, 19 R447) -/

section Failure

theorem serveLeave_tiles (n : Nat) : ∀ s : State, (serveLeave n s).tiles = s.tiles := by
  induction n with
  | zero => exact fun s => rfl
  | succ n ih =>
    intro s
    simp only [serveLeave]
    split
    · rfl
    · next r _ =>
      split
      · rfl
      · split
        · rw [ih]
          cases r.who <;> rfl
        · rfl

theorem releaseLeave_tiles (s : State) (w : LeaveFor) : (releaseLeave s w).tiles = s.tiles := serveLeave_tiles _ _

theorem foldl_tiles {β : Type} {f : State → β → State} (hf : ∀ s b, (f s b).tiles = s.tiles) (l : List β) (s : State) :
    (l.foldl f s).tiles = s.tiles := by
  induction l generalizing s with
  | nil => rfl
  | cons b l ih => rw [List.foldl_cons, ih, hf]

theorem releaseJobLeave_tiles (s : State) (j : Nat) : (releaseJobLeave s j).tiles = s.tiles :=
  foldl_tiles (fun u k => by rw [releaseLeave_tiles, releaseLeave_tiles]) _ s

theorem refuse_tiles (s : State) (k st d : Nat) : (refuse s k st d).tiles = s.tiles :=
  (congrArg (·.tiles) (complete_frame s k st d 0 0) :)

theorem sendResp_tiles (s : State) (h : RespHead) (bs : List Byte) : (sendResp s h bs).tiles = s.tiles := by
  obtain ⟨c, hc⟩ := sendResp_frame s h bs
  rw [hc]

theorem tellCascade_tiles (s : State) (j : Job) (code : Nat) (bs : List Byte) : (tellCascade s j code bs).tiles = s.tiles := by
  unfold tellCascade
  split
  · exact foldl_tiles (fun u d => sendResp_tiles u _ bs) _ s
  · rfl

theorem giveDevice_tiles (s : State) (j : Job) : (giveDevice s j).tiles = s.tiles := tellCascade_tiles _ _ _ _

theorem passDevice_tiles (s : State) : (passDevice s).tiles = s.tiles := by
  simp only [passDevice]
  split
  · rfl
  · split
    · exact giveDevice_tiles _ _
    · split
      · split
        · rfl
        · exact giveDevice_tiles _ _
      · rfl

theorem passIfFree_tiles (s : State) : (passIfFree s).tiles = s.tiles := by
  unfold passIfFree
  split
  · exact passDevice_tiles s
  · rfl

theorem withdrawDecision_tiles (s : State) : (withdrawDecision s).tiles = s.tiles := by
  unfold withdrawDecision
  split
  · split
    · simp only
      split
      · exact tellCascade_tiles _ _ _ _
      · rfl
    · rfl
  · rfl

/-- The two ends of a failure: the job that held the device gives up the tiles, any other one leaves them alone. -/
theorem failEnd_tiles (u : State) (j : Nat) (held : Bool) :
    let v := if held then passDevice (jobReset { u with comp := none, sw := none } j) else passIfFree (withdrawDecision u)
    v.tiles = u.tiles ∨ v.tiles = (resetTiles u tileJobReset).tiles := by
  cases held with
  | false => exact .inl ((passIfFree_tiles _).trans (withdrawDecision_tiles u))
  | true => exact .inr (passDevice_tiles _)

theorem failJob_tiles (s : State) (j st : Nat) :
    (failJob s j st).tiles = s.tiles ∨ (failJob s j st).tiles = (resetTiles s tileJobReset).tiles := by
  simp only [failJob]
  split
  · exact .inl rfl
  next x _ =>
    split
    · exact .inl rfl
    · generalize hu : notify _ _ = u
      have hkept : u.tiles = s.tiles := by
        subst hu
        rw [notify_tiles]
        split
        · exact releaseJobLeave_tiles s j
        · exact (foldl_tiles (fun v k => refuse_tiles v k _ 0) _ _).trans (releaseJobLeave_tiles s j)
      have hreset : (resetTiles u tileJobReset).tiles = (resetTiles s tileJobReset).tiles := by simp only [resetTiles, hkept]
      rw [← hreset, ← hkept]
      exact failEnd_tiles u j _

theorem failComputing_tiles (s : State) (st : Nat) :
    (failComputing s st).tiles = s.tiles ∨ (failComputing s st).tiles = (resetTiles s tileJobReset).tiles := by
  unfold failComputing
  split
  · exact failJob_tiles s _ st
  · exact .inl rfl

theorem jobRecord_tiles (s : State) (src status sev loc0 loc1 : Nat) (detail : List Nat) :
    (jobRecord s src status sev loc0 loc1 detail).tiles = s.tiles :=
  (congrArg (·.tiles) (addRecord_frame s status (if sev = 2 ∧ s.comp.getD 0 = 0 then 1 else sev) false false src (s.comp.getD 0) loc0 loc1
    detail) :)

end Failure

/-- A job-fatal error sets FAULT on its tile, and at most the JOB reset follows. -/
theorem PcInRange.tileFatal {s : State} {t : Nat} (h : PcInRange s) (hst : (tileAt s t).sq.st ≠ .idle) (unit idx : Nat) (e : TErr) :
    PcInRange (tileFatal s t unit idx e) := by
  have hrecord : PcInRange (tileRecord s t unit idx e) :=
    (h.setTile (y := { tileAt s t with sq := { (tileAt s t).sq with fault := true } }) hst (h t) t).of_tiles (jobRecord_tiles _ _ _ _ _ _ _)
  obtain hsame | hreset := failComputing_tiles (tileRecord s t unit idx e) e.status
  · exact hrecord.of_tiles hsame
  · exact pcInRange_of_jobReset hreset

/-! ### What DISPATCH leaves in the PC -/

/-- An accepted dispatch leaves the tile RUNNING or HALTED, at an index within the 4,096. -/
def Dispatched (y : Tile) : Prop := y.sq.st ≠ .idle ∧ y.sq.pc ≤ 4095

theorem dispatched_of_goTo {x y : Tile} {pc : Nat} (hst : x.sq.st ≠ .idle) (h : goTo x pc = .ok y) : Dispatched y := by
  by_cases hpc : pc ≤ 4095
  · rw [goTo_of_le hpc] at h
    cases h
    exact ⟨hst, hpc⟩
  · rw [goTo_past (by omega)] at h
    cases h

section Each
variable {x y : Tile} {w : W64} (hst : x.sq.st ≠ .idle)
include hst

theorem dispatched_of_doJnz (h : doJnz x w = .ok y) : Dispatched y := by
  by_cases hzero : jnzTested x.sq w = 0
  · rw [doJnz_zero hzero] at h
    exact dispatched_of_goTo (by exact hst) h
  · rw [doJnz_taken hzero] at h
    refine dispatched_of_goTo ?_ h
    by_cases hdec : bitAt w 51 = true
    · rw [if_pos hdec]; exact hst
    · rw [if_neg hdec]; exact hst

theorem dispatched_of_doLoop (h : doLoop x w = .ok y) : Dispatched y := by
  simp only [doLoop] at h
  split at h
  · cases h
  · split at h
    · cases h
    · split at h
      · exact dispatched_of_goTo (by exact hst) h
      · split at h
        · cases h
        · split at h
          · cases h
          · exact dispatched_of_goTo (by exact hst) h

theorem dispatched_of_doLend (h : doLend x w = .ok y) : Dispatched y := by
  simp only [doLend] at h
  split at h
  · cases h
  · split at h
    · cases h
    · split at h
      · exact dispatched_of_goTo (by exact hst) h
      · exact dispatched_of_goTo (by exact hst) h

theorem dispatched_of_doPlist (h : doPlist x w = .ok y) : Dispatched y := by
  simp only [doPlist] at h
  split at h
  · cases h
  · split at h
    · exact dispatched_of_goTo (by exact hst) h
    · exact dispatched_of_goTo (by exact hst) h

theorem dispatched_of_dispatchOne (hpc : x.sq.pc ≤ 4095) (h : dispatchOne x w = .ok y) : Dispatched y := by
  simp only [dispatchOne] at h
  split at h
  · cases h
    exact ⟨nofun, hpc⟩
  · exact dispatched_of_goTo (by exact hst) h
  · exact dispatched_of_doJnz hst h
  · exact dispatched_of_doLoop hst h
  · exact dispatched_of_doLend hst h
  · exact dispatched_of_doPlist hst h
  · split at h
    · exact dispatched_of_goTo (by exact hst) h
    · cases h

end Each

theorem pcInRange_of_settle {s u : State} {t i : Nat} {x : Tile} {w : W64} (h : PcInRange s) (hs : (tileAt s t).sq.st ≠ .idle)
    (hst : x.sq.st ≠ .idle) (hpc : x.sq.pc ≤ 4095) (hu : settle s t i (dispatchOne x w) = .next u) : PcInRange u := by
  cases hone : dispatchOne x w with
  | ok y =>
    rw [hone, settle] at hu
    cases hu
    obtain ⟨hyst, hypc⟩ := dispatched_of_dispatchOne hst hpc hone
    exact h.setTile hyst hypc t
  | error e =>
    rw [hone, settle] at hu
    cases hu
    exact h.tileFatal hs 8 i e

/-- Every branch of a running tile's dispatch keeps the PCs in range: the stalls, the reads that fail or wait, the instruction. -/
theorem pcInRange_of_dispatchStep {s u : State} {t : Nat} (h : PcInRange s) (hst : (tileAt s t).sq.st ≠ .idle)
    (hu : dispatchStep s t (tileAt s t) = .next u) : PcInRange u := by
  have hkeep : OnlyGather t s (flushPtr s t) := flushPtr_onlyGather hst
  have hflush : PcInRange (flushPtr s t) := h.onlyGather hkeep
  have hrun : (tileAt (flushPtr s t) t).sq.st ≠ .idle := by rw [hkeep.sq]; exact hst
  simp only [dispatchStep] at hu
  split at hu
  · cases hu
    refine h.setTile ?_ ?_ t
    · exact hst
    · exact h t
  · split at hu
    · cases hu
      exact hflush.tileFatal hrun 8 _ _
    · split at hu
      · cases hu
        refine hflush.setTile ?_ ?_ t
        · exact hrun
        · exact hflush t
      · refine pcInRange_of_settle hflush hrun ?_ ?_ hu
        · exact hrun
        · exact hflush t

theorem pcInRange_of_dispatch {s u : State} {t : Nat} (h : PcInRange s) (hu : exec (.dispatch t) s = .next u) : PcInRange u := by
  replace hu : execDispatch t s = .next u := hu
  simp only [execDispatch, withTile] at hu
  split at hu
  · split at hu
    · cases hu
      exact h
    next hruns =>
      refine pcInRange_of_dispatchStep h (fun hidle => hruns (.inl ?_)) hu
      rw [hidle]
      decide
  · cases hu

/-- Settles O8: an instruction that would pass index 4,095 ends in the error of `goTo`, the only setter of a PC. -/
theorem dispatchPastTheLastIndexIsFatal : Obligations.DispatchPastTheLastIndexIsFatal :=
  ⟨fun _ _ _ hruns hls hpc hpend hadv => exec_dispatch_past hruns hls hpc hpend hadv, fun _ _ _ h hu => pcInRange_of_dispatch h hu⟩

end Sys2Proof.Machine

/-! PROOF. Instructions at the head of a unit queue that the tile carries out itself: MARK, CSET and CGET, STRM, STRW, RECV and FREE
(06 R143, R149, R152, R154, R155, R157, R158). -/

namespace Sys2Proof.Machine

/-! ### MARK (R149) -/

theorem withQueue_of_le {q : Nat} (hq : q ≤ 4) (s : State) (k : Outcome) : withQueue q s k = k := if_pos hq

/-- A MARK that leaves its head: late when the target has passed and it had not waited. -/
def markPassed (now target q : Nat) (x : Tile) (e : QEntry) : Tile :=
  let late := !e.sent && decide (target < now) && decide (x.sq.markLate.toNat < 2 ^ 32 - 1)
  { popHead x q with sq := { (popHead x q).sq with markLate := if late then x.sq.markLate + 1 else x.sq.markLate } }

theorem exec_mark_of_atHead {s : State} {t q : Nat} {e : QEntry} (hq : q ≤ 4) (h : AtHead s t q 0x03 e) :
    exec (.mark t q) s =
      if shaftCount s < markTarget e then .next (setTile s t (setHead (tileAt s t) q { e with sent := true }))
      else .next (setTile s t (markPassed (shaftCount s) (markTarget e) q (tileAt s t) e)) := by
  show execMark t q s = _
  rw [execMark, withQueue_of_le hq, withHead_of_atHead h]
  rfl

theorem markPassed_inTime {now target q : Nat} {x : Tile} {e : QEntry} (h : target = now ∨ e.sent = true) :
    markPassed now target q x e = popHead x q := by
  have hlate : (!e.sent && decide (target < now)) = false := by
    obtain rfl | hsent := h
    · simp
    · simp [hsent]
  simp only [markPassed, hlate, Bool.false_and]
  rfl

theorem markPassed_late {now target q : Nat} {x : Tile} {e : QEntry} (h : target < now) (hsent : e.sent = false) :
    markPassed now target q x e = { popHead x q with
      sq := { (popHead x q).sq with
        markLate := if x.sq.markLate.toNat < 2 ^ 32 - 1 then x.sq.markLate + 1 else x.sq.markLate } } := by
  simp [markPassed, h, hsent]

/-- Settles O9: three cases of the count against the target, and whether the MARK had waited. -/
theorem markWaitsForTheShaftCount : Obligations.MarkWaitsForTheShaftCount := by
  intro s t q e hq h tl target
  have hexec := exec_mark_of_atHead hq h
  have hpassed : target ≤ shaftCount s →
      exec (.mark t q) s = .next (setTile s t (markPassed (shaftCount s) target q tl e)) := fun hle =>
    hexec.trans (if_neg (Nat.not_lt.mpr hle))
  refine ⟨fun hbelow => ?below, fun hat => ?atTarget, fun habove hsent => ?above⟩
  case below => exact hexec.trans (if_pos hbelow)
  case atTarget => rw [hpassed (hat.elim Nat.le_of_eq And.left), markPassed_inTime (hat.imp_right And.right)]
  case above => rw [hpassed (Nat.le_of_lt habove), markPassed_late habove hsent]

/-! ### CSET and CGET (R143, R152) -/

/-- What a CSET writes: s[SA] or IMM. -/
def csetValue (e : QEntry) : W64 := if bitAt e.word 51 then e.a else BitVec.ofNat 64 (fld e.word 31 0)

/-- The control write of a CSET. -/
def csetWrite (s : State) (t : Nat) (e : QEntry) : Except TErr Tile :=
  ctlWrite .cset (tileAt s t) (jobSplit s) (4 * fld e.word 46 33) (bitAt e.word 52) (csetValue e)

/-- What a CGET writes to s[SD]: a sequencer register as captured at dispatch, its upper half by the shift, else the register read. -/
def cgetValue (s : State) (t : Nat) (e : QEntry) : W64 :=
  if (csetReg e.word).isNone then ctlRead (tileAt s t) (jobSplit s) (4 * fld e.word 46 33) (bitAt e.word 52)
  else if bitAt e.word 52 then e.a else BitVec.ofNat 64 (e.a.toNat / 2 ^ ((4 * fld e.word 46 33 % 8) * 8) % 2 ^ 32)

section Control
variable {s : State} {t q : Nat} {e : QEntry} (hq : q ≤ 4)
include hq

theorem exec_cset_of_ok (h : AtHead s t q 0x0C e) (hheld : csetHeld (tileAt s t) e = false) {y : Tile} (hok : csetWrite s t e = .ok y) :
    exec (.cset t q) s = .next (setTile s t { popHead y q with
      sq := { (popHead y q).sq with pend := setPend (popHead y q).sq.pend (csetReg e.word).toList false } }) := by
  show execCset t q s = _
  rw [csetWrite, csetValue] at hok
  simp only [execCset, withQueue_of_le hq, withHead_of_atHead h, hheld, hok]
  rfl

theorem exec_cset_of_error (h : AtHead s t q 0x0C e) (hheld : csetHeld (tileAt s t) e = false) {x : TErr}
    (herr : csetWrite s t e = .error x) : exec (.cset t q) s = .next (tileFatal s t 8 e.idx x) := by
  show execCset t q s = _
  rw [csetWrite, csetValue] at herr
  simp only [execCset, withQueue_of_le hq, withHead_of_atHead h, hheld, herr]
  rfl

theorem exec_cget_of_atHead (h : AtHead s t q 0x0D e) :
    exec (.cget t q) s = .next (setTile s t (writeReg (popHead (tileAt s t) q) (fld e.word 51 48) (cgetValue s t e))) := by
  show execCget t q s = _
  rw [execCget, withQueue_of_le hq, withHead_of_atHead h]
  rfl

end Control

/-- Settles O10: the control write or its error, and the three sources of a CGET. -/
theorem csetWritesAndCgetReadsTheControlSpace : Obligations.CsetWritesAndCgetReadsTheControlSpace := by
  intro s t q e hq
  constructor
  case left =>
    intro h hheld v
    exact ⟨fun y hok => exec_cset_of_ok hq h hheld hok, fun x herr => exec_cset_of_error hq h hheld herr⟩
  intro h
  have hexec := exec_cget_of_atHead hq h
  refine ⟨fun hnone => ?control, fun hreg hwide => ?wide, fun hreg hhalf => ?half⟩
  case control => rwa [cgetValue, if_pos (by simp [hnone])] at hexec
  case wide => rwa [cgetValue, if_neg (by simpa using hreg), if_pos hwide] at hexec
  case half => rwa [cgetValue, if_neg (by simpa using hreg), if_neg (by simp [hhalf])] at hexec

/-! ### STRM and DESCRIPTOR_FETCH (R154, 08 R186, R194) -/

section Chain
variable {s : State} {t sl : Nat}

theorem exec_strm_of_free {e : QEntry} (h : AtHead s t 2 0x20 e) (hsent : e.sent = false) (hsl : fld e.word 55 53 ≤ 5)
    (hfree : (slotN (tileAt s t).pad (fld e.word 55 53)).chain = none) :
    exec (.strm t) s = .next (setTile s t (setHead (setSlot (tileAt s t) (fld e.word 55 53) fun x =>
      { x with
        chain := some { rel := bitAt e.word 52, strm := e.idx, seq := e.seq, loops := e.loops, next := fld e.word 14 0, burst := []
                        fetched := 0, attr := none, row := 0, count0 := 0, hdr := false, missed := false }
        tagw := false
        daddr := fld e.word 14 0 }) 2 { e with sent := true })) := by
  show execStrm t s = _
  rw [execStrm, withHead_of_atHead h]
  simp only [if_neg (Nat.not_lt.mpr hsl), hsent, hfree, Option.isSome_none, Bool.false_eq_true, or_self, if_false]

theorem exec_descriptorFetch_of_chain {c : Chain} (ht : t < 2304) (hsl : sl ≤ 5) (hlive : tileLive (tileAt s t) = true)
    (hpaused : tilePaused s t = false) (hchain : (slotN (tileAt s t).pad sl).chain = some c) (hburst : c.burst = [])
    (hwaits : headWaits s t c = false) : exec (.descriptorFetch t sl) s = .next (fetchStep s t sl (tileAt s t) c) := by
  show execDescriptorFetch t sl s = _
  simp [execDescriptorFetch, withSlot, withTile, ht, hsl, hlive, hpaused, hchain, hburst, hwaits]

theorem fetchStep_of_empty {x : Tile} {c : Chain} (h : slotEmptyAt s t (c.next / 8) = true) :
    fetchStep s t sl x c = setTile s t (setSlot x sl fun z => { z with tagw := true, daddr := c.next % 2 ^ 15 }) := if_pos h

/-- The burst at the chain's next address, with its deadlines fixed now. -/
def nextBurst (s : State) (t : Nat) (c : Chain) : List Desc :=
  fixDeadlines (shaftCount s) (fetchBurst (flushPad s t (64 * c.next) 512) t (8 - c.next % 8) c.next)

/-- Where the chain goes on after a burst: at the target of its link, or at the next slot. -/
def afterBurst (c : Chain) (ds : List Desc) : Nat :=
  match ds.getLast? with
  | some d => if descKind d = 3 then dwf d 0 14 0 else (c.next / 8 + 1) * 8 % 2 ^ 15
  | none => c.next

theorem fetchStep_of_accepted {x : Tile} {c : Chain} (h : slotEmptyAt s t (c.next / 8) = false)
    (hlen : c.fetched + (nextBurst s t c).length ≤ 32768)
    (hcheck : burstCheck c.loops sl (nextBurst s t c) (c.attr.map attrOf) c.row (if c.row = 0 then none else some c.count0) = none) :
    fetchStep s t sl x c = modTile (flushPad s t (64 * c.next) 512) t fun y =>
      let z := setSlot y sl fun z =>
        { z with
          chain := some { c with burst := nextBurst s t c, fetched := c.fetched + (nextBurst s t c).length, next := afterBurst c (nextBurst s t c) }
          tagw := false
          daddr := c.next % 2 ^ 15 }
      if c.fetched = 0 then popHead z 2 else z := by
  rw [nextBurst] at hlen hcheck
  simp only [fetchStep, h, Bool.false_eq_true, if_false, if_neg (Nat.not_lt.mpr hlen), hcheck]
  rfl

end Chain

/-- Settles O15: a free slot takes the chain; its tag, then the checks of the burst, decide the fetch. -/
theorem chainsStartAndFetch : Obligations.ChainsStartAndFetch := by
  constructor
  case left =>
    intro s t e h hsent sl hsl hfree c
    exact exec_strm_of_free h hsent hsl hfree
  intro s t sl c ht hsl hlive hpaused hchain hburst hwaits
  have hexec := exec_descriptorFetch_of_chain ht hsl hlive hpaused hchain hburst hwaits
  constructor
  case left =>
    intro hempty
    rwa [fetchStep_of_empty hempty] at hexec
  case right =>
    intro hfull u ds nxt hlen hcheck
    rw [fetchStep_of_accepted hfull hlen hcheck] at hexec
    exact hexec

/-! ### STRW (R155, 08 R186, R188, R190) -/

section Strw
variable {s : State} {t : Nat} {e : QEntry} (h : AtHead s t 2 0x21 e)
include h

theorem exec_strw_of_empty (hempty : slotEmptyAt s t (strwSlot e) = true) :
    exec (.strw t) s = .next (setTile s t (setHead (tileAt s t) 2 { e with sent := true })) := by
  show execStrw t s = _
  rw [execStrw, withHead_of_atHead h]
  exact if_pos hempty

/-- With the slot free for it and no earlier access that goes first, the word itself decides. -/
theorem exec_strw_of_turn (hfull : slotEmptyAt s t (strwSlot e) = false)
    (hfirst : e.sent = true → goesFirst s { tile := t, place := 7, slots := [(t, strwSlot e)] } = false) :
    exec (.strw t) s =
      let a := 64 * fld e.word 55 41
      let o := fld e.word 40 37
      let v := if bitAt e.word 36 then e.a.toNat % 2 ^ 32 else fld e.word 31 0
      if strwReserved (padBytes s t a 64) o v then .next (tileFatal s t 8 e.idx { status := stBadParam, detail := [1] })
      else .next (modTile (flushPad (wgbWrite s t (a + 4 * o) (leBytes 4 v) false) t (a + 4 * o) 4) t fun x => popHead x 2) := by
  have hturn : (e.sent && goesFirst s { tile := t, place := 7, slots := [(t, strwSlot e)] }) = false := by
    cases hsent : e.sent with
    | false => rfl
    | true => exact hfirst hsent
  show execStrw t s = _
  rw [execStrw, withHead_of_atHead h]
  simp only [hfull, hturn, Bool.false_eq_true, if_false]
  rfl

end Strw

theorem exec_wgbIdleFlush {s : State} {t : Nat} (ht : t < 2304) (line : Nat) :
    exec (.wgbIdleFlush t line) s =
      .next (if (tileAt s t).pad.wgb.any fun w => w.line = line && decide (64 ≤ w.idle) then flushPad s t (128 * line) 128 else s) := by
  show execWgbIdleFlush t line s = _
  rw [execWgbIdleFlush, withTile, if_pos ht]
  split <;> rfl

/-- Settles O18: the tag, then the turn, then the word of an STRW; and the age of a gathered line. -/
theorem strwWritesOneWord : Obligations.StrwWritesOneWord := by
  constructor
  case left =>
    intro s t e h a o v first
    refine ⟨fun hempty => exec_strw_of_empty h hempty, fun hfull hfirst hres => ?_, fun hfull hfirst hres => ?_⟩
    · exact (exec_strw_of_turn h hfull hfirst).trans (if_pos hres)
    · exact (exec_strw_of_turn h hfull hfirst).trans (if_neg (ne_true_of_eq_false hres))
  case right =>
    intro s t line ht due
    refine ⟨fun hdue => ?_, fun hdue => ?_⟩
    · exact (exec_wgbIdleFlush ht line).trans (congrArg _ (if_pos hdue))
    · exact (exec_wgbIdleFlush ht line).trans (congrArg _ (if_neg (ne_true_of_eq_false hdue)))

/-! ### RECV, the paired RECV and FREE (R157, R158, 10 R255, R259) -/

section Recv
variable {s : State} {t : Nat} {e : QEntry} (h : AtHead s t 3 0x29 e)
include h

theorem exec_recv_of_none (hfree : bitAt e.word 42 = false) (hpair : bitAt e.word 47 = false)
    (hnone : visibleHead (queueN (tileAt s t).net (fld e.word 51 48)) = none) : exec (.recv t) s = .next s := by
  show execRecv t s = _
  rw [execRecv, withHead_of_atHead h, if_neg (by simp [hfree, hpair])]
  simp only [hnone]

theorem exec_recv_of_visible (hfree : bitAt e.word 42 = false) (hpair : bitAt e.word 47 = false) {i : QItem}
    (hi : visibleHead (queueN (tileAt s t).net (fld e.word 51 48)) = some i) :
    exec (.recv t) s =
      let n := fld e.word 51 48
      let q := queueN (tileAt s t).net n
      if 127 ≤ queueAcq q then .next (tileFatal s t 8 e.idx { status := stBadParam, detail := [1, n] })
      else .next (setTile s t (writeReg (popHead (acquireIn (tileAt s t) n) 3) (fld e.word 55 52) (recvHeader q i))) := by
  show execRecv t s = _
  rw [execRecv, withHead_of_atHead h, if_neg (by simp [hfree, hpair])]
  simp only [hi]
  rfl

theorem exec_recvPair_of_pair (hfree : bitAt e.word 42 = false) (hpair : bitAt e.word 47 = true) {i j : QItem} :
    let n := fld e.word 51 48
    let k := fld e.word 46 43
    let a := queueN (tileAt s t).net n
    let b := queueN (tileAt s t).net k
    visibleHead a = some i → visibleHead b = some j → queueAcq a < 127 → queueAcq b < 127 →
    exec (.recvPair t) s = .next (setTile s t (writeReg (writeReg (popHead (acquireIn (acquireIn (tileAt s t) n) k) 3) (fld e.word 55 52)
      (recvHeader a i)) ((fld e.word 55 52 + 1) % 16) (recvHeader b j))) := by
  intro n k a b hi hj ha hb
  show execRecvPair t s = _
  rw [execRecvPair, withHead_of_atHead h, if_neg (by simp [hfree, hpair])]
  simp only [n, k, a, b] at hi hj ha hb ⊢
  simp only [hi, hj]
  rw [if_neg (by omega)]

theorem exec_recvFree_of_free (hfree : bitAt e.word 42 = true) :
    exec (.recvFree t) s =
      let n := fld e.word 51 48
      let x := tileAt s t
      let q := queueN x.net n
      if 0 < q.lost then .next (setTile s t (popHead { x with net := modQueue x.net n fun q => { q with lost := q.lost - 1 } } 3))
      else if queueAcq q = 0 then .next (tileFatal s t 8 e.idx { status := stBadParam, detail := [1, n] })
      else .next (unspill t n (q.spill.length + 1)
        (setTile s t (popHead { x with net := modQueue x.net n fun q => markHigh { q with items := freeFirst q.items } } 3))) := by
  show execRecvFree t s = _
  rw [execRecvFree, withHead_of_atHead h, if_neg (by simp [hfree])]
  rfl

end Recv

/-- Settles O20: the visible messages and the acquisitions of the queues named decide each row. -/
theorem recvAcquiresAndFrees : Obligations.RecvAcquiresAndFrees := by
  refine ⟨?single, ?pair, ?frees⟩
  case single =>
    intro s t e h hfree hpair n q
    refine ⟨fun hnone => exec_recv_of_none h hfree hpair hnone, fun i hi hmany => ?_, fun i hi hfew => ?_⟩
    · exact (exec_recv_of_visible h hfree hpair hi).trans (if_pos hmany)
    · exact (exec_recv_of_visible h hfree hpair hi).trans (if_neg (Nat.not_le.mpr hfew))
  case pair =>
    intro s t e i j h hfree hpair n k d a b hi hj ha hb
    exact exec_recvPair_of_pair h hfree hpair hi hj ha hb
  case frees =>
    intro s t e h hfree n tl q
    have hexec := exec_recvFree_of_free h hfree
    refine ⟨fun hlost => ?_, fun hlost hnone => ?_, fun hlost hsome => ?_⟩
    · exact hexec.trans (if_pos hlost)
    · exact hexec.trans ((if_neg (Nat.not_lt.mpr (Nat.le_of_eq hlost))).trans (if_pos hnone))
    · exact hexec.trans ((if_neg (Nat.not_lt.mpr (Nat.le_of_eq hlost))).trans (if_neg hsome))

end Sys2Proof.Machine

/-! PROOF. Instructions that send to the mesh or to the Level units, the replies to a WFETCH and the end of a tile (06 R139, R142, R156,
R159 to R161; 11 R289, R296 to R298). -/

namespace Sys2Proof.Machine

/-! ### SEND and COMB (R156, 10 R246, R249, R252) -/

theorem exec_send_comb (comb : Bool) (t : Nat) (s : State) :
    exec (if comb then .comb t else .send t) s = sendMessage comb (if comb then 0x2A else 0x28) t s := by
  cases comb <;> rfl

/-- The message of a SEND or COMB, its payload read in state u after the gathered lines under it are written back. -/
def sentMsg (comb : Bool) (s u : State) (t : Nat) (e : QEntry) : Msg :=
  let d := fld e.a 37 32
  let y := if d = deviceId s then substT s (fld e.a 31 20) else fld e.a 31 20
  { ddev := d, dtile := y, dq := fld e.a 19 16, tag := fld e.a 15 0, kind := b2n comb
    rank := if comb then fld e.a 49 38 else 0, sdev := deviceId s, stile := t, epoch := (tileAt s t).net.epoch.toNat
    dgen := if d = deviceId s then (arrGet s.genTab y 0).toNat else farGeneration s d y
    payload := padBytes u t (32 * (sendSource e).1) (32 * (sendSource e).2) }

/-- The state before the message enters the mesh. -/
def sendFlushed (s : State) (t : Nat) (e : QEntry) : State := flushPad s t (32 * (sendSource e).1) (32 * (sendSource e).2)

theorem deviceId_flushPad (s : State) (t a n : Nat) : deviceId (flushPad s t a n) = deviceId s := by
  obtain ⟨ts, m, b, h⟩ := flushPad_frame s t a n
  rw [h]
  rfl

section Send
variable {s : State} {t op : Nat} {e : QEntry} {comb : Bool} (h : AtHead s t 3 op e)
include h

theorem sendMessage_of_refused {c : Nat} (href : sendRefused comb e = some c) :
    sendMessage comb op t s = .next (tileFatal s t 8 e.idx { status := stBadParam, detail := [c] }) := by
  rw [sendMessage, withHead_of_atHead h, href]
  rfl

theorem sendMessage_of_full (href : sendRefused comb e = none) (hfull : injectionFull s t = true) : sendMessage comb op t s = .next s := by
  rw [sendMessage, withHead_of_atHead h, href]
  exact if_pos hfull

theorem sendMessage_of_sent (href : sendRefused comb e = none) (hroom : injectionFull s t = false) (hsent : e.sent = true) :
    sendMessage comb op t s = .next (modTile (progress s t) t fun x => popHead x 3) := by
  rw [sendMessage, withHead_of_atHead h, href]
  exact (if_neg (ne_true_of_eq_false hroom)).trans (if_pos hsent)

theorem sendMessage_of_room (href : sendRefused comb e = none) (hroom : injectionFull s t = false) (hsent : e.sent = false) :
    sendMessage comb op t s =
      let u := sendFlushed s t e
      let v := injectMsg u (sentMsg comb s u t e)
      .next (if injectionFull v t then modTile v t fun x => setHead x 3 { e with sent := true }
        else modTile (progress v t) t fun x => popHead x 3) := by
  rw [sendMessage, withHead_of_atHead h, href]
  refine (if_neg (ne_true_of_eq_false hroom)).trans ((if_neg (ne_true_of_eq_false hsent)).trans ?_)
  simp only [decide_eq_true_eq]
  rfl

end Send

/-- Settles O19: the checks of R156, then the injection port, then whether the message is in the mesh already. -/
theorem sendInjectsOneMessage : Obligations.SendInjectsOneMessage := by
  intro s t e comb h c
  have hexec := exec_send_comb comb t s
  refine ⟨fun x href => hexec.trans (sendMessage_of_refused h href), fun href hfull => hexec.trans (sendMessage_of_full h href hfull),
    fun href hroom hsent => hexec.trans (sendMessage_of_sent h href hroom hsent), fun href hroom hsent => ?enters⟩
  case enters =>
    intro p u d y m v
    have hv : injectMsg (sendFlushed s t e) (sentMsg comb s (sendFlushed s t e) t e) = v := by
      rw [injectMsg, sendFlushed, deviceId_flushPad]
      rfl
    rw [hexec, sendMessage_of_room h href hroom hsent]
    simp only [hv]

/-! ### Operations sent to the Level units (R142, R159 to R161) -/

section Units
variable {s : State} {t q : Nat} {e : QEntry}

theorem exec_tadd_tdec (dec : Bool) (t q : Nat) (s : State) :
    exec (if dec then .tdec t q else .tadd t q) s = sendTally (if dec then 0x32 else 0x30) (if dec then 1 else 0) t q s := by
  cases dec <;> rfl

theorem sendTally_of_done {op : Nat} (code : Nat) (hq : q ≤ 4) (h : AtHead s t q op e) (hdone : earlierDone (tileAt s t) q e = true) :
    sendTally op code t q s = .next (pushCtl (setTile s t (popHead (tileAt s t) q))
      (.tallyOp t code (fld e.word 43 32) (fld e.word 23 0) (tileAt s t).net.wepoch.toNat q)) := by
  rw [sendTally, withQueue_of_le hq, withHead_of_atHead h]
  exact if_neg (by simp [hdone])

theorem exec_twait_of_atHead (hq : q ≤ 4) (h : AtHead s t q 0x31 e) :
    exec (.twait t q) s = if e.sent then .next s else .next (pushCtl (setTile s t (setHead (tileAt s t) q { e with sent := true }))
      (.tallyOp t 2 (fld e.word 43 32) (fld e.word 23 0) (tileAt s t).net.wepoch.toNat q)) := by
  show execTwait t q s = _
  rw [execTwait, withQueue_of_le hq, withHead_of_atHead h]

theorem exec_wfetch_of_atHead (h : AtHead s t 4 0x38 e) :
    exec (.wfetch t) s = if e.sent then .next s else .next (pushCtl (setTile s t (setHead (tileAt s t) 4 { e with sent := true }))
      (.fetch t (fld e.word 47 40) (fld e.word 15 0) (fld e.word 55 52))) := by
  show execWfetch t s = _
  rw [execWfetch, withHead_of_atHead h]

theorem exec_barr_of_done (hq : q ≤ 4) (h : AtHead s t q 0x34 e) (hdone : earlierDone (tileAt s t) q e = true) :
    exec (.barr t q) s =
      let x := tileAt s t
      let b := fld e.word 6 0
      let last := arrGet x.net.arrived b (0, true)
      if last.2 then .next (pushCtl (setTile s t (popHead
        { x with net := { x.net with arrived := arrSet x.net.arrived b (last.1, false) (0, true) } } q)) (.arrival t b q))
      else .next s := by
  show execBarr t q s = _
  rw [execBarr, withQueue_of_le hq, withHead_of_atHead h]
  cases hlast : (arrGet (tileAt s t).net.arrived (fld e.word 6 0) (0, true)).2 with
  | false => simp [hlast]
  | true => simp [hlast, hdone]

theorem exec_bwait_of_atHead (hq : q ≤ 4) (h : AtHead s t q 0x35 e) :
    exec (.bwait t q) s =
      let b := fld e.word 6 0
      if !barOk s b t then .next (barFatal (setTile s t (popHead (tileAt s t) q)) t q b)
      else if (arrGet (tileAt s t).net.arrived b (0, true)).2 then .next (setTile s t (popHead (tileAt s t) q))
      else .next s := by
  show execBwait t q s = _
  rw [execBwait, withQueue_of_le hq, withHead_of_atHead h]

end Units

/-- Settles O25: for each instruction, whether its request is sent, or the arrival it waits for released. -/
theorem tallyInstructionsSendOneOperation : Obligations.TallyInstructionsSendOneOperation := by
  refine ⟨?tally, ?twait, ?wfetch, ?barr, ?bwait⟩
  case tally => exact fun s t q e dec hq h hdone => (exec_tadd_tdec dec t q s).trans (sendTally_of_done _ hq h hdone)
  case twait =>
    exact fun s t q e hq h => ⟨fun hsent => (exec_twait_of_atHead hq h).trans (if_pos hsent),
      fun hsent => (exec_twait_of_atHead hq h).trans (if_neg (ne_true_of_eq_false hsent))⟩
  case wfetch =>
    exact fun s t e h => ⟨fun hsent => (exec_wfetch_of_atHead h).trans (if_pos hsent),
      fun hsent => (exec_wfetch_of_atHead h).trans (if_neg (ne_true_of_eq_false hsent))⟩
  case barr =>
    intro s t q e hq h hdone tl b last
    have hexec := exec_barr_of_done hq h hdone
    exact ⟨fun hopen => hexec.trans (if_neg (ne_true_of_eq_false hopen)), fun hreleased => hexec.trans (if_pos hreleased)⟩
  case bwait =>
    intro s t q e hq h b released
    have hexec := exec_bwait_of_atHead hq h
    have hdefined : barOk s b t = true → ¬(!barOk s b t) = true := fun hok => by simp [hok]
    refine ⟨fun hno => ?_, fun hok hrel => ?_, fun hok hrel => ?_⟩
    · exact hexec.trans (if_pos (by simpa using hno))
    · exact hexec.trans ((if_neg (hdefined hok)).trans (if_pos hrel))
    · exact hexec.trans ((if_neg (hdefined hok)).trans (if_neg (ne_true_of_eq_false hrel)))

/-! ### Work counters (R161, 11 R296 to R298) -/

section Fetch
variable {s : State} {i t c n sd : Nat} (hctl : s.ctl[i]? = some (.fetch t c n sd))
include hctl

theorem exec_workFetch_of_counter (htask : (ctrAt s (levelOf t) c).task = false) :
    exec (.workFetch i) s =
      let u : State := { s with ctl := dropAt s.ctl i }
      let l := levelOf t
      let x := ctrAt s l c
      let v := setCtr u l c { x with value := x.value + BitVec.ofNat 32 n }
      if 0xFFFFFFFF < x.value.toNat + n then
        .next (levelFatal u stTallyOverflow l (2 + 4 * c) [requester t 4 false, c, x.value.toNat, n])
      else .next (pushCtl v (.fetchReply t x.value.toNat (workEpoch v) sd)) := by
  show execWorkFetch i s = _
  simp only [execWorkFetch, hctl, htask, Bool.false_eq_true, if_false, gt_iff_lt]

/-- A task counter asked for one task hands out the one R298 picks, or says that none is left. -/
theorem exec_workFetch_of_task (htask : (ctrAt s (levelOf t) c).task = true) (hn : n = 1)
    (hhome : homeOk (ctrAt s (levelOf t) c) = true) :
    let u : State := { s with ctl := dropAt s.ctl i }
    let l := levelOf t
    let x := ctrAt s l c
    (∀ k, pickTask (substT s) (levelN s l).home x t = some k → exec (.workFetch i) s =
      .next (pushCtl (setCtr u l c { x with taken := k :: x.taken }) (.fetchReply t k
        (workEpoch (setCtr u l c { x with taken := k :: x.taken })) sd))) ∧
    (pickTask (substT s) (levelN s l).home x t = none → exec (.workFetch i) s =
      .next (pushCtl u (.fetchReply t 0xFFFFFFFF (workEpoch u) sd))) := by
  intro u l x
  have hone : ¬(n ≠ 1 ∨ (!homeOk (ctrAt s (levelOf t) c)) = true) := by simp [hn, hhome]
  have hexec : exec (.workFetch i) s = execWorkFetch i s := rfl
  constructor
  · intro k hk
    simp only [l, x] at hk
    simp only [hexec, execWorkFetch, hctl, htask, if_true, if_neg hone, hk, u, l, x]
  · intro hnone
    simp only [l, x] at hnone
    simp only [hexec, execWorkFetch, hctl, htask, if_true, if_neg hone, hnone, u]

end Fetch

theorem exec_workFetchReply_of_head {s : State} {i t n ep sd : Nat} {e : QEntry} (hctl : s.ctl[i]? = some (.fetchReply t n ep sd))
    (hhead : headIs (tileAt s t) 4 0x38 = some e) (hleave : leaveWait s t = false) (hsent : e.sent = true) :
    exec (.workFetchReply i) s = .next (setTile { s with ctl := dropAt s.ctl i } t
      (writeReg (popHead (tileAt s t) 4) sd (BitVec.ofNat 64 (n % 2 ^ 32 + ep % 2 ^ 16 * 2 ^ 32)))) := by
  show execWorkFetchReply i s = _
  simp only [execWorkFetchReply, hctl, hleave, hhead, hsent, Bool.false_eq_true, if_false, if_true]

theorem exec_tileFinished_of_drained {s : State} {t : Nat} (ht : t < 2304) (hst : (tileAt s t).sq.st = .halted)
    (hfault : (tileAt s t).sq.fault = false) (hdrained : tileDrained (tileAt s t) = true) (hpaused : tilePaused s t = false) :
    exec (.tileFinished t) s = .next (endSections (setTile s t { tileAt s t with
      sq := { (tileAt s t).sq with st := .finished }
      net := addSpoil (closeQueues (tileAt s t).net) 0 (netHeld (tileAt s t).net) })) := by
  show execTileFinished t s = _
  rw [execTileFinished, withTile, if_pos ht]
  exact if_pos ⟨hst, by simp [hfault], hdrained, by simp [hpaused]⟩

/-- Settles O29: the two kinds of counter, the reply at the head of YXQ, and the drained tile. -/
theorem workCountersHandOutIndices : Obligations.WorkCountersHandOutIndices := by
  refine ⟨?fetch, fun s i t n ep sd e hctl hhead hleave hsent => exec_workFetchReply_of_head hctl hhead hleave hsent,
    fun s t ht hst hfault hdrained hpaused => exec_tileFinished_of_drained ht hst hfault hdrained hpaused⟩
  case fetch =>
    intro s i t c n sd hctl u l x
    refine ⟨fun htask hle => ?adds, fun htask hgt => ?overflows, fun htask hn hhome => ?task⟩
    case adds => exact (exec_workFetch_of_counter hctl htask).trans (if_neg (Nat.not_lt.mpr hle))
    case overflows => exact (exec_workFetch_of_counter hctl htask).trans (if_pos hgt)
    case task => exact exec_workFetch_of_task hctl htask hn hhome

end Sys2Proof.Machine

/-! PROOF. POINTER_ENTRY_READ: the entry the innermost loop still needs, read or refused (06 R151; 07 R174, R175). -/

namespace Sys2Proof.Machine

/-- The 64 bits at the address of level l's entry (07 R174). -/
def entryWord (s : State) (t : Nat) (lp : ActiveLoop) (l : Nat) : W64 := BitVec.ofNat 64 (leNat (padBytes s t (ptrAddr lp l) 8))

/-- The loop once it holds v as the entry of level l. -/
def withEntry (lp : ActiveLoop) (l : Nat) (v : W64) : ActiveLoop := { lp with entries := lp.entries.set l (some v) }

section Entry
variable {s : State} {t l : Nat} {lp : ActiveLoop}

theorem readEntry_accepted (h : fld (entryWord s t lp l) 62 48 = 0) :
    readEntry s t lp l = .ok (withEntry lp l (entryWord s t lp l)) := if_neg (not_not_intro h)

theorem readEntry_refused (h : fld (entryWord s t lp l) 62 48 ≠ 0) : readEntry s t lp l = .error (badCond 1 [lp.ld]) := if_pos h

theorem readEntries_of_none (k : Nat) (h : ptrNeeded lp = none) : readEntries s t k lp = .ok (lp, false) := by
  cases k with
  | zero => rfl
  | succ k => simp only [readEntries, h]

section Needed
variable (hneed : ptrNeeded lp = some l) (hfull : slotEmptyAt s t (ptrAddr lp l / 512) = false)
include hneed hfull

theorem readEntries_accepted (k : Nat) {lp' : ActiveLoop} (h : readEntry s t lp l = .ok lp') :
    readEntries s t (k + 1) lp = readEntries s t k lp' := by
  simp only [readEntries, hneed, hfull, h, Bool.false_eq_true, if_false]

theorem readEntries_refused (k : Nat) {e : TErr} (h : readEntry s t lp l = .error e) : readEntries s t (k + 1) lp = .error e := by
  simp only [readEntries, hneed, hfull, h, Bool.false_eq_true, if_false]

variable (rest : List ActiveLoop)

/-- The one entry that is missing completes the innermost loop. -/
theorem refreshLoops_of_last_entry (hbits : fld (entryWord s t lp l) 62 48 = 0)
    (hlast : ptrNeeded (withEntry lp l (entryWord s t lp l)) = none) :
    refreshLoops s t (lp :: rest) = .ok (withEntry lp l (entryWord s t lp l) :: rest, false) := by
  simp only [refreshLoops, readEntries_accepted hneed hfull 5 (readEntry_accepted hbits), readEntries_of_none 5 hlast]

theorem refreshLoops_of_reserved_bits (hbits : fld (entryWord s t lp l) 62 48 ≠ 0) :
    refreshLoops s t (lp :: rest) = .error (badCond 1 [lp.ld]) := by
  simp only [refreshLoops, readEntries_refused hneed hfull 5 (readEntry_refused hbits)]

end Needed

end Entry

section Read
variable {s : State} {t : Nat} (hruns : SeqRuns s t)
  (hfree : dispatchStall (tileAt s t) (instrAt (tileAt s t).sq (tileAt s t).sq.pc) = none)
include hruns hfree

theorem exec_pointerEntryRead_of_ok {ls : List ActiveLoop} {wait : Bool}
    (hls : refreshLoops (flushPtr s t) t (tileAt (flushPtr s t) t).sq.loops = .ok (ls, wait)) :
    exec (.pointerEntryRead t) s = .next (setTile (flushPtr s t) t { tileAt (flushPtr s t) t with
      sq := { (tileAt (flushPtr s t) t).sq with loops := ls } }) := by
  obtain ⟨ht, hst, hfault, hpaused⟩ := hruns
  show execPointerEntryRead t s = _
  simp [execPointerEntryRead, withTile, ht, hst, hfault, hpaused, hfree, hls]

theorem exec_pointerEntryRead_of_error {e : TErr}
    (he : refreshLoops (flushPtr s t) t (tileAt (flushPtr s t) t).sq.loops = .error e) :
    exec (.pointerEntryRead t) s = .next (tileFatal (flushPtr s t) t 8 (tileAt (flushPtr s t) t).sq.pc e) := by
  obtain ⟨ht, hst, hfault, hpaused⟩ := hruns
  show execPointerEntryRead t s = _
  simp [execPointerEntryRead, withTile, ht, hst, hfault, hpaused, hfree, he]

end Read

/-- Settles O7: the reserved bits of the entry decide whether the loops are refreshed or the tile ends in the error. -/
theorem pointerEntryIsReadOnce : Obligations.PointerEntryIsReadOnce := by
  intro s t l lp rest hruns u tl v hfree hloops hneed hfull
  refine ⟨fun hbits hlast => ?accepted, fun hbits => ?refused⟩
  case accepted =>
    refine exec_pointerEntryRead_of_ok hruns hfree (wait := false) ?_
    rw [hloops]
    exact refreshLoops_of_last_entry hneed hfull rest hbits hlast
  case refused =>
    refine exec_pointerEntryRead_of_error hruns hfree ?_
    rw [hloops]
    exact refreshLoops_of_reserved_bits hneed hfull rest hbits

end Sys2Proof.Machine

/-! PROOF. Streams: the transfer descriptor at the front of a chain is held or moves, a waiting one resumes, and a missed deadline is
recorded (08 R186 to R188, R198 to R204, R212, R213). -/

namespace Sys2Proof.Machine

/-! ### DESCRIPTOR_COMPLETE and TAG_WAIT_RESUME come to the front of the chain (R186 to R188) -/

section Front
variable {s : State} {t sl : Nat} {c : Chain} (ht : t < 2304) (hsl : sl ≤ 5) (hlive : tileLive (tileAt s t) = true)
  (hpaused : tilePaused s t = false) (hchain : (slotN (tileAt s t).pad sl).chain = some c) (hburst : c.burst ≠ [])
include ht hsl hlive hpaused hchain hburst

theorem exec_descriptorComplete_of_chain (htag : (slotN (tileAt s t).pad sl).tagw = false) :
    exec (.descriptorComplete t sl) s = .next (completeStep s t sl (tileAt s t) c) := by
  show execDescriptorComplete t sl s = _
  simp [execDescriptorComplete, withSlot, withTile, ht, hsl, hlive, hpaused, hchain, hburst, htag]

theorem exec_tagWaitResume_of_ready (htag : (slotN (tileAt s t).pad sl).tagw = true) (hwaits : headWaits s t c = false)
    (hready : resumeReady s t sl c = true)
    (hfirst : goesFirst s { tile := t, place := sl, slots := waitedSlots s t sl c } = false) :
    exec (.tagWaitResume t sl) s = .next (completeStep s t sl (tileAt s t) c) := by
  show execTagWaitResume t sl s = _
  simp [execTagWaitResume, withSlot, withTile, ht, hsl, hlive, hpaused, hchain, hburst, htag, hwaits, hready, hfirst]

end Front

/-! ### The transfer descriptor at the front (R82, R186, R198 to R203) -/

/-- The slot holds chain c, whose transfer descriptor d is still to move; w says whether it waits on a tag. -/
def keepTransfer (s : State) (t sl : Nat) (c : Chain) (d : Desc) (w : Bool) : State :=
  setTile s t (setSlot (tileAt s t) sl fun x => { x with chain := some c, tagw := w, daddr := d.addr % 2 ^ 15 })

/-- Gathered lines under what a transfer reads have reached memory (R190). -/
def sourceFlushed (s : State) (m : Move) : State :=
  let u := if m.a.dir && m.a.lkind = 0 && decide (m.a.laddr < 0x200000) then
    flushPad s m.t m.a.laddr (localExtent m.a (m.row + xferRows m.x) (m.x.count.getD 0 0)) else s
  if m.a.dir then u else flushWalked u ((walkedSlots m).map fun k => (k.1, k.2))

/-- The elements of a transfer moved, with the flags they raise and the lines of a read in the ore bins, and the descriptor finished. -/
def finishMove (m : Move) (c : Chain) (r : MoveAcc) : State :=
  let v := modTile r.s m.t fun x => raiseFlags x r.fl
  finishDesc (if m.a.dir then v else (walkedLines m).foldl binRead v) m.t m.sl c m r.nib

section Transfer
variable {s : State} {t sl : Nat} {c0 : Chain} {d ad : Desc} {ds : List Desc}
  (hburst : (skipAttrs c0 8).burst = d :: ds) (hattr : (skipAttrs c0 8).attr = some ad)
include hburst hattr

theorem completeStep_of_bank_held (hbank : moveBankFree (tileAt s t) (skipAttrs c0 8) (attrOf ad) = false) :
    completeStep s t sl (tileAt s t) c0 = keepTransfer s t sl (skipAttrs c0 8) d false := by
  simp only [completeStep, hburst, hattr, hbank]
  rfl

variable (hbank : moveBankFree (tileAt s t) (skipAttrs c0 8) (attrOf ad) = true)
include hbank

theorem completeStep_of_tag_held (htags : tagsLet s (moveOf s t sl (skipAttrs c0 8) (attrOf ad) d) = false) :
    completeStep s t sl (tileAt s t) c0 = keepTransfer s t sl (skipAttrs c0 8) d true := by
  simp only [completeStep, hburst, hattr, hbank, htags]
  rfl

theorem completeStep_of_moved (htags : tagsLet s (moveOf s t sl (skipAttrs c0 8) (attrOf ad) d) = true) :
    let c := skipAttrs c0 8
    let m := moveOf s t sl c (attrOf ad) d
    let r := runMove (sourceFlushed (progress (keepTransfer s t sl c d false) t) m) m c.hdr
    r.err = none → completeStep s t sl (tileAt s t) c0 = finishMove m c r := by
  intro c m r herr
  simp only [completeStep, hburst, hattr, hbank, htags, Bool.not_true, Bool.false_eq_true, if_false]
  split
  next h => exact nomatch herr.symm.trans h
  next h => exact nomatch herr.symm.trans h
  next => rfl

end Transfer

/-- Settles O16: both rows come to the descriptor at the front of the chain; its bank, then its tags, then the move decide. -/
theorem transferDescriptorsComplete : Obligations.TransferDescriptorsComplete := by
  intro s t sl c0 d ad ds resume ht hsl hlive hpaused hchain hne htag hresume c a m keep row hburst hattr
  have hexec : exec row s = .next (completeStep s t sl (tileAt s t) c0) := by
    cases resume with
    | false => exact exec_descriptorComplete_of_chain ht hsl hlive hpaused hchain hne htag
    | true =>
      obtain ⟨hwaits, hready, hfirst⟩ := hresume rfl
      exact exec_tagWaitResume_of_ready ht hsl hlive hpaused hchain hne htag hwaits hready hfirst
  refine ⟨fun hbank => ?bank, fun hbank htags => ?tag, fun hbank htags => ?moved⟩
  case bank => exact hexec.trans (congrArg _ (completeStep_of_bank_held hburst hattr hbank))
  case tag => exact hexec.trans (congrArg _ (completeStep_of_tag_held hburst hattr hbank htags))
  case moved =>
    intro u0 u1 u2 r v herr
    exact hexec.trans (congrArg _ (completeStep_of_moved hburst hattr hbank htags herr))

/-! ### DEADLINE_MISS (R212, R213) -/

section Deadline
variable {s : State} {t sl : Nat} {c : Chain} {ad : Desc}

theorem missNow_of_deadline {d : Nat} (hdl : ad.dl = some d) (missed : Bool) (rest : List Desc) :
    missNow s t sl c ad missed rest =
      (!missed && decide (d ≤ shaftCount s) && governedLeft s t sl c.loops (attrOf ad) 32768 rest c.next) := by
  rw [missNow, hdl]

theorem missIn_eq_none {burst : List Desc} (h : ∀ x ∈ burst, descKind x ≠ 2) : missIn s t sl c burst = none := by
  induction burst with
  | nil => rfl
  | cons x rest ih =>
    obtain ⟨hx, hrest⟩ := List.forall_mem_cons.mp h
    simp [missIn, hx, ih hrest]

variable (hattr : c.attr = some ad)
include hattr

theorem chainMiss_of_missNow (h : missNow s t sl c ad c.missed c.burst = true) :
    chainMiss s t sl c = some (ad, { c with missed := true }) := by
  simp only [chainMiss, hattr, if_pos h]

theorem chainMiss_eq_none (h : missNow s t sl c ad c.missed c.burst = false) (hburst : ∀ x ∈ c.burst, descKind x ≠ 2) :
    chainMiss s t sl c = none := by
  simp [chainMiss, hattr, h, missIn_eq_none hburst]

end Deadline

section Row
variable {s : State} {t sl : Nat} {c0 : Chain} (ht : t < 2304) (hsl : sl ≤ 5) (hchain : (slotN (tileAt s t).pad sl).chain = some c0)
include ht hsl hchain

theorem exec_deadlineMiss_of_none (hmiss : chainMiss s t sl (skipAttrs c0 8) = none) : exec (.deadlineMiss t sl) s = .next s := by
  show execDeadlineMiss t sl s = _
  simp [execDeadlineMiss, withSlot, withTile, ht, hsl, hchain, hmiss]

theorem exec_deadlineMiss_of_miss {c : Chain} {ad : Desc} {d : Nat} (hpaused : tilePaused s t = false)
    (hmiss : chainMiss s t sl (skipAttrs c0 8) = some (ad, c)) (hdl : ad.dl = some d) :
    exec (.deadlineMiss t sl) s = .next (jobRecord (setTile s t (setSlot (tileAt s t) sl fun x =>
      { x with chain := some c, dlmiss := x.dlmiss + 1, tagw := x.tagw && !(c.missed && (attrOf ad).dlact) }))
      1 stDeadlineMissed 1 t (7 + 2 ^ 8 * sl) [ad.addr, d % 2 ^ 32, d / 2 ^ 32]) := by
  show execDeadlineMiss t sl s = _
  simp [execDeadlineMiss, withSlot, withTile, ht, hsl, hchain, hpaused, hmiss, hdl]

end Row

/-- Settles O17: whether the descriptor in force misses its deadline now decides the row. -/
theorem deadlineMissIsRecordedOnce : Obligations.DeadlineMissIsRecordedOnce := by
  intro s t sl d c0 ad ht hsl hchain c left hattr hdl
  have hnow : missNow s t sl c ad c.missed c.burst = (!c.missed && decide (d ≤ shaftCount s) && left) :=
    missNow_of_deadline hdl c.missed c.burst
  refine ⟨fun hquiet hburst => ?quiet, fun hpaused hdue hfirst hleft => ?miss⟩
  case quiet =>
    have hnot : missNow s t sl c ad c.missed c.burst = false := by
      rw [hnow]
      rcases hquiet with hearly | hmissed | hdone
      · simp [Nat.not_le.mpr hearly]
      · simp [hmissed]
      · simp [hdone]
    exact exec_deadlineMiss_of_none ht hsl hchain (chainMiss_eq_none hattr hnot hburst)
  case miss =>
    have hmisses : missNow s t sl c ad c.missed c.burst = true := by
      rw [hnow, hfirst, hleft, decide_eq_true hdue]
      rfl
    exact exec_deadlineMiss_of_miss ht hsl hchain hpaused (chainMiss_of_missNow hattr hmisses) hdl

end Sys2Proof.Machine

/-! PROOF. Device memory that is taken: the regions, the save areas and the reserved areas never overlap (09 R218, R226, R227, R230,
14 R341). Almost every operation leaves the list of ranges as it is; a frame lemma for each says so, in the order of the model's files. -/

namespace Sys2Proof.Machine

/-- The ranges that a list of regions backs and those that the save areas of a list of jobs take. -/
def rangesOf (rs : List Region) (js : List Job) : List (Nat × Nat) :=
  rs.map backing ++ js.flatMap fun j => j.area.map fun a => (a, areaGran * granule)

/-- The taken ranges that a command can change: all but the reserved areas. -/
@[simp] abbrev heldRanges (s : State) : List (Nat × Nat) := rangesOf s.regions s.jobs

/-- Every state that the row answers has the property. -/
def EveryNext (P : State → Prop) (o : Outcome) : Prop := ∀ u, o = .next u → P u

/-- A row's outcome in which the ranges of s are held. -/
abbrev Keeps (s : State) (o : Outcome) : Prop := EveryNext (fun u => heldRanges u = heldRanges s) o

@[simp] theorem everyNext_next (P : State → Prop) (u : State) : EveryNext P (.next u) ↔ P u :=
  ⟨fun h => h u rfl, fun h v hv => by cases hv; exact h⟩

@[simp] theorem everyNext_fault (P : State → Prop) (f : Fault) : EveryNext P (.fault f) := fun _ h => by cases h

@[simp] theorem everyNext_ite (P : State → Prop) (c : Prop) [Decidable c] (a b : Outcome) :
    EveryNext P (if c then a else b) ↔ if c then EveryNext P a else EveryNext P b := by split <;> rfl

@[simp] theorem heldRanges_ite (c : Prop) [Decidable c] (a b : State) :
    heldRanges (if c then a else b) = if c then heldRanges a else heldRanges b := by split <;> rfl

/-- The hypothesis is put as `Keeps`, not as an equation, so that `simp` can discharge it. -/
@[simp] theorem heldRanges_foldl {α : Type} {f : State → α → State} (h : ∀ s x, Keeps s (.next (f s x))) (l : List α) (s : State) :
    heldRanges (l.foldl f s) = heldRanges s := by
  induction l generalizing s with
  | nil => rfl
  | cons x l ih => rw [List.foldl_cons, ih, (everyNext_next _ _).mp (h s x)]

/-- A fold that carries a state as a part of its value. -/
theorem heldRanges_foldl_acc {β α : Type} (part : β → State) {f : β → α → β}
    (h : ∀ b x, heldRanges (part (f b x)) = heldRanges (part b)) (l : List α) (b : β) :
    heldRanges (part (l.foldl f b)) = heldRanges (part b) := by
  induction l generalizing b with
  | nil => rfl
  | cons x l ih => rw [List.foldl_cons, ih, h]

theorem rangesOf_map_jobs {f : Job → Job} (h : ∀ j, (f j).area = j.area) (rs : List Region) (js : List Job) :
    rangesOf rs (js.map f) = rangesOf rs js := by
  simp [rangesOf, List.flatMap_map, h]

theorem rangesOf_map_regions {f : Region → Region} (h : ∀ r, backing (f r) = backing r) (rs : List Region) (js : List Job) :
    rangesOf (rs.map f) js = rangesOf rs js := by
  simp [rangesOf, h]

/-- A change of a job that leaves its save area; a definition, so that `simp` can discharge it as a hypothesis. -/
def KeepsArea (f : Job → Job) : Prop := ∀ y, (f y).area = y.area

@[simp] theorem keepsArea_iff (f : Job → Job) : KeepsArea f ↔ ∀ y, (f y).area = y.area := ⟨fun h => h, fun h => h⟩

@[simp] theorem rangesOf_modJob_jobs (rs : List Region) (s : State) (j : Nat) {f : Job → Job} (h : KeepsArea f) :
    rangesOf rs (modJob s j f).jobs = rangesOf rs s.jobs :=
  rangesOf_map_jobs (fun y => by split <;> simp [h y]) rs s.jobs

section
variable {P : State → Prop} {o : Outcome}

@[simp] theorem everyNext_withQueue (q : Nat) (s : State) (h : EveryNext P o) : EveryNext P (withQueue q s o) := by simp [withQueue, h]

@[simp] theorem everyNext_withSlot (q : Nat) (s : State) (h : EveryNext P o) : EveryNext P (withSlot q s o) := by simp [withSlot, h]

@[simp] theorem everyNext_withQ16 (q : Nat) (s : State) (h : EveryNext P o) : EveryNext P (withQ16 q s o) := by simp [withQ16, h]

@[simp] theorem everyNext_withPort (p : Nat) (h : EveryNext P o) : EveryNext P (withPort p o) := by simp [withPort, h]

@[simp] theorem everyNext_withLevel (p : Nat) (h : EveryNext P o) : EveryNext P (withLevel p o) := by simp [withLevel, h]

@[simp] theorem everyNext_withJPort (p : Nat) (h : EveryNext P o) : EveryNext P (withJPort p o) := by simp [withJPort, h]

@[simp] theorem everyNext_withPq (p q : Nat) (h : EveryNext P o) : EveryNext P (withPq p q o) := by simp [withPq, h]

@[simp] theorem everyNext_withTile (s : State) (t : Nat) {f : Tile → Outcome} (h : ∀ x, EveryNext P (f x)) :
    EveryNext P (withTile s t f) := by simp [withTile, h]

@[simp] theorem keeps_withHead {s : State} (t k op : Nat) {f : Tile → QEntry → Outcome} (h : ∀ x e, Keeps s (f x e)) :
    Keeps s (withHead s t k op f) := by
  refine everyNext_withTile s t fun x => ?_
  split
  · simp
  · split <;> simp [h]

theorem everyNext_withCmd {s : State} (k op : Nat) {f : Packet → Outcome} (hs : P s) (h : ∀ x, EveryNext P (f x)) :
    EveryNext P (withCmd s k op f) := by
  unfold withCmd
  split <;> simp [hs, h]

@[simp] theorem keeps_withCmd {s : State} (k op : Nat) {f : Packet → Outcome} (h : ∀ x, Keeps s (f x)) : Keeps s (withCmd s k op f) :=
  everyNext_withCmd k op rfl h

theorem everyNext_withJob {s : State} (k op : Nat) {f : Packet → Job → Outcome} (hs : P s) (hno : P (refuse s k stNoJob 0))
    (h : ∀ x j, EveryNext P (f x j)) : EveryNext P (withJob s k op f) := by
  refine everyNext_withCmd k op hs fun x => ?_
  split <;> simp [h, hno]

end

/-! ## Operations that leave the ranges as they are -/

/-! ### Links -/

@[simp] theorem putWire_heldRanges (s : State) (p : Nat) (f : Frame) : heldRanges (putWire s p f) = heldRanges s := by simp [putWire]

@[simp] theorem linkFrame_heldRanges (s : State) (p ftype v : Nat) : heldRanges (linkFrame s p ftype v) = heldRanges s := by
  simp [linkFrame]

@[simp] theorem payCredits_heldRanges (p lvc : Nat) (k m : Nat) (s : State) : heldRanges (payCredits p lvc k m s) = heldRanges s := by
  induction k generalizing m s with
  | zero => rfl
  | succ k ih => simp [payCredits, ih]

@[simp] theorem enterIn_heldRanges (s : State) (p lvc n : Nat) : heldRanges (enterIn s p lvc n) = heldRanges s := by simp [enterIn]

@[simp] theorem freeIn_heldRanges (s : State) (p lvc n : Nat) : heldRanges (freeIn s p lvc n) = heldRanges s := by simp [freeIn]

@[simp] theorem pumpPort_heldRanges (p : Nat) (k : Nat) (s : State) : heldRanges (pumpPort p k s) = heldRanges s := by
  induction k generalizing s with
  | zero => rfl
  | succ k ih =>
    simp only [pumpPort]
    (repeat' split) <;> simp [ih]

@[simp] theorem pump_heldRanges (s : State) (p : Nat) : heldRanges (pump s p) = heldRanges s := by simp [pump]

@[simp] theorem queueFrame_heldRanges (s : State) (p : Nat) (f : Frame) : heldRanges (queueFrame s p f) = heldRanges s := by
  simp [queueFrame]

@[simp] theorem sendTo_heldRanges (s : State) (d h : Nat) (f : Frame) : heldRanges (sendTo s d h f) = heldRanges s := by
  fun_cases sendTo s d h f <;> simp

@[simp] theorem sendResp_heldRanges (s : State) (h : RespHead) (bytes : List Byte) : heldRanges (sendResp s h bytes) = heldRanges s := by
  simp [sendResp]

@[simp] theorem sendControl_heldRanges (s : State) (d k : Nat) (vs : List Nat) : heldRanges (sendControl s d k vs) = heldRanges s := by
  simp [sendControl]

@[simp] theorem resendFrom_heldRanges (s : State) (p i : Nat) : heldRanges (resendFrom s p i) = heldRanges s := by simp [resendFrom]

@[simp] theorem holdFlows_heldRanges (s : State) : heldRanges (holdFlows s) = heldRanges s := by simp [holdFlows]

@[simp] theorem tellPort_heldRanges (s : State) (d p : Nat) (up : Bool) : heldRanges (tellPort s d p up) = heldRanges s := by
  simp [tellPort]

@[simp] theorem notePort_heldRanges (s : State) (d p : Nat) (up : Bool) : heldRanges (notePort s d p up) = heldRanges s := by
  simp [notePort]

@[simp] theorem portDown_heldRanges (s : State) (p : Nat) : heldRanges (portDown s p) = heldRanges s := by simp [portDown]

/-! ### Ops -/

@[simp] theorem setTile_heldRanges (s : State) (t : Nat) (tl : Tile) : heldRanges (setTile s t tl) = heldRanges s := by simp [setTile]

@[simp] theorem modTile_heldRanges (s : State) (t : Nat) (f : Tile → Tile) : heldRanges (modTile s t f) = heldRanges s := by simp [modTile]

@[simp] theorem progress_heldRanges (s : State) (t : Nat) : heldRanges (progress s t) = heldRanges s := by simp [progress]

@[simp] theorem binRead_heldRanges (s : State) (l : Nat) : heldRanges (binRead s l) = heldRanges s := by simp [binRead]

@[simp] theorem binReads_heldRanges (s : State) (a n : Nat) : heldRanges (binReads s a n) = heldRanges s := by simp [binReads]

@[simp] theorem binsWithout_heldRanges (s : State) (p : BinLine → Bool) : heldRanges (binsWithout s p) = heldRanges s := by
  simp [binsWithout]

@[simp] theorem memPut_heldRanges (s : State) (a : Nat) (bs : List Byte) : heldRanges (memPut s a bs) = heldRanges s := by simp [memPut]

@[simp] theorem flushEntry_heldRanges (t : Nat) (s : State) (w : WgbEntry) : heldRanges (flushEntry t s w) = heldRanges s := by
  simp [flushEntry]

@[simp] theorem flushWhere_heldRanges (s : State) (t : Nat) (p : WgbEntry → Bool) : heldRanges (flushWhere s t p) = heldRanges s := by
  simp [flushWhere]

@[simp] theorem flushPad_heldRanges (s : State) (t a n : Nat) : heldRanges (flushPad s t a n) = heldRanges s := by simp [flushPad]

@[simp] theorem padWrite_heldRanges (s : State) (t a : Nat) (bs : List Byte) : heldRanges (padWrite s t a bs) = heldRanges s := by
  simp [padWrite]

@[simp] theorem wgbWrite_heldRanges (s : State) (t a : Nat) (bs : List Byte) (ofRun : Bool) :
    heldRanges (wgbWrite s t a bs ofRun) = heldRanges s := by
  simp only [wgbWrite]
  (repeat' split) <;> simp

@[simp] theorem flushRunLines_heldRanges (s : State) (t : Nat) : heldRanges (flushRunLines s t) = heldRanges s := by simp [flushRunLines]

@[simp] theorem flushWalked_heldRanges (s : State) (ks : List (Nat × Nat)) : heldRanges (flushWalked s ks) = heldRanges s := by
  simp [flushWalked]

@[simp] theorem setSlotTag_heldRanges (s : State) (t k : Nat) (b : Bool) : heldRanges (setSlotTag s t k b) = heldRanges s := by
  simp [setSlotTag]

@[simp] theorem fillSlots_heldRanges (s : State) (t : Nat) (ks : List Nat) : heldRanges (fillSlots s t ks) = heldRanges s := by
  simp [fillSlots]

@[simp] theorem tellGenerations_heldRanges (s : State) (ts : List Nat) : heldRanges (tellGenerations s ts) = heldRanges s := by
  simp [tellGenerations]

@[simp] theorem signal_heldRanges (s : State) (p pf vec : Nat) : heldRanges (signal s p pf vec) = heldRanges s := by simp [signal]

@[simp] theorem signalBoth_heldRanges (s : State) (vec : Nat) : heldRanges (signalBoth s vec) = heldRanges s := by simp [signalBoth]

@[simp] theorem signalError_heldRanges (s : State) (p : Nat) : heldRanges (signalError s p) = heldRanges s := by simp [signalError]

@[simp] theorem modCq_heldRanges (s : State) (p c : Nat) (f : CompQueue → CompQueue) : heldRanges (modCq s p c f) = heldRanges s := by
  simp [modCq]

@[simp] theorem modSq_heldRanges (s : State) (p q : Nat) (f : SubQueue → SubQueue) : heldRanges (modSq s p q f) = heldRanges s := by
  simp [modSq]

@[simp] theorem putRecord_heldRanges (s : State) (status sev : Nat) (lasting summary : Bool) (src job loc0 loc1 : Nat) (detail : List Nat) :
    heldRanges (putRecord s status sev lasting summary src job loc0 loc1 detail) = heldRanges s := by
  simp [putRecord]

@[simp] theorem queueRecord_heldRanges (s : State) (p q : Nat) (cq : Bool) : heldRanges (queueRecord s p q cq) = heldRanges s := by
  simp [queueRecord]

@[simp] theorem writeEntry_heldRanges (s : State) (p c : Nat) (r : Reply) : heldRanges (writeEntry s p c r) = heldRanges s := by
  simp [writeEntry]

@[simp] theorem postEntry_heldRanges (s : State) (p c : Nat) (r : Reply) : heldRanges (postEntry s p c r) = heldRanges s := by
  simp [postEntry]

@[simp] theorem drainHeld_heldRanges (p c : Nat) (k : Nat) (s : State) : heldRanges (drainHeld p c k s) = heldRanges s := by
  induction k generalizing s with
  | zero => rfl
  | succ k ih =>
    simp only [drainHeld]
    (repeat' split) <;> simp [ih]

@[simp] theorem replyPacket_heldRanges (s : State) (k : Packet) (status detail r0 r1 : Nat) :
    heldRanges (replyPacket s k status detail r0 r1) = heldRanges s := by
  simp [replyPacket]

@[simp] theorem sendForward_heldRanges (s : State) (x : Packet) : heldRanges (sendForward s x) = heldRanges s := by simp [sendForward]

@[simp] theorem sendForwards_heldRanges (s : State) : heldRanges (sendForwards s) = heldRanges s := by simp [sendForwards]

@[simp] theorem complete_heldRanges (s : State) (k status detail r0 r1 : Nat) :
    heldRanges (complete s k status detail r0 r1) = heldRanges s := by
  simp only [complete]
  (repeat' split) <;> simp

@[simp] theorem replyOk_heldRanges (s : State) (k r0 r1 : Nat) : heldRanges (replyOk s k r0 r1) = heldRanges s := by simp [replyOk]

@[simp] theorem refuse_heldRanges (s : State) (k status detail : Nat) : heldRanges (refuse s k status detail) = heldRanges s := by
  simp [refuse]

@[simp] theorem accept_heldRanges (s : State) (k : Nat) (r0 : Nat) : heldRanges (accept s k r0) = heldRanges s := by
  fun_cases accept s k r0 <;> simp

@[simp] theorem satisfyTicket_heldRanges (s : State) (k : Nat) : heldRanges (satisfyTicket s k) = heldRanges s := by simp [satisfyTicket]

@[simp] theorem recordEvent_heldRanges (s : State) (r : ErrRec) : heldRanges (recordEvent s r) = heldRanges s := by
  fun_cases recordEvent s r <;> simp

@[simp] theorem addRecord_heldRanges (s : State) (status sev : Nat) (lasting summary : Bool) (src job loc0 loc1 : Nat) (detail : List Nat) :
    heldRanges (addRecord s status sev lasting summary src job loc0 loc1 detail) = heldRanges s := by
  simp only [addRecord]
  (repeat' split) <;> simp

@[simp] theorem jobRecord_heldRanges (s : State) (src status sev loc0 loc1 : Nat) (detail : List Nat) :
    heldRanges (jobRecord s src status sev loc0 loc1 detail) = heldRanges s := by
  simp [jobRecord]

@[simp] theorem plainRecord_heldRanges (s : State) (src status sev loc0 loc1 : Nat) (detail : List Nat) :
    heldRanges (plainRecord s src status sev loc0 loc1 detail) = heldRanges s := by
  simp [plainRecord]

@[simp] theorem bumpFresh_heldRanges (s : State) : heldRanges (bumpFresh s) = heldRanges s := by simp [bumpFresh]

/-! ### Crypto -/

@[simp] theorem wrongWord_heldRanges (s : State) (a : Nat) (e : BitVec 128) : heldRanges (wrongWord s a e) = heldRanges s := by
  simp [wrongWord]

/-! ### Boundary -/

@[simp] theorem finishMma_heldRanges (s : State) (t : Nat) (tl : Tile) (r : MmaRun) : heldRanges (finishMma s t tl r) = heldRanges s := by
  simp [finishMma]

@[simp] theorem writeRecords_heldRanges (v : VxUnit) (t : Nat) (s : State) (rs : List (Nat × Nat)) :
    heldRanges (writeRecords v t s rs).1 = heldRanges s := by
  induction rs generalizing s with
  | nil => rfl
  | cons r rs ih =>
    unfold writeRecords
    split <;> simp [ih]

@[simp] theorem finishRun_heldRanges (s : State) (t : Nat) (tl : Tile) (r0 : VxRun) : heldRanges (finishRun s t tl r0) = heldRanges s := by
  simp [finishRun]

@[simp] theorem toBoundary_heldRanges (s : State) (t : Nat) : heldRanges (toBoundary s t) = heldRanges s := by
  simp only [toBoundary]
  (repeat' split) <;> simp

/-! ### Lifecycle -/

@[simp] theorem onGrant_heldRanges (s : State) (w : LeaveFor) : heldRanges (onGrant s w) = heldRanges s := by
  fun_cases onGrant s w <;> simp

@[simp] theorem serveLeave_heldRanges (k : Nat) (s : State) : heldRanges (serveLeave k s) = heldRanges s := by
  induction k generalizing s with
  | zero => rfl
  | succ k ih =>
    simp only [serveLeave]
    (repeat' split) <;> simp [ih]

@[simp] theorem serveAll_heldRanges (s : State) : heldRanges (serveAll s) = heldRanges s := by simp [serveAll]

@[simp] theorem askLeave_heldRanges (s : State) (w : LeaveFor) (lc : Bool) (draw : List Nat) :
    heldRanges (askLeave s w lc draw) = heldRanges s := by
  simp [askLeave]

@[simp] theorem releaseLeave_heldRanges (s : State) (w : LeaveFor) : heldRanges (releaseLeave s w) = heldRanges s := by simp [releaseLeave]

@[simp] theorem dropWaiters_heldRanges (s : State) (p : Waiter → Bool) : heldRanges (dropWaiters s p) = heldRanges s := by
  simp [dropWaiters]

@[simp] theorem discardTile_heldRanges (s0 : State) (t : Nat) : heldRanges (discardTile s0 t) = heldRanges s0 := by simp [discardTile]

@[simp] theorem resumeRecovery_heldRanges (s : State) (ticket : Nat) : heldRanges (resumeRecovery s ticket) = heldRanges s := by
  unfold resumeRecovery
  split <;> simp

@[simp] theorem endLaunch_heldRanges (s : State) (l : Launch) : heldRanges (endLaunch s l) = heldRanges s := by simp [endLaunch]

@[simp] theorem endSections_heldRanges (s : State) : heldRanges (endSections s) = heldRanges s := by simp [endSections]

@[simp] theorem stopTiles_heldRanges (s : State) (ts : List Nat) : heldRanges (stopTiles s ts) = heldRanges s := by simp [stopTiles]

@[simp] theorem resetTiles_heldRanges (s : State) (f : Tile → Tile) : heldRanges (resetTiles s f) = heldRanges s := by simp [resetTiles]

@[simp] theorem jobReset_heldRanges (s : State) (j : Nat) : heldRanges (jobReset s j) = heldRanges s := by simp [jobReset]

@[simp] theorem modClient_heldRanges (s : State) (p c : Nat) (f : Client → Client) : heldRanges (modClient s p c f) = heldRanges s := by
  simp [modClient]

@[simp] theorem tellCascade_heldRanges (s : State) (j : Job) (code : Nat) (bytes : List Byte) :
    heldRanges (tellCascade s j code bytes) = heldRanges s := by
  simp [tellCascade]

@[simp] theorem tellSwitch_heldRanges (s : State) (j : Job) (forced : Bool) : heldRanges (tellSwitch s j forced) = heldRanges s := by
  simp [tellSwitch]

@[simp] theorem giveDevice_heldRanges (s : State) (j : Job) : heldRanges (giveDevice s j) = heldRanges s := by simp [giveDevice]

@[simp] theorem passDevice_heldRanges (s : State) : heldRanges (passDevice s) = heldRanges s := by
  simp only [passDevice]
  (repeat' split) <;> simp

@[simp] theorem passIfFree_heldRanges (s : State) : heldRanges (passIfFree s) = heldRanges s := by simp [passIfFree]

@[simp] theorem withdrawDecision_heldRanges (s : State) : heldRanges (withdrawDecision s) = heldRanges s := by
  simp only [withdrawDecision]
  (repeat' split) <;> simp

@[simp] theorem decideSwitch_heldRanges (s : State) (j c : Nat) : heldRanges (decideSwitch s j c) = heldRanges s := by
  simp only [decideSwitch]
  (repeat' split) <;> simp

@[simp] theorem enterQueue_heldRanges (s : State) (j : Job) : heldRanges (enterQueue s j) = heldRanges s := by
  simp only [enterQueue]
  (repeat' split) <;> simp

@[simp] theorem releaseJobLeave_heldRanges (s : State) (j : Nat) : heldRanges (releaseJobLeave s j) = heldRanges s := by
  simp [releaseJobLeave]

@[simp] theorem failJob_heldRanges (s : State) (j st : Nat) : heldRanges (failJob s j st) = heldRanges s := by
  unfold failJob
  split <;> simp

@[simp] theorem failComputing_heldRanges (s : State) (st : Nat) : heldRanges (failComputing s st) = heldRanges s := by
  fun_cases failComputing s st <;> simp

@[simp] theorem tileRecord_heldRanges (s : State) (t unit idx : Nat) (e : TErr) :
    heldRanges (tileRecord s t unit idx e) = heldRanges s := by
  simp [tileRecord]

@[simp] theorem tileFatal_heldRanges (s : State) (t unit idx : Nat) (e : TErr) : heldRanges (tileFatal s t unit idx e) = heldRanges s := by
  simp [tileFatal]

@[simp] theorem levelRecord_heldRanges (s : State) (st level loc1 : Nat) (detail : List Nat) :
    heldRanges (levelRecord s st level loc1 detail) = heldRanges s := by
  simp [levelRecord]

@[simp] theorem levelFatal_heldRanges (s : State) (st level loc1 : Nat) (detail : List Nat) :
    heldRanges (levelFatal s st level loc1 detail) = heldRanges s := by
  simp [levelFatal]

@[simp] theorem deviceFatal_heldRanges (s : State) (st src loc0 loc1 : Nat) (detail : List Nat) :
    heldRanges (deviceFatal s st src loc0 loc1 detail) = heldRanges s := by
  simp only [deviceFatal]
  (repeat' split) <;> simp

@[simp] theorem memFatal_heldRanges (s : State) (a : Nat) (lasting : Bool) : heldRanges (memFatal s a lasting) = heldRanges s := by
  fun_cases memFatal s a lasting <;> simp

/-! ### Packets -/

@[simp] theorem keeps_withJob {s : State} (k op : Nat) {f : Packet → Job → Outcome} (h : ∀ x j, Keeps s (f x j)) :
    Keeps s (withJob s k op f) :=
  everyNext_withJob k op rfl (refuse_heldRanges ..) h

@[simp] theorem badField_heldRanges (s : State) (k off : Nat) : heldRanges (badField s k off) = heldRanges s := by simp [badField]

@[simp] theorem early_heldRanges (s : State) (x : Packet) : heldRanges (early s x) = heldRanges s := by simp [early]

@[simp] theorem pruneImages_heldRanges (s : State) : heldRanges (pruneImages s) = heldRanges s := by simp [pruneImages]

/-! ### Regions -/

@[simp] theorem takeKey_heldRanges (s : State) (slot : Option Nat) : heldRanges (takeKey s slot) = heldRanges s := by
  fun_cases takeKey s slot <;> simp

@[simp] theorem dropKey_heldRanges (s : State) (slot : Option Nat) : heldRanges (dropKey s slot) = heldRanges s := by
  fun_cases dropKey s slot <;> simp

@[simp] theorem startTransfer_heldRanges (s : State) (k : Nat) (lc : Bool) (rs : List (Nat × Nat)) :
    heldRanges (startTransfer s k lc rs) = heldRanges s := by
  simp [startTransfer]

@[simp] theorem orLater_heldRanges (s : State) (k count : Nat) {fin : State → State} (h : Keeps s (.next (fin s))) :
    heldRanges (orLater s k count fin) = heldRanges s := by
  simp [orLater, (everyNext_next _ _).mp h]

@[simp] theorem endTransfer_heldRanges (s : State) (k r0 r1 : Nat) : heldRanges (endTransfer s k r0 r1) = heldRanges s := by
  simp [endTransfer]

@[simp] theorem execRegionProtect_keeps (k : Nat) (s : State) : Keeps s (execRegionProtect k s) := by
  refine keeps_withJob _ _ fun x j => ?_
  dsimp only
  split
  · simp
  next r _ =>
    have hmap (tw hr hw : Bool) := rangesOf_map_regions (f := fun y => if y = r then { y with tw := tw, hr := hr, hw := hw } else y)
      (fun y => by split <;> rfl)
    split
    · simp
    · simp [hmap]

@[simp] theorem copyEnd_heldRanges (s : State) (x : Packet) (dma : List Byte) : heldRanges (copyEnd s x dma) = heldRanges s := by
  simp only [copyEnd]
  (repeat' split) <;> simp

@[simp] theorem execCopy_keeps (k : Nat) (dma : List Byte) (s : State) : Keeps s (execCopy k dma s) :=
  keeps_withJob _ _ fun x j => by (repeat' split) <;> simp

@[simp] theorem fillEnd_heldRanges (s : State) (x : Packet) : heldRanges (fillEnd s x) = heldRanges s := by
  fun_cases fillEnd s x <;> simp

@[simp] theorem execFill_keeps (k : Nat) (s : State) : Keeps s (execFill k s) := by simp [execFill]

/-! ### Mesh -/

@[simp] theorem injectMsg_heldRanges (s : State) (m : Msg) : heldRanges (injectMsg s m) = heldRanges s := by simp [injectMsg]

@[simp] theorem holdRoutes_heldRanges (s0 s : State) : heldRanges (holdRoutes s0 s) = heldRanges s := by simp [holdRoutes]

/-! ### Sequencer -/

theorem settle_keeps {s v : State} (h : heldRanges v = heldRanges s) (t idx : Nat) (r : Except TErr Tile) : Keeps s (settle v t idx r) := by
  unfold settle
  split <;> simp [h]

@[simp] theorem flushPtr_heldRanges (s : State) (t : Nat) : heldRanges (flushPtr s t) = heldRanges s := by
  fun_cases flushPtr s t <;> simp

@[simp] theorem dispatchStep_keeps (s : State) (t : Nat) (tl0 : Tile) : Keeps s (dispatchStep s t tl0) := by
  simp only [dispatchStep]
  split
  · simp
  · split
    · simp
    · split
      · simp
      · exact settle_keeps (flushPtr_heldRanges s t) _ _ _

@[simp] theorem execDispatch_keeps (t : Nat) (s : State) : Keeps s (execDispatch t s) := by simp [execDispatch]

@[simp] theorem execPointerEntryRead_keeps (t : Nat) (s : State) : Keeps s (execPointerEntryRead t s) :=
  everyNext_withTile _ _ fun tl0 => by dsimp only; (repeat' split) <;> simp

@[simp] theorem execMark_keeps (t q : Nat) (s : State) : Keeps s (execMark t q s) := by simp [execMark]

@[simp] theorem execCset_keeps (t q : Nat) (s : State) : Keeps s (execCset t q s) :=
  everyNext_withQueue _ _ <| keeps_withHead _ _ _ (fun tl e => by dsimp only; (repeat' split) <;> simp)

@[simp] theorem execCget_keeps (t q : Nat) (s : State) : Keeps s (execCget t q s) := by simp [execCget]

@[simp] theorem startProduct_keeps (zero : Bool) (op t : Nat) (s : State) : Keeps s (startProduct zero op t s) :=
  keeps_withHead _ _ _ fun tl e => by (repeat' split) <;> simp

@[simp] theorem execMma_keeps (t : Nat) (s : State) : Keeps s (execMma t s) := by simp [execMma]

@[simp] theorem execMmaz_keeps (t : Nat) (s : State) : Keeps s (execMmaz t s) := by simp [execMmaz]

@[simp] theorem execMmaComplete_keeps (t : Nat) (s : State) : Keeps s (execMmaComplete t s) :=
  everyNext_withTile _ _ fun tl => by (repeat' split) <;> simp

@[simp] theorem execAccsw_keeps (t : Nat) (s : State) : Keeps s (execAccsw t s) := by simp [execAccsw]

@[simp] theorem startRun_keeps (scan : Bool) (op t : Nat) (s : State) : Keeps s (startRun scan op t s) :=
  keeps_withHead _ _ _ fun tl e => by (repeat' split) <;> simp

@[simp] theorem execVrun_keeps (t : Nat) (s : State) : Keeps s (execVrun t s) := by simp [execVrun]

@[simp] theorem execVscan_keeps (t : Nat) (s : State) : Keeps s (execVscan t s) := by simp [execVscan]

/-! ### Streams -/

@[simp] theorem slotFatal_heldRanges (s : State) (t sl c addr : Nat) : heldRanges (slotFatal s t sl c addr) = heldRanges s := by
  simp [slotFatal]

@[simp] theorem fetchStep_heldRanges (s : State) (t sl : Nat) (tl : Tile) (c : Chain) :
    heldRanges (fetchStep s t sl tl c) = heldRanges s := by
  simp only [fetchStep]
  (repeat' split) <;> simp

@[simp] theorem execStrm_keeps (t : Nat) (s : State) : Keeps s (execStrm t s) := by simp [execStrm]

@[simp] theorem execDescriptorFetch_keeps (t sl : Nat) (s : State) : Keeps s (execDescriptorFetch t sl s) :=
  everyNext_withSlot _ _ <| everyNext_withTile _ _ (fun tl => by split <;> simp)

@[simp] theorem setLocalByte_heldRanges (s : State) (m : Move) (a : Nat) (b : Byte) : heldRanges (setLocalByte s m a b) = heldRanges s := by
  simp [setLocalByte]

@[simp] theorem putLocal_heldRanges (s : State) (m : Move) (f : Fmt) (an : Nat × Nat) (code : Nat) :
    heldRanges (putLocal s m f an code) = heldRanges s := by
  simp [putLocal]

@[simp] theorem putWalked_heldRanges (s : State) (f : Fmt) (an : Nat × Nat) (code : Nat) :
    heldRanges (putWalked s f an code) = heldRanges s := by
  simp [putWalked]

@[simp] theorem tagsAfter_heldRanges (s : State) (m : Move) : heldRanges (tagsAfter s m) = heldRanges s := by simp [tagsAfter]

@[simp] theorem finishDesc_heldRanges (s : State) (t sl : Nat) (c : Chain) (m : Move) (nib : Nat) :
    heldRanges (finishDesc s t sl c m nib) = heldRanges s := by
  simp [finishDesc]

@[simp] theorem moveFatal_heldRanges (s : State) (t sl : Nat) (c : Chain) (e : Nat × Nat) :
    heldRanges (moveFatal s t sl c e) = heldRanges s := by
  simp [moveFatal]

theorem readIngot_heldRanges (m : Move) (l g : Nat) (acc : MoveAcc) : heldRanges (readIngot m l g acc).s = heldRanges acc.s := by
  unfold readIngot
  extract_lets f lf n0 js base hasFine anyIn fa bad fine nbytes acc1
  split
  · rfl
  · rfl
  · have hacc : heldRanges acc1.s = heldRanges acc.s := by
      refine heldRanges_foldl_acc MoveAcc.s (fun b j => ?_) js acc
      dsimp only
      (repeat' split) <;> simp
    clear_value acc1
    split <;> simp [hacc]

theorem writeIngot_heldRanges (m : Move) (l g : Nat) (acc : MoveAcc) : heldRanges (writeIngot m l g acc).s = heldRanges acc.s := by
  unfold writeIngot
  extract_lets f lf n0 js base hasFine rm nbytes codes vals words vfl r rs enc acc1
  split
  · rfl
  · have hacc : heldRanges acc1.s = heldRanges acc.s := by
      refine heldRanges_foldl_acc MoveAcc.s (fun b jc => ?_) _ _
      dsimp only
      (repeat' split) <;> simp
    clear_value acc1
    (repeat' split) <;> simp [hacc]

theorem runMove_heldRanges (s : State) (m : Move) (hdr : Bool) : heldRanges (runMove s m hdr).s = heldRanges s := by
  unfold runMove
  dsimp only
  rw [heldRanges_foldl_acc MoveAcc.s fun b lg => ?cell]
  case cell => split; exacts [writeIngot_heldRanges .., readIngot_heldRanges ..]
  simp

@[simp] theorem completeStep_heldRanges (s : State) (t sl : Nat) (tl : Tile) (c0 : Chain) :
    heldRanges (completeStep s t sl tl c0) = heldRanges s := by
  simp only [completeStep]
  (repeat' split) <;> simp [-heldRanges, runMove_heldRanges]

@[simp] theorem execDescriptorComplete_keeps (t sl : Nat) (s : State) : Keeps s (execDescriptorComplete t sl s) :=
  everyNext_withSlot _ _ <| everyNext_withTile _ _ (fun tl => by split <;> simp)

@[simp] theorem execTagWaitResume_keeps (t sl : Nat) (s : State) : Keeps s (execTagWaitResume t sl s) :=
  everyNext_withSlot _ _ <| everyNext_withTile _ _ (fun tl => by split <;> simp)

@[simp] theorem execRunComplete_keeps (t : Nat) (s : State) : Keeps s (execRunComplete t s) :=
  everyNext_withTile _ _ fun tl => by split <;> simp

@[simp] theorem execDeadlineMiss_keeps (t sl : Nat) (s : State) : Keeps s (execDeadlineMiss t sl s) :=
  everyNext_withSlot _ _ <| everyNext_withTile _ _ (fun tl => by (repeat' split) <;> simp)

@[simp] theorem execStrw_keeps (t : Nat) (s : State) : Keeps s (execStrw t s) := by simp [execStrw]

@[simp] theorem execWgbIdleFlush_keeps (t line : Nat) (s : State) : Keeps s (execWgbIdleFlush t line s) := by simp [execWgbIdleFlush]

/-! ### Messages -/

@[simp] theorem storeMain_heldRanges (s : State) (t qn : Nat) (m : Msg) : heldRanges (storeMain s t qn m) = heldRanges s := by
  simp [storeMain]

@[simp] theorem unspill_heldRanges (t qn : Nat) (k : Nat) (s : State) : heldRanges (unspill t qn k s) = heldRanges s := by
  induction k generalizing s with
  | zero => rfl
  | succ k ih =>
    simp only [unspill]
    (repeat' split) <;> simp [ih]

@[simp] theorem sendMessage_keeps (comb : Bool) (op t : Nat) (s : State) : Keeps s (sendMessage comb op t s) :=
  keeps_withHead _ _ _ fun tl e => by split <;> simp

@[simp] theorem execSend_keeps (t : Nat) (s : State) : Keeps s (execSend t s) := by simp [execSend]

@[simp] theorem execComb_keeps (t : Nat) (s : State) : Keeps s (execComb t s) := by simp [execComb]

@[simp] theorem execRecv_keeps (t : Nat) (s : State) : Keeps s (execRecv t s) :=
  keeps_withHead _ _ _ fun tl e => by dsimp only; (repeat' split) <;> simp

@[simp] theorem execRecvPair_keeps (t : Nat) (s : State) : Keeps s (execRecvPair t s) :=
  keeps_withHead _ _ _ fun tl e => by dsimp only; (repeat' split) <;> simp

@[simp] theorem execRecvFree_keeps (t : Nat) (s : State) : Keeps s (execRecvFree t s) := by simp [execRecvFree]

@[simp] theorem bumpSpoil_heldRanges (s : State) (t i n : Nat) : heldRanges (bumpSpoil s t i n) = heldRanges s := by simp [bumpSpoil]

@[simp] theorem kindFatal_heldRanges (s : State) (t : Nat) (m : Msg) : heldRanges (kindFatal s t m) = heldRanges s := by simp [kindFatal]

@[simp] theorem acceptPlain_heldRanges (s : State) (i : Nat) (n : NetMsg) : heldRanges (acceptPlain s i n) = heldRanges s := by
  simp [acceptPlain]

@[simp] theorem arrive_heldRanges (s : State) (i : Nat) (c : Bool) {f : State → NetMsg → State} (h : ∀ v n, Keeps v (.next (f v n))) :
    heldRanges (arrive s i c f) = heldRanges s := by
  have hf := fun v n => (everyNext_next _ _).mp (h v n)
  simp only [arrive]
  (repeat' split) <;> simp [hf]

@[simp] theorem execDataMessage_keeps (i : Nat) (s : State) : Keeps s (execDataMessage i s) := by simp [execDataMessage]

@[simp] theorem acceptContribution_heldRanges (s : State) (i : Nat) (n : NetMsg) :
    heldRanges (acceptContribution s i n) = heldRanges s := by
  simp [acceptContribution]

@[simp] theorem execContribution_keeps (i : Nat) (s : State) : Keeps s (execContribution i s) := by simp [execContribution]

@[simp] theorem execSendNotice_keeps (i : Nat) (s : State) : Keeps s (execSendNotice i s) := by
  simp only [execSendNotice]
  (repeat' split) <;> simp

@[simp] theorem execSpill_keeps (t qn : Nat) (s : State) : Keeps s (execSpill t qn s) := by simp [execSpill]

@[simp] theorem deadlockRecords_heldRanges (s0 s : State) (t : Nat) : heldRanges (deadlockRecords s0 s t) = heldRanges s := by
  unfold deadlockRecords
  split <;> simp

@[simp] theorem execNoProgressTimeout_keeps (t : Nat) (s : State) : Keeps s (execNoProgressTimeout t s) := by simp [execNoProgressTimeout]

@[simp] theorem execRouteHoldRelease_keeps (src dst : Nat) (s : State) : Keeps s (execRouteHoldRelease src dst s) := by
  simp [execRouteHoldRelease]

@[simp] theorem execMessageToRetiredTile_keeps (i : Nat) (s : State) : Keeps s (execMessageToRetiredTile i s) := by
  fun_cases execMessageToRetiredTile i s <;> simp

/-! ### Tallies -/

@[simp] theorem setTally_heldRanges (s : State) (l p : Nat) (v : Tally) : heldRanges (setTally s l p v) = heldRanges s := by simp [setTally]

@[simp] theorem sendTally_keeps (op code t q : Nat) (s : State) : Keeps s (sendTally op code t q s) := by simp [sendTally]

@[simp] theorem execTadd_keeps (t q : Nat) (s : State) : Keeps s (execTadd t q s) := by simp [execTadd]

@[simp] theorem execTdec_keeps (t q : Nat) (s : State) : Keeps s (execTdec t q s) := by simp [execTdec]

@[simp] theorem execTwait_keeps (t q : Nat) (s : State) : Keeps s (execTwait t q s) := by simp [execTwait]

@[simp] theorem setBarrier_heldRanges (s : State) (bid : Nat) (b0 : Barrier) : heldRanges (setBarrier s bid b0) = heldRanges s := by
  simp [setBarrier]

@[simp] theorem driveOutputs_heldRanges (s : State) : heldRanges (driveOutputs s) = heldRanges s := by simp [driveOutputs]

@[simp] theorem barFatal_heldRanges (s : State) (t q bid : Nat) : heldRanges (barFatal s t q bid) = heldRanges s := by simp [barFatal]

@[simp] theorem execBarr_keeps (t q : Nat) (s : State) : Keeps s (execBarr t q s) := by simp [execBarr]

@[simp] theorem execBwait_keeps (t q : Nat) (s : State) : Keeps s (execBwait t q s) := by simp [execBwait]

@[simp] theorem completePhase_heldRanges (s : State) (bid : Nat) : heldRanges (completePhase s bid) = heldRanges s := by
  simp [completePhase]

@[simp] theorem execBarrierArrival_keeps (i : Nat) (s : State) : Keeps s (execBarrierArrival i s) := by
  simp only [execBarrierArrival]
  (repeat' split) <;> simp

@[simp] theorem execBarrierRelease_keeps (i : Nat) (s : State) : Keeps s (execBarrierRelease i s) := by
  fun_cases execBarrierRelease i s <;> simp

@[simp] theorem execBarrierTimeout_keeps (bid : Nat) (s : State) : Keeps s (execBarrierTimeout bid s) := by
  simp only [execBarrierTimeout]
  (repeat' split) <;> simp

@[simp] theorem replyWaiter_heldRanges (s : State) (w : Waiter) : heldRanges (replyWaiter s w) = heldRanges s := by
  fun_cases replyWaiter s w <;> simp

@[simp] theorem tallyFatal_heldRanges (s : State) (st l p vid n : Nat) (who : Nat) :
    heldRanges (tallyFatal s st l p vid n who) = heldRanges s := by
  simp [tallyFatal]

@[simp] theorem applyTally_heldRanges (s : State) (op vid n who : Nat) (w : Waiter) :
    heldRanges (applyTally s op vid n who w) = heldRanges s := by
  fun_cases applyTally s op vid n who w <;> simp

@[simp] theorem execTallyOperation_keeps (i : Nat) (s : State) : Keeps s (execTallyOperation i s) := by
  simp only [execTallyOperation]
  (repeat' split) <;> simp

@[simp] theorem execTwaitSatisfied_keeps (i : Nat) (s : State) : Keeps s (execTwaitSatisfied i s) := by
  simp only [execTwaitSatisfied]
  (repeat' split) <;> simp

@[simp] theorem setCtr_heldRanges (s : State) (l c : Nat) (v : WorkCtr) : heldRanges (setCtr s l c v) = heldRanges s := by simp [setCtr]

@[simp] theorem execWfetch_keeps (t : Nat) (s : State) : Keeps s (execWfetch t s) := by simp [execWfetch]

@[simp] theorem execWorkFetch_keeps (i : Nat) (s : State) : Keeps s (execWorkFetch i s) := by
  simp only [execWorkFetch]
  (repeat' split) <;> simp

@[simp] theorem execWorkFetchReply_keeps (i : Nat) (s : State) : Keeps s (execWorkFetchReply i s) := by
  simp only [execWorkFetchReply]
  (repeat' split) <;> simp

@[simp] theorem afterOr_heldRanges (s : State) {o : Outcome} (h : Keeps s o) : heldRanges (afterOr s o) = heldRanges s := by
  unfold afterOr
  split
  · exact h _ rfl
  · rfl

@[simp] theorem settleOne_heldRanges (i : Nat) (s : State) : heldRanges (settleOne i s) = heldRanges s := by
  fun_cases settleOne i s <;> simp

@[simp] theorem settleCtl_heldRanges (k : Nat) (s : State) : heldRanges (settleCtl k s) = heldRanges s := by
  induction k generalizing s with
  | zero => rfl
  | succ k ih =>
    simp only [settleCtl]
    (repeat' split) <;> simp [ih]

@[simp] theorem settleUnits_heldRanges (s : State) : heldRanges (settleUnits s) = heldRanges s := by simp [settleUnits]

@[simp] theorem settleAt_heldRanges (s : State) (ts : List Nat) : heldRanges (settleAt s ts) = heldRanges s := by simp [settleAt]

@[simp] theorem deliverNet_heldRanges (k i : Nat) (s : State) : heldRanges (deliverNet k i s) = heldRanges s := by
  induction k generalizing i s with
  | zero => rfl
  | succ k ih =>
    simp only [deliverNet]
    (repeat' split) <;> simp [ih]

@[simp] theorem deliverAll_heldRanges (s : State) : heldRanges (deliverAll s) = heldRanges s := by simp [deliverAll]

/-! ### LevelUnits -/

@[simp] theorem writeMap_heldRanges (s : State) (v : Nat) (w : W64) : heldRanges (writeMap s v w) = heldRanges s := by simp [writeMap]

@[simp] theorem counterWrite_heldRanges (s : State) (n c : Nat) (hi : Bool) (v m : W64) :
    heldRanges (counterWrite s n c hi v m) = heldRanges s := by
  simp [counterWrite]

@[simp] theorem hostMap_heldRanges (s : State) (v : Nat) (w : W64) : heldRanges (hostMap s v w) = heldRanges s := by simp [hostMap]

@[simp] theorem barrierPut_heldRanges (s : State) (record : Bool) (bid o : Nat) (v : W64) :
    heldRanges (barrierPut s record bid o v) = heldRanges s := by
  simp [barrierPut]

@[simp] theorem luWrite64_heldRanges (s : State) (record : Bool) (n o : Nat) (v m : W64) :
    heldRanges (luWrite64 s record n o v m) = heldRanges s := by
  simp [luWrite64]

@[simp] theorem cbarWrite64_heldRanges (s : State) (record : Bool) (o : Nat) (v m : W64) :
    heldRanges (cbarWrite64 s record o v m) = heldRanges s := by
  simp [cbarWrite64]

/-! ### Images -/

@[simp] theorem beginWrite_heldRanges (s : State) (l : Load) : heldRanges (beginWrite s l) = heldRanges s := by simp [beginWrite]

@[simp] theorem finishLoad_heldRanges (s : State) (l : Load) : heldRanges (finishLoad s l) = heldRanges s := by simp [finishLoad]

@[simp] theorem abortLoad_heldRanges (s : State) (l : Load) (st : Nat) : heldRanges (abortLoad s l st) = heldRanges s := by simp [abortLoad]

@[simp] theorem stepRecord_heldRanges (s : State) (l : Load) (r : Rec) : heldRanges (stepRecord s l r) = heldRanges s := by
  simp [stepRecord]

@[simp] theorem keeps_withRecord {s : State} (p : Rec → Bool) {f : Load → Rec → State} (h : ∀ l r, Keeps s (.next (f l r))) :
    Keeps s (withRecord s p f) := by
  have hf := fun l r => (everyNext_next _ _).mp (h l r)
  unfold withRecord
  (repeat' split) <;> simp [hf]

@[simp] theorem applyFrame_heldRanges (s : State) (r : Rec) : heldRanges (applyFrame s r) = heldRanges s := by simp [applyFrame]

@[simp] theorem execFrameRecord_keeps (s : State) : Keeps s (execFrameRecord s) := by simp [execFrameRecord]

@[simp] theorem recordWrite_heldRanges (s : State) (r : Rec) : heldRanges (recordWrite s r) = heldRanges s := by simp [recordWrite]

@[simp] theorem recordStep_heldRanges (s : State) (l : Load) (r : Rec) (ts : List Nat) (off : Nat) {u : State} (h : Keeps s (.next u)) :
    heldRanges (recordStep s l r ts off u) = heldRanges s := by
  have hu := (everyNext_next _ _).mp h
  unfold recordStep
  (repeat' split) <;> simp [hu]

@[simp] theorem execCommandRecordWrite_keeps (s : State) : Keeps s (execCommandRecordWrite s) := by simp [execCommandRecordWrite]

@[simp] theorem execCommandRecordBcast_keeps (s : State) : Keeps s (execCommandRecordBcast s) :=
  keeps_withRecord _ fun l r => by simp

@[simp] theorem execCommandRecordWait_keeps (s : State) : Keeps s (execCommandRecordWait s) := by simp [execCommandRecordWait]

@[simp] theorem execLoadWaitTimeout_keeps (s : State) : Keeps s (execLoadWaitTimeout s) := by simp [execLoadWaitTimeout]

@[simp] theorem startWrite_heldRanges (s : State) (l : Load) : heldRanges (startWrite s l) = heldRanges s := by
  simp only [startWrite]
  (repeat' split) <;> simp

@[simp] theorem discardRegion_heldRanges (s : State) (r : Rect) : heldRanges (discardRegion s r).1 = heldRanges s := by
  simp only [discardRegion]
  (repeat' split) <;> simp

@[simp] theorem modePhase_heldRanges (s : State) (l : Load) (mode : Nat) : heldRanges (modePhase s l mode) = heldRanges s := by
  simp only [modePhase]
  (repeat' split) <;> simp

@[simp] theorem imageRead_heldRanges (s : State) (img : Image) (room : Nat) : heldRanges (imageRead s img room) = heldRanges s := by
  simp [imageRead]

@[simp] theorem execSectionLoad_keeps (k : Nat) (sigOk : Bool) (s : State) : Keeps s (execSectionLoad k sigOk s) :=
  keeps_withJob _ _ fun x j => by dsimp only; (repeat' split) <;> simp

@[simp] theorem execLoadDrainDone_keeps (s : State) : Keeps s (execLoadDrainDone s) := by
  fun_cases execLoadDrainDone s <;> simp

@[simp] theorem execLoadDrainTimeout_keeps (s : State) : Keeps s (execLoadDrainTimeout s) := by
  simp only [execLoadDrainTimeout]
  (repeat' split) <;> simp

/-! ### Sections -/

@[simp] theorem execTileFinished_keeps (t : Nat) (s : State) : Keeps s (execTileFinished t s) := by simp [execTileFinished]

@[simp] theorem modLaunch_heldRanges (s : State) (k : Nat) (f : Launch → Launch) : heldRanges (modLaunch s k f) = heldRanges s := by
  simp [modLaunch]

@[simp] theorem beginSection_heldRanges (s : State) (l : Launch) : heldRanges (beginSection s l) = heldRanges s := by
  simp only [beginSection]
  (repeat' split) <;> simp

@[simp] theorem refuseLaunch_heldRanges (s : State) (k st detail : Nat) : heldRanges (refuseLaunch s k st detail) = heldRanges s := by
  simp [refuseLaunch]

@[simp] theorem tryStart_heldRanges (s : State) (k : Nat) : heldRanges (tryStart s k) = heldRanges s := by
  simp only [tryStart]
  (repeat' split) <;> simp

@[simp] theorem holdLaunch_heldRanges (s : State) (x : Packet) (j : Nat) (r : Rect) : heldRanges (holdLaunch s x j r) = heldRanges s := by
  simp [holdLaunch]

@[simp] theorem checkLaunch_heldRanges (s : State) (x : Packet) (j : Job) (r : Rect) : heldRanges (checkLaunch s x j r) = heldRanges s := by
  unfold checkLaunch
  dsimp only
  split
  · simp
  · rw [heldRanges_ite, tryStart_heldRanges, askLeave_heldRanges, refuseLaunch_heldRanges, ite_self]

@[simp] theorem execSectionLaunch_keeps (k : Nat) (s : State) : Keeps s (execSectionLaunch k s) :=
  keeps_withJob _ _ fun x j => by dsimp only; (repeat' split) <;> simp

@[simp] theorem execSectionStart_keeps (k : Nat) (s : State) : Keeps s (execSectionStart k s) := by simp [execSectionStart]

@[simp] theorem execLeaveTimeout_keeps (k : Nat) (s : State) : Keeps s (execLeaveTimeout k s) := by
  fun_cases execLeaveTimeout k s <;> simp

@[simp] theorem execSectionStop_keeps (k : Nat) (s : State) : Keeps s (execSectionStop k s) :=
  keeps_withJob _ _ fun x j => by dsimp only; (repeat' split) <;> simp

@[simp] theorem flushAllOf_heldRanges (s : State) (ts : List Nat) : heldRanges (flushAllOf s ts) = heldRanges s := by simp [flushAllOf]

@[simp] theorem scanState_heldRanges (s : State) (we : BitVec 16) : heldRanges (scanState s we).1 = heldRanges s := by simp [scanState]

@[simp] theorem clearDevice_heldRanges (s : State) : heldRanges (clearDevice s) = heldRanges s := by simp [clearDevice]

@[simp] theorem putTiles_heldRanges (s : State) (v : Saved) (ts : List Nat) (f : Nat → Tile → Tile → Tile) :
    heldRanges (putTiles s v ts f) = heldRanges s := by
  unfold putTiles
  dsimp only
  rw [heldRanges_foldl fun a c => by simp, heldRanges_foldl fun a t => by split <;> simp]

@[simp] theorem loadSaved_heldRanges (s : State) (j : Nat) (v : Saved) : heldRanges (loadSaved s j v) = heldRanges s := by simp [loadSaved]

@[simp] theorem dropSnapshot_heldRanges (s : State) (j : Nat) : heldRanges (dropSnapshot s j) = heldRanges s := by simp [dropSnapshot]

@[simp] theorem execSectionCommit_keeps (k : Nat) (s : State) : Keeps s (execSectionCommit k s) :=
  keeps_withJob _ _ fun x j => by dsimp only; (repeat' split) <;> simp

@[simp] theorem saveSection_heldRanges (s view : State) (x : Packet) (j : Job) (r : Rect) (ts : List Nat) :
    heldRanges (saveSection s view x j r ts) = heldRanges s := by
  simp only [saveSection]
  (repeat' split) <;> simp

@[simp] theorem execSectionSave_keeps (k : Nat) (s0 : State) : Keeps s0 (execSectionSave k s0) :=
  keeps_withJob _ _ fun x j => by dsimp only; (repeat' split) <;> simp

@[simp] theorem restoreSection_heldRanges (view : State) (j : Nat) (v : Saved) (ts lv : List Nat) :
    heldRanges (restoreSection view j v ts lv) = heldRanges view := by
  simp [restoreSection]

/-- The frame lemmas are rewritten with as a whole: the projections' own lemmas hold by `rfl`, and would have the kernel evaluate the
reads of thousands of bytes. -/
@[simp] theorem execSectionRestore_keeps (k : Nat) (s0 : State) : Keeps s0 (execSectionRestore k s0) := by
  have hepoch (u : State) (j : Nat) (w : BitVec 16) : heldRanges (modJob u j fun y => { y with wepoch := w }) = heldRanges u := by simp
  have hsaved (u : State) (j : Nat) (w : Option Saved) : heldRanges (modJob u j fun y => { y with saved := w }) = heldRanges u := by simp
  refine keeps_withJob _ _ fun x j => ?_
  dsimp only
  (repeat' split) <;> simp only [everyNext_next, badField_heldRanges, memFatal_heldRanges, refuse_heldRanges, replyOk_heldRanges,
    tellGenerations_heldRanges, restoreSection_heldRanges, settleUnits_heldRanges, bumpFresh_heldRanges, binReads_heldRanges,
    early_heldRanges, hepoch, hsaved]

/-! ### Faults -/

@[simp] theorem setWin_heldRanges (s : State) (w : Window) : heldRanges (setWin s w) = heldRanges s := by simp [setWin]

@[simp] theorem countEvent_heldRanges (s : State) (u : CountUnit) : heldRanges (countEvent s u) = heldRanges s := by simp [countEvent]

@[simp] theorem writeFlash_heldRanges (s : State) : heldRanges (writeFlash s) = heldRanges s := by simp [writeFlash]

@[simp] theorem correctedEvent_heldRanges (s : State) (u : CountUnit) (loc1 addr : Nat) :
    heldRanges (correctedEvent s u loc1 addr) = heldRanges s := by
  simp [correctedEvent]

@[simp] theorem rewriteDetours_heldRanges (s : State) (near : List Nat) : heldRanges (rewriteDetours s near) = heldRanges s := by
  simp [rewriteDetours]

@[simp] theorem mendBarriers_heldRanges (s : State) (t : Nat) (gone : Bool) : heldRanges (mendBarriers s t gone) = heldRanges s := by
  simp [mendBarriers]

@[simp] theorem retireTile_heldRanges (s : State) (t : Nat) (spare : Option Nat) : heldRanges (retireTile s t spare) = heldRanges s := by
  simp only [retireTile]
  (repeat' split) <;> simp

@[simp] theorem disableLink_heldRanges (s : State) (t k : Nat) : heldRanges (disableLink s t k) = heldRanges s := by simp [disableLink]

@[simp] theorem abandonRecovery_heldRanges (s : State) (unit spare seq : Nat) :
    heldRanges (abandonRecovery s unit spare seq) = heldRanges s := by
  simp [abandonRecovery]

@[simp] theorem rewriteRecord_heldRanges (s : State) (r : Rec) : heldRanges (rewriteRecord s r) = heldRanges s := by simp [rewriteRecord]

@[simp] theorem rewriteImage_heldRanges (s : State) (i : Image) : heldRanges (rewriteImage s i) = heldRanges s := by simp [rewriteImage]

@[simp] theorem reloadRegisters_heldRanges (s : State) (i : Image) : heldRanges (reloadRegisters s i) = heldRanges s := by
  simp [reloadRegisters]

@[simp] theorem restoreSnapshot_heldRanges (s : State) (n : Snapshot) : heldRanges (restoreSnapshot s n) = heldRanges s := by
  unfold restoreSnapshot
  dsimp only
  rw [heldRanges_foldl fun a c => by simp, heldRanges_foldl fun a t => by simp, heldRanges_foldl fun a t => by split <;> simp]

@[simp] theorem reinject_heldRanges (s : State) (log : List Msg) : heldRanges (reinject s log) = heldRanges s := by simp [reinject]

@[simp] theorem replaySection_heldRanges (s : State) (l : Launch) : heldRanges (replaySection s l) = heldRanges s := by
  unfold replaySection
  split <;> simp

@[simp] theorem containRegion_heldRanges (s : State) (l : Launch) (r : Rect) : heldRanges (containRegion s l r) = heldRanges s := by
  simp [containRegion]

theorem stepTwo_heldRanges {s : State} {b : Broken} {r : State × Option Nat} (h : stepTwo s b = some r) :
    heldRanges r.1 = heldRanges s := by
  cases b with
  | tile t =>
    obtain ⟨r, _, rfl⟩ := Option.map_eq_some_iff.mp h
    simp
  | link t k => cases h; simp
  | queue q => cases h; rfl

@[simp] theorem recover_heldRanges (s : State) (l : Launch) (b : Broken) (q : Nat) : heldRanges (recover s l b q) = heldRanges s := by
  unfold recover
  split
  · simp
  · dsimp only
    split
    · simp
    · split
      · split <;> simp
      next s2 spare htwo =>
        have h2 : heldRanges s2 = heldRanges s := by rw [stepTwo_heldRanges htwo, containRegion_heldRanges]
        have h4 : heldRanges s2 = heldRanges s := h2
        (repeat' split) <;> simp [h2]

@[simp] theorem dropUnit_heldRanges (s : State) (b : Broken) : heldRanges (dropUnit s b) = heldRanges s := by
  fun_cases dropUnit s b <;> simp

@[simp] theorem hardRecord_heldRanges (s : State) (src loc0 loc1 : Nat) (detail : List Nat) :
    heldRanges (hardRecord s src loc0 loc1 detail) = heldRanges s := by
  fun_cases hardRecord s src loc0 loc1 detail <;> simp

@[simp] theorem hardAct_heldRanges (s : State) (l : Option Launch) (b : Broken) (seq : Nat) :
    heldRanges (hardAct s l b seq) = heldRanges s := by
  fun_cases hardAct s l b seq <;> simp

@[simp] theorem hardFault_heldRanges (s : State) (l : Option Launch) (b : Broken) (src loc0 loc1 : Nat) (detail : List Nat) :
    heldRanges (hardFault s l b src loc0 loc1 detail) = heldRanges s := by
  simp [hardFault]

@[simp] theorem lastingTile_heldRanges (s : State) (t loc1 : Nat) (detail : List Nat) :
    heldRanges (lastingTile s t loc1 detail) = heldRanges s := by
  simp [lastingTile]

@[simp] theorem retireStack_heldRanges (s : State) (k : Nat) : heldRanges (retireStack s k) = heldRanges s := by simp [retireStack]

@[simp] theorem retireChannel_heldRanges (s : State) (k c : Nat) (told : Bool) (detail : List Nat) :
    heldRanges (retireChannel s k c told detail) = heldRanges s := by
  simp [retireChannel]

@[simp] theorem secondFault_heldRanges (s : State) : heldRanges (secondFault s) = heldRanges s := by
  fun_cases secondFault s <;> simp

@[simp] theorem lossFate_heldRanges (s : State) (k : Nat) (c : Option Nat) : heldRanges (lossFate s k c) = heldRanges s := by
  simp [lossFate]

@[simp] theorem loseChannel_heldRanges (s : State) (k c : Nat) (detail : List Nat) :
    heldRanges (loseChannel s k c detail) = heldRanges s := by
  simp [loseChannel]

@[simp] theorem loseStack_heldRanges (s : State) (k : Nat) : heldRanges (loseStack s k) = heldRanges s := by simp [loseStack]

@[simp] theorem hbmFault_heldRanges (s : State) (a : Nat) : heldRanges (hbmFault s a) = heldRanges s := by simp [hbmFault]

@[simp] theorem dropLane_heldRanges (s : State) (p l : Nat) (detail : List Nat) : heldRanges (dropLane s p l detail) = heldRanges s := by
  simp [dropLane]

@[simp] theorem thresholdAction_heldRanges (s : State) (u : CountUnit) (loc1 : Nat) :
    heldRanges (thresholdAction s u loc1) = heldRanges s := by
  fun_cases thresholdAction s u loc1 <;> simp

@[simp] theorem deferFault_heldRanges (s : State) (d : Due) : heldRanges (deferFault s d) = heldRanges s := by simp [deferFault]

@[simp] theorem corruptMessage_heldRanges (s : State) (i : Nat) : heldRanges (corruptMessage s i) = heldRanges s := by
  unfold corruptMessage
  split <;> simp

@[simp] theorem corruptCtl_heldRanges (s : State) (i : Nat) : heldRanges (corruptCtl s i) = heldRanges s := by
  simp only [corruptCtl]
  (repeat' split) <;> simp

@[simp] theorem faultEffect_heldRanges (s : State) (e : FaultEvent) : heldRanges (faultEffect s e) = heldRanges s := by
  fun_cases faultEffect s e <;> simp

theorem detect_heldRanges {s v : State} {e : FaultEvent} {r : State × Due} (h : detect v s e = some r) :
    heldRanges r.1 = heldRanges s := by
  unfold detect at h
  repeat' split at h
  all_goals cases h <;> simp

@[simp] theorem faultAction_heldRanges (s : State) (e : FaultEvent) : heldRanges (faultAction s e) = heldRanges s := by
  fun_cases faultAction s e <;> simp

@[simp] theorem takeDue_heldRanges (s : State) (d : Due) : heldRanges (takeDue s d) = heldRanges s := by
  fun_cases takeDue s d <;> simp

@[simp] theorem meetFault_heldRanges (s : State) (e : FaultEvent) : heldRanges (meetFault s e) = heldRanges s := by
  have hr : heldRanges ((detect s (faultEffect s e) e).getD (faultEffect s e, .event e)).1 = heldRanges s := by
    cases hd : detect s (faultEffect s e) e with
    | none => simp
    | some r => rw [Option.getD_some, detect_heldRanges hd, faultEffect_heldRanges]
  simp only [meetFault]
  split
  · rw [deferFault_heldRanges, hr]
  · rw [takeDue_heldRanges, hr]

@[simp] theorem execErrorEvent_keeps (e : FaultEvent) (s : State) : Keeps s (execErrorEvent e s) := by
  fun_cases execErrorEvent e s <;> simp

@[simp] theorem runDeferred_heldRanges (s : State) : heldRanges (runDeferred s) = heldRanges s := by simp [runDeferred]

@[simp] theorem resetRecord_heldRanges (s : State) (u : CountUnit) (src job loc0 loc1 count : Nat) :
    heldRanges (resetRecord s u src job loc0 loc1 count) = heldRanges s := by
  simp [resetRecord]

@[simp] theorem hubReset_heldRanges (s : State) (k lost : Nat) : heldRanges (hubReset s k lost) = heldRanges s := by simp [hubReset]

@[simp] theorem hubQueueReset_heldRanges (s : State) (k kind n lost : Nat) : heldRanges (hubQueueReset s k kind n lost) = heldRanges s := by
  simp [hubQueueReset]

@[simp] theorem execQueuePointerReset_keeps (u : QueueRef) (s : State) : Keeps s (execQueuePointerReset u s) := by
  cases u with
  | tileQ t qn =>
    refine everyNext_withQ16 qn s (everyNext_withTile s t fun tl => ?_)
    dsimp only
    (repeat' split) <;> simp
  | hostFifo p => simp [execQueuePointerReset]
  | jorzinIn p lvc => simp [execQueuePointerReset]
  | combiner n => simp [execQueuePointerReset]

@[simp] theorem execSummaryRecord_keeps (u : CountUnit) (s : State) : Keeps s (execSummaryRecord u s) := by simp [execSummaryRecord]

@[simp] theorem execFlashCountWrite_keeps (s : State) : Keeps s (execFlashCountWrite s) := by simp [execFlashCountWrite]

@[simp] theorem execConfigScrub_keeps (t off : Nat) (r : ScrubResult) (s : State) : Keeps s (execConfigScrub t off r s) :=
  everyNext_withTile _ _ fun _ => by (repeat' split) <;> simp

@[simp] theorem execScrubberCrcCheck_keeps (n : Nat) (ok : Bool) (s : State) : Keeps s (execScrubberCrcCheck n ok s) := by
  simp [execScrubberCrcCheck]

@[simp] theorem controllerFault_heldRanges (s : State) (n : Nat) : heldRanges (controllerFault s n) = heldRanges s := by
  simp only [controllerFault]
  (repeat' split) <;> simp

@[simp] theorem execLockstepMismatch_keeps (n : Nat) (s : State) : Keeps s (execLockstepMismatch n s) := by simp [execLockstepMismatch]

@[simp] theorem execLcHeartbeat_keeps (n : Nat) (seen : Bool) (s : State) : Keeps s (execLcHeartbeat n seen s) := by simp [execLcHeartbeat]

@[simp] theorem execHubWatchdogExpiry_keeps (s : State) : Keeps s (execHubWatchdogExpiry s) := by simp [execHubWatchdogExpiry]

@[simp] theorem execReplayTimeout_keeps (s : State) : Keeps s (execReplayTimeout s) := by
  fun_cases execReplayTimeout s <;> simp

@[simp] theorem execTileRetire_keeps (k : Nat) (s : State) : Keeps s (execTileRetire k s) := by simp [execTileRetire]

/-! ### HostIf -/

@[simp] theorem sqError_heldRanges (s : State) (p q : Nat) : heldRanges (sqError s p q) = heldRanges s := by simp [sqError]

@[simp] theorem cqError_heldRanges (s : State) (p q : Nat) : heldRanges (cqError s p q) = heldRanges s := by simp [cqError]

@[simp] theorem execSqTailDoorbell_keeps (p q v : Nat) (s : State) : Keeps s (execSqTailDoorbell p q v s) := by simp [execSqTailDoorbell]

@[simp] theorem execCqHeadDoorbell_keeps (p q v : Nat) (s : State) : Keeps s (execCqHeadDoorbell p q v s) := by simp [execCqHeadDoorbell]

@[simp] theorem execSqCfgWrite_keeps (p q : Nat) (v : BitVec 64) (be : BitVec 8) (s : State) : Keeps s (execSqCfgWrite p q v be s) := by
  simp [execSqCfgWrite]

@[simp] theorem execCqCfgWrite_keeps (p q : Nat) (v : BitVec 64) (be : BitVec 8) (s : State) : Keeps s (execCqCfgWrite p q v be s) := by
  simp [execCqCfgWrite]

@[simp] theorem execCqReplyWrite_keeps (p q : Nat) (s : State) : Keeps s (execCqReplyWrite p q s) := by simp [execCqReplyWrite]

@[simp] theorem execCqCoalesceTimeout_keeps (p q : Nat) (s : State) : Keeps s (execCqCoalesceTimeout p q s) := by
  simp [execCqCoalesceTimeout]

@[simp] theorem takePacket_heldRanges (s : State) (x : Packet) : heldRanges (takePacket s x) = heldRanges s := by
  fun_cases takePacket s x <;> simp

@[simp] theorem slotReads_heldRanges (s : State) (x : SubQueue) (n : Nat) : heldRanges (slotReads s x n) = heldRanges s := by
  simp [slotReads]

@[simp] theorem execPacketTake_keeps (p q : Nat) (bytes : List Byte) (s : State) : Keeps s (execPacketTake p q bytes s) := by
  simp [execPacketTake]

@[simp] theorem bar0Write64_heldRanges (s : State) (p pf o : Nat) (v m : W64) : heldRanges (bar0Write64 s p pf o v m) = heldRanges s := by
  simp [bar0Write64]

@[simp] theorem msixWrite_heldRanges (s : State) (p pf d : Nat) (v : W32) : heldRanges (msixWrite s p pf d v) = heldRanges s := by
  simp [msixWrite]

@[simp] theorem execRegisterWrite_keeps (p pf off : Nat) (v : BitVec 64) (be : BitVec 8) (s : State) :
    Keeps s (execRegisterWrite p pf off v be s) := by
  simp [execRegisterWrite]

@[simp] theorem barAnswer_heldRanges (s : State) (p : Nat) (bs : List Byte) : heldRanges (barAnswer s p bs) = heldRanges s := by
  simp [barAnswer]

@[simp] theorem barNothing_heldRanges (s : State) (p : Nat) (a : BusAccess) : heldRanges (barNothing s p a) = heldRanges s := by
  fun_cases barNothing s p a <;> simp

@[simp] theorem barRefused_heldRanges (s : State) (p addr : Nat) (a : BusAccess) : heldRanges (barRefused s p addr a) = heldRanges s := by
  simp [barRefused]

@[simp] theorem touchTile_heldRanges (s : State) (t : Nat) : heldRanges (touchTile s t) = heldRanges s := by simp [touchTile]

@[simp] theorem ctlAccess_heldRanges (s : State) (p addr : Nat) (a : BusAccess) : heldRanges (ctlAccess s p addr a) = heldRanges s := by
  unfold ctlAccess
  split <;> simp

@[simp] theorem memAccess_heldRanges (s : State) (p addr : Nat) (a : BusAccess) : heldRanges (memAccess s p addr a) = heldRanges s := by
  simp only [memAccess]
  split
  · simp
  · simp
  · simp
  · rw [heldRanges_foldl fun v e => by split <;> simp]
    simp

@[simp] theorem execBar2Access_keeps (p off : Nat) (a : BusAccess) (s : State) : Keeps s (execBar2Access p off a s) := by
  simp [execBar2Access]

@[simp] theorem execBar0LevelUnitAccess_keeps (p off : Nat) (a : BusAccess) (s : State) : Keeps s (execBar0LevelUnitAccess p off a s) := by
  simp only [execBar0LevelUnitAccess]
  (repeat' split) <;> simp

@[simp] theorem fifoMark_heldRanges (s : State) (p : Nat) : heldRanges (fifoMark s p) = heldRanges s := by simp [fifoMark]

@[simp] theorem execHostFifoWrite_keeps (p : Nat) (bytes : List Byte) (s : State) : Keeps s (execHostFifoWrite p bytes s) := by
  simp [execHostFifoWrite]

@[simp] theorem execConfigurationRequest_keeps (p pf reg : Nat) (w : Option (BitVec 32)) (s : State) :
    Keeps s (execConfigurationRequest p pf reg w s) := by
  simp only [execConfigurationRequest]
  (repeat' split) <;> simp

@[simp] theorem execAlertStatusRead_keeps (s : State) : Keeps s (execAlertStatusRead s) := by simp [execAlertStatusRead]

/-! ### Cascade -/

@[simp] theorem logInput_heldRanges (s : State) (m : Msg) : heldRanges (logInput s m) = heldRanges s := by
  simp only [logInput]
  (repeat' split) <;> simp

@[simp] theorem hubDeliver_heldRanges (s : State) (m : Msg) : heldRanges (hubDeliver s m) = heldRanges s := by simp [hubDeliver]

@[simp] theorem hubInject_heldRanges (s : State) (m : Msg) : heldRanges (hubInject s m) = heldRanges s := by simp [hubInject]

@[simp] theorem inputFor_heldRanges (s : State) (j : Nat) (m : Msg) : heldRanges (inputFor s j m) = heldRanges s := by
  fun_cases inputFor s j m <;> simp

@[simp] theorem inbound_heldRanges (s : State) (m : Msg) : heldRanges (inbound s m) = heldRanges s := by
  fun_cases inbound s m <;> simp

@[simp] theorem countOutbound_heldRanges (s : State) (m : Msg) : heldRanges (countOutbound s m).1 = heldRanges s := by
  fun_cases countOutbound s m <;> simp

@[simp] theorem execGatePortMessage_keeps (i : Nat) (s : State) : Keeps s (execGatePortMessage i s) := by
  simp only [execGatePortMessage]
  (repeat' split) <;> simp

@[simp] theorem execJorzinAck_keeps (p aseq : Nat) (s : State) : Keeps s (execJorzinAck p aseq s) := by
  simp only [execJorzinAck]
  (repeat' split) <;> simp

@[simp] theorem execJorzinNack_keeps (p aseq : Nat) (s : State) : Keeps s (execJorzinNack p aseq s) := by
  simp only [execJorzinNack]
  (repeat' split) <;> simp

@[simp] theorem execJorzinCredit_keeps (p c0 c1 c2 : Nat) (s : State) : Keeps s (execJorzinCredit p c0 c1 c2 s) := by
  simp [execJorzinCredit]

@[simp] theorem execJorzinAckTimeout_keeps (p : Nat) (s : State) : Keeps s (execJorzinAckTimeout p s) := by simp [execJorzinAckTimeout]

@[simp] theorem execPortRetrainEnd_keeps (p : Nat) (ok : Bool) (s : State) : Keeps s (execPortRetrainEnd p ok s) := by
  simp only [execPortRetrainEnd]
  (repeat' split) <;> simp

@[simp] theorem execJorzinRouteHoldRelease_keeps (d : Nat) (s : State) : Keeps s (execJorzinRouteHoldRelease d s) := by
  simp [execJorzinRouteHoldRelease]

@[simp] theorem clashFound_heldRanges (s : State) (p q : Nat) : heldRanges (clashFound s p q) = heldRanges s := by simp [clashFound]

@[simp] theorem noteFarEnd_heldRanges (s : State) (d p far : Nat) : heldRanges (noteFarEnd s d p far) = heldRanges s := by simp [noteFarEnd]

@[simp] theorem execJorzinPortTrained_keeps (p dev fport : Nat) (pith : Bool) (s : State) :
    Keeps s (execJorzinPortTrained p dev fport pith s) := by
  simp [execJorzinPortTrained]

@[simp] theorem execCascadeConfig_keeps (k : Nat) (s : State) : Keeps s (execCascadeConfig k s) :=
  keeps_withCmd _ _ fun x => by dsimp only; (repeat' split) <;> simp

@[simp] theorem startForward_heldRanges (s : State) (x : Packet) (own : Bool) (ds : List Nat) :
    heldRanges (startForward s x own ds) = heldRanges s := by
  simp only [startForward]
  (repeat' split) <;> simp

@[simp] theorem execCascadeForward_keeps (k : Nat) (replies : List (Nat × Nat)) (s : State) : Keeps s (execCascadeForward k replies s) :=
  keeps_withCmd _ _ fun x => by dsimp only; (repeat' split) <;> simp

@[simp] theorem collectiveDeliver_heldRanges (s : State) (x : Packet) (sum : List Byte) :
    heldRanges (collectiveDeliver s x sum) = heldRanges s := by
  simp [collectiveDeliver]

@[simp] theorem execCollective_keeps (k : Nat) (others : List (Nat × List Byte)) (s : State) : Keeps s (execCollective k others s) := by
  refine keeps_withJob _ _ fun x j => ?_
  extract_lets me src dst len ds inMem mineOk cs ends draw early s1 s2 s3 part listed order sum s4
  have h1 : heldRanges s1 = heldRanges s := by simp [s1, early]
  have h2 : heldRanges s2 = heldRanges s := by simp [s2, h1]
  have h3 : heldRanges s3 = heldRanges s := h2
  have h4 : heldRanges s4 = heldRanges s := by simp [s4, h3]
  clear_value s2 s1 s3 s4
  (repeat' split) <;> simp [h2, h3, h4]

@[simp] theorem readySignal_heldRanges (s : State) (was : Bool) : heldRanges (readySignal s was) = heldRanges s := by simp [readySignal]

@[simp] theorem stageDevice_heldRanges (s : State) (d : Nat) : heldRanges (stageDevice s d) = heldRanges s := by simp [stageDevice]

@[simp] theorem execCascadeReady_keeps (s : State) : Keeps s (execCascadeReady s) := by simp [execCascadeReady]

@[simp] theorem failAway_heldRanges (s : State) (d : Nat) : heldRanges (failAway s d) = heldRanges s := by simp [failAway]

@[simp] theorem execDeviceLoss_keeps (d : Nat) (s : State) : Keeps s (execDeviceLoss d s) := by simp [execDeviceLoss]

@[simp] theorem execDeviceJoin_keeps (d : Nat) (s : State) : Keeps s (execDeviceJoin d s) := by simp [execDeviceJoin]

@[simp] theorem driven_heldRanges (s : State) (c : ShCmd) (acking : Bool) : heldRanges (driven s c acking) = heldRanges s := by
  simp [driven]

@[simp] theorem makeDue_heldRanges (s : State) (c : ShCmd) : heldRanges (makeDue s c) = heldRanges s := by simp [makeDue]

@[simp] theorem execShfltAsserted_keeps (s : State) : Keeps s (execShfltAsserted s) := by simp [execShfltAsserted]

@[simp] theorem execShfltReleased_keeps (s : State) : Keeps s (execShfltReleased s) := by simp [execShfltReleased]

@[simp] theorem execFreezeLog_keeps (s : State) : Keeps s (execFreezeLog s) := by simp [execFreezeLog]

@[simp] theorem execShcmdHalt_keeps (s : State) : Keeps s (execShcmdHalt s) := by
  simp only [execShcmdHalt]
  (repeat' split) <;> simp

@[simp] theorem execShbarReleased_keeps (line : Nat) (s : State) : Keeps s (execShbarReleased line s) := by simp [execShbarReleased]

@[simp] theorem execShcmdBarrierRelease_keeps (lines : BitVec 4) (s : State) : Keeps s (execShcmdBarrierRelease lines s) := by
  simp [execShcmdBarrierRelease]

@[simp] theorem execShcmdMark_keeps (s : State) : Keeps s (execShcmdMark s) := by
  simp only [execShcmdMark]
  (repeat' split) <;> simp

@[simp] theorem execShackReleased_keeps (s : State) : Keeps s (execShackReleased s) := by
  unfold execShackReleased
  split
  · simp
  · refine (everyNext_next _ _).mpr ?_
    rw [heldRanges_foldl fun a e => by simp, heldRanges_foldl fun a k => by (repeat' split) <;> simp]

@[simp] theorem execShaftTick_keeps (s : State) : Keeps s (execShaftTick s) := by simp [execShaftTick]

@[simp] theorem owedRecord_heldRanges (s : State) : heldRanges (owedRecord s) = heldRanges s := by simp [owedRecord]

@[simp] theorem execShaftRefEdge_keeps (interval : Nat) (s : State) : Keeps s (execShaftRefEdge interval s) := by
  simp only [execShaftRefEdge]
  (repeat' split) <;> simp

@[simp] theorem execShaftRefTimeout_keeps (s : State) : Keeps s (execShaftRefTimeout s) := by simp [execShaftRefTimeout]

@[simp] theorem execShclkLoss_keeps (s : State) : Keeps s (execShclkLoss s) := by
  simp only [execShclkLoss]
  (repeat' split) <;> simp

@[simp] theorem execShclkReturn_keeps (s : State) : Keeps s (execShclkReturn s) := by simp [execShclkReturn]

/-! ### Jobs -/

@[simp] theorem unbindQueues_heldRanges (s : State) (j : Nat) : heldRanges (unbindQueues s j) = heldRanges s := by simp [unbindQueues]

@[simp] theorem dropReplies_heldRanges (s : State) (j : Nat) : heldRanges (dropReplies s j) = heldRanges s := by simp [dropReplies]

@[simp] theorem finishCommands_heldRanges (s : State) (j k : Nat) : heldRanges (finishCommands s j k) = heldRanges s := by
  simp [finishCommands]

@[simp] theorem dropPads_heldRanges (s : State) (n : Nat) : heldRanges (dropPads s n) = heldRanges s := by simp [dropPads]

@[simp] theorem execJobPreempt_keeps (k : Nat) (s : State) : Keeps s (execJobPreempt k s) :=
  keeps_withJob _ _ fun x j => by (repeat' split) <;> simp

@[simp] theorem execJobQuery_keeps (k : Nat) (s : State) : Keeps s (execJobQuery k s) :=
  keeps_withCmd _ _ fun x => by split <;> simp

@[simp] theorem execForcedSwitch_keeps (s : State) : Keeps s (execForcedSwitch s) := by
  fun_cases execForcedSwitch s <;> simp

@[simp] theorem execPreemptWaitTimeout_keeps (s : State) : Keeps s (execPreemptWaitTimeout s) := by
  fun_cases execPreemptWaitTimeout s <;> simp

@[simp] theorem stopForScan_heldRanges (s : State) (w : Switch) : heldRanges (stopForScan s w) = heldRanges s := by simp [stopForScan]

@[simp] theorem execSwitchDrainEnd_keeps (s : State) : Keeps s (execSwitchDrainEnd s) := by
  fun_cases execSwitchDrainEnd s <;> simp

@[simp] theorem execSwitchDrainTimeout_keeps (s : State) : Keeps s (execSwitchDrainTimeout s) := by
  fun_cases execSwitchDrainTimeout s <;> simp

@[simp] theorem execBoundarySwitch_keeps (s : State) : Keeps s (execBoundarySwitch s) := by
  fun_cases execBoundarySwitch s <;> simp

@[simp] theorem suspendLaunches_heldRanges (s : State) (j : Nat) : heldRanges (suspendLaunches s j) = heldRanges s := by
  simp [suspendLaunches]

@[simp] theorem areaFatal_heldRanges (s : State) (j : Job) : heldRanges (areaFatal s j) = heldRanges s := by simp [areaFatal]

@[simp] theorem handOver_heldRanges (s : State) (w : Switch) (j : Job) : heldRanges (handOver s w j) = heldRanges s := by simp [handOver]

@[simp] theorem tellDone_heldRanges (s : State) (j : Job) : heldRanges (tellDone s j) = heldRanges s := by simp [tellDone]

@[simp] theorem beginRestore_heldRanges (s : State) (j : Job) : heldRanges (beginRestore s j) = heldRanges s := by simp [beginRestore]

@[simp] theorem execJobRestore_keeps (s : State) : Keeps s (execJobRestore s) := by
  fun_cases execJobRestore s <;> simp

@[simp] theorem resumeLaunch_heldRanges (lc : Bool) (s : State) (l : Launch) : heldRanges (resumeLaunch lc s l) = heldRanges s := by
  simp [resumeLaunch]

@[simp] theorem waitAgain_heldRanges (s : State) (j : Nat) : heldRanges (waitAgain s j) = heldRanges s := by simp [waitAgain]

@[simp] theorem resumed_heldRanges (s : State) (j : Job) (v : Saved) : heldRanges (resumed s j v) = heldRanges s := by simp [resumed]

/-! ### Arrivals -/

@[simp] theorem memberReply_heldRanges (s : State) (h : RespHead) (b : List Byte) : heldRanges (memberReply s h b) = heldRanges s := by
  unfold memberReply
  split <;> simp

@[simp] theorem memberEvent_heldRanges (s : State) (h : RespHead) (b : List Byte) : heldRanges (memberEvent s h b) = heldRanges s := by
  simp [memberEvent]

@[simp] theorem forwardedPacket_heldRanges (s : State) (h : RespHead) (b : List Byte) :
    heldRanges (forwardedPacket s h b) = heldRanges s := by
  simp [forwardedPacket]

@[simp] theorem packetPiece_heldRanges (s : State) (h : RespHead) (b : List Byte) : heldRanges (packetPiece s h b) = heldRanges s := by
  simp [packetPiece]

@[simp] theorem giveMember_heldRanges (s : State) (j : Job) : heldRanges (giveMember s j) = heldRanges s := by simp [giveMember]

@[simp] theorem switchMember_heldRanges (s : State) (j : Job) (forced : Bool) : heldRanges (switchMember s j forced) = heldRanges s := by
  simp [switchMember]

@[simp] theorem configTaken_heldRanges (s : State) (v : Nat → Nat) : heldRanges (configTaken s v) = heldRanges s := by simp [configTaken]

@[simp] theorem controlTaken_heldRanges (s : State) (b : List Byte) : heldRanges (controlTaken s b) = heldRanges s := by
  fun_cases controlTaken s b <;> simp

/-! ### AssayOffice -/

@[simp] theorem closeAccounts_heldRanges (s : State) : heldRanges (closeAccounts s) = heldRanges s := by simp [closeAccounts]

@[simp] theorem execAssaySample_keeps (uj mv : Nat) (s : State) : Keeps s (execAssaySample uj mv s) := by simp [execAssaySample]

theorem keeps_withNotice {s : State} {f : State → Notice → Option State}
    (h : ∀ v n u, f v n = some u → heldRanges u = heldRanges v) :
    Keeps s (withNotice s f) := by
  unfold withNotice
  split
  · split
    · split
      · rename_i hf
        simpa using h _ _ _ hf
      · simp
    · simp
  · simp

@[simp] theorem execOwn_keeps (s : State) : Keeps s (execOwn s) :=
  keeps_withNotice fun s n => by split <;> simp

@[simp] theorem execSwitch_keeps (s : State) : Keeps s (execSwitch s) :=
  keeps_withNotice fun s n => by split <;> simp

@[simp] theorem execRestore_keeps (s : State) : Keeps s (execRestore s) :=
  keeps_withNotice fun s n => by split <;> simp

@[simp] theorem execFree_keeps (s : State) : Keeps s (execFree s) :=
  keeps_withNotice fun s n => by split <;> simp

@[simp] theorem execClose_keeps (s : State) : Keeps s (execClose s) :=
  keeps_withNotice fun s n => by split <;> simp

@[simp] theorem execInterval_keeps (s : State) : Keeps s (execInterval s) :=
  keeps_withNotice fun s n => by split <;> simp

@[simp] theorem execBrown_keeps (s : State) : Keeps s (execBrown s) :=
  keeps_withNotice fun s n => by split <;> simp

@[simp] theorem execRead_keeps (first count : Nat) (s : State) : Keeps s (execRead first count s) := by simp [execRead]

@[simp] theorem execBeat_keeps (s : State) : Keeps s (execBeat s) := by
  fun_cases execBeat s <;> simp

@[simp] theorem execAssayLinkLost_keeps (s : State) : Keeps s (execAssayLinkLost s) := by simp [execAssayLinkLost]

@[simp] theorem execAssayPowerLoss_keeps (s : State) : Keeps s (execAssayPowerLoss s) := by simp [execAssayPowerLoss]

@[simp] theorem execAssayDieStarted_keeps (s : State) : Keeps s (execAssayDieStarted s) := by simp [execAssayDieStarted]

@[simp] theorem execSealOpen_keeps (s : State) : Keeps s (execSealOpen s) := by simp [execSealOpen]

@[simp] theorem execSealSwitchClosed_keeps (s : State) : Keeps s (execSealSwitchClosed s) := by simp [execSealSwitchClosed]

@[simp] theorem calibrate_keeps (s : State) (ok : Bool) (f : Assay → Assay) (code datum : Nat) : Keeps s (calibrate s ok f code datum) := by
  simp [calibrate]

@[simp] theorem execCalibrationConstantWrite_keeps (n v : Nat) (authOk : Bool) (s : State) :
    Keeps s (execCalibrationConstantWrite n v authOk s) := by
  simp [execCalibrationConstantWrite]

@[simp] theorem execAfReplace_keeps (digest : BitVec 384) (authOk : Bool) (s : State) : Keeps s (execAfReplace digest authOk s) := by
  simp [execAfReplace]

@[simp] theorem execReseal_keeps (authOk : Bool) (s : State) : Keeps s (execReseal authOk s) := by simp [execReseal]

@[simp] theorem execMeterRead_keeps (k : Nat) (s : State) : Keeps s (execMeterRead k s) := by simp [execMeterRead]

@[simp] theorem execMeterRecords_keeps (k : Nat) (s : State) : Keeps s (execMeterRecords k s) := by simp [execMeterRecords]

/-! ### Power -/

@[simp] theorem heatNow_heldRanges (s : State) : heldRanges (heatNow s) = heldRanges s := by simp [heatNow]

@[simp] theorem restoreNow_heldRanges (s : State) : heldRanges (restoreNow s) = heldRanges s := by simp [restoreNow]

@[simp] theorem execRampWindow_keeps (s : State) : Keeps s (execRampWindow s) := by simp [execRampWindow]

@[simp] theorem afterCeiling_heldRanges (s : State) (f : Power → Power) : heldRanges (afterCeiling s f) = heldRanges s := by
  simp [afterCeiling]

@[simp] theorem execPowerCeiling_keeps (k : Nat) (s : State) : Keeps s (execPowerCeiling k s) := by simp [execPowerCeiling]

@[simp] theorem execCoolantInletTemperature_keeps (above30 : Bool) (s : State) : Keeps s (execCoolantInletTemperature above30 s) := by
  simp [execCoolantInletTemperature]

@[simp] theorem execPowerQuery_keeps (k watts : Nat) (s : State) : Keeps s (execPowerQuery k watts s) := by simp [execPowerQuery]

@[simp] theorem execCascadeDemand_keeps (d w : Nat) (s : State) : Keeps s (execCascadeDemand d w s) := by simp [execCascadeDemand]

@[simp] theorem execCascadeShare_keeps (w : Nat) (s : State) : Keeps s (execCascadeShare w s) := by
  simp only [execCascadeShare]
  (repeat' split) <;> simp

@[simp] theorem execShareTimeout_keeps (s : State) : Keeps s (execShareTimeout s) := by simp [execShareTimeout]

@[simp] theorem execThrottle_keeps (s : State) : Keeps s (execThrottle s) := by simp [execThrottle]

@[simp] theorem execResume_keeps (s : State) : Keeps s (execResume s) := by simp [execResume]

@[simp] theorem moduleDown_heldRanges (s : State) (m : Module) : heldRanges (moduleDown s m) = heldRanges s := by simp [moduleDown]

@[simp] theorem powerFail_heldRanges (s : State) : heldRanges (powerFail s) = heldRanges s := by simp [powerFail]

@[simp] theorem enterHold_heldRanges (s : State) (v : Nat) : heldRanges (enterHold s v) = heldRanges s := by simp [enterHold]

@[simp] theorem convertersAt_heldRanges (v : Nat) (s : State) : heldRanges (convertersAt v s) = heldRanges s := by simp [convertersAt]

@[simp] theorem execSupplySample_keeps (v : Nat) (s : State) : Keeps s (execSupplySample v s) := by
  simp only [execSupplySample]
  (repeat' split) <;> simp

@[simp] theorem execBrownoutEnd_keeps (s : State) : Keeps s (execBrownoutEnd s) := by simp [execBrownoutEnd]

@[simp] theorem execThermalSample_keeps (die temp : Nat) (s : State) : Keeps s (execThermalSample die temp s) := by simp [execThermalSample]

@[simp] theorem execThermalRestoreStep_keeps (s : State) : Keeps s (execThermalRestoreStep s) := by simp [execThermalRestoreStep]

@[simp] theorem execSelftest_keeps (k : Nat) (failed : List Nat) (s : State) : Keeps s (execSelftest k failed s) := by simp [execSelftest]

/-! ### Resets -/

@[simp] theorem resetSet_heldRanges (s : State) (on : Nat → Bool) : heldRanges (resetSet s on) = heldRanges s := by simp [resetSet]

@[simp] theorem failForReset_heldRanges (s : State) (r : Reset) (cause port : Nat) :
    heldRanges (failForReset s r cause port) = heldRanges s := by
  unfold failForReset
  split <;> simp

@[simp] theorem startReset_heldRanges (s : State) (r : Reset) (cause port : Nat) :
    heldRanges (startReset s r cause port) = heldRanges s := by
  simp [startReset]

@[simp] theorem execReset_keeps (k : Nat) (s : State) : Keeps s (execReset k s) := by simp [execReset]

@[simp] theorem execResetCascade_keeps (s : State) : Keeps s (execResetCascade s) := by simp [execResetCascade]

@[simp] theorem execLcReloadWatchdog_keeps (n : Nat) (s : State) : Keeps s (execLcReloadWatchdog n s) := by simp [execLcReloadWatchdog]

@[simp] theorem emptyBins_heldRanges (s : State) (ns : List Nat) : heldRanges (emptyBins s ns) = heldRanges s := by simp [emptyBins]

@[simp] theorem applyReset_heldRanges (s : State) (r : Reset) : heldRanges (applyReset s r) = heldRanges s := by
  simp only [applyReset]
  (repeat' split) <;> simp

@[simp] theorem resetReplies_heldRanges (s : State) (ks : List Nat) : heldRanges (resetReplies s ks) = heldRanges s := by
  unfold resetReplies
  refine heldRanges_foldl (fun v k => ?_) ks s
  split <;> simp

@[simp] theorem execResetRelease_keeps (i : Nat) (s : State) : Keeps s (execResetRelease i s) := by
  simp only [execResetRelease]
  (repeat' split) <;> simp

@[simp] theorem execEnterA1_keeps (u : PowerUnit) (s : State) : Keeps s (execEnterA1 u s) := by
  fun_cases execEnterA1 u s <;> simp

@[simp] theorem execEnterS1_keeps (t : Nat) (s : State) : Keeps s (execEnterS1 t s) := by simp [execEnterS1]

@[simp] theorem execEnterS2_keeps (n : Nat) (s : State) : Keeps s (execEnterS2 n s) := by simp [execEnterS2]

@[simp] theorem execEnterS3_keeps (s : State) : Keeps s (execEnterS3 s) := by simp [execEnterS3]

@[simp] theorem wakeLevels_heldRanges (s : State) (ns : List Nat) (pads : Bool) : heldRanges (wakeLevels s ns pads) = heldRanges s := by
  simp [wakeLevels]

@[simp] theorem execWakeComplete_keeps (u : PowerUnit) (s : State) : Keeps s (execWakeComplete u s) := by
  fun_cases execWakeComplete u s <;> simp

@[simp] theorem applyUpdate_heldRanges (s : State) (u : Update) : heldRanges (applyUpdate s u) = heldRanges s := by simp [applyUpdate]

@[simp] theorem rebuildRing_heldRanges (s : State) : heldRanges (rebuildRing s) = heldRanges s := by simp [rebuildRing]

@[simp] theorem retireFailed_heldRanges (s : State) (b : Boot) : heldRanges (retireFailed s b) = heldRanges s := by simp [retireFailed]

theorem initialRecord_heldRanges {img : Image} {s u : State} {r : Rec} (h : initialRecord img (some s) r = some u) :
    heldRanges u = heldRanges s := by
  unfold initialRecord at h
  rw [Option.bind_some] at h
  split at h
  · cases h
  · split at h
    · rw [← Option.some.inj h, applyFrame_heldRanges]
    · split at h
      · rw [← Option.some.inj h, recordWrite_heldRanges]
      · rw [← Option.some.inj h, heldRanges_foldl fun a t => by simp]
      · split at h
        · rw [Option.some.inj h]
        · cases h

@[simp] theorem bootFailed_heldRanges (s : State) (c : Nat) : heldRanges (bootFailed s c) = heldRanges s := by simp [bootFailed]

@[simp] theorem execMrst_keeps (ns : Nat) (s : State) : Keeps s (execMrst ns s) := by
  fun_cases execMrst ns s <;> simp

@[simp] theorem execPowerOff_keeps (c : OffCause) (s : State) : Keeps s (execPowerOff c s) := by
  simp only [execPowerOff]
  (repeat' split) <;> simp

@[simp] theorem execPowerOn_keeps (s : State) : Keeps s (execPowerOn s) := by simp [execPowerOn]

@[simp] theorem moveClient_heldRanges (s : State) (p o c : Nat) : heldRanges (moveClient s p o c) = heldRanges s := by simp [moveClient]

@[simp] theorem adoptJob_heldRanges (s : State) (j : Job) (o : Nat) : heldRanges (adoptJob s j o) = heldRanges s := by
  have hmap := rangesOf_map_regions (f := fun r => if r.job = j.id then { r with port := o } else r) (fun r => by split <;> rfl)
  simp [adoptJob, hmap]

@[simp] theorem peerSignal_heldRanges (s : State) (p : Nat) (was : Bool) : heldRanges (peerSignal s p was) = heldRanges s := by
  simp [peerSignal]

@[simp] theorem execLinkDown_keeps (p : Nat) (s : State) : Keeps s (execLinkDown p s) := by simp [execLinkDown]

@[simp] theorem execLinkUp_keeps (p : Nat) (s : State) : Keeps s (execLinkUp p s) := by simp [execLinkUp]

@[simp] theorem execPerstRelease_keeps (p : Nat) (refclk : Bool) (s : State) : Keeps s (execPerstRelease p refclk s) := by
  simp [execPerstRelease]

@[simp] theorem execFlrPf1_keeps (p : Nat) (s : State) : Keeps s (execFlrPf1 p s) := by simp [execFlrPf1]

/-! ### Commands -/

@[simp] theorem execNop_keeps (k : Nat) (s : State) : Keeps s (execNop k s) := by simp [execNop]

@[simp] theorem execIdentify_keeps (k : Nat) (s : State) : Keeps s (execIdentify k s) := by simp [execIdentify]

@[simp] theorem execGetStatus_keeps (k : Nat) (s : State) : Keeps s (execGetStatus k s) := by simp [execGetStatus]

@[simp] theorem execSetFeature_keeps (k : Nat) (s : State) : Keeps s (execSetFeature k s) :=
  keeps_withCmd _ _ fun x => by dsimp only; (repeat' split) <;> simp

@[simp] theorem execGetFeature_keeps (k : Nat) (s : State) : Keeps s (execGetFeature k s) :=
  keeps_withCmd _ _ fun x => by split <;> simp

@[simp] theorem execTallyMap_keeps (k : Nat) (s : State) : Keeps s (execTallyMap k s) :=
  keeps_withJob _ _ fun x j => by (repeat' split) <;> simp

@[simp] theorem hostTally_heldRanges (s : State) (k op vid n : Nat) (x : Packet) :
    heldRanges (hostTally s k op vid n x) = heldRanges s := by
  simp [hostTally]

@[simp] theorem execTallySignal_keeps (k : Nat) (s : State) : Keeps s (execTallySignal k s) :=
  keeps_withJob _ _ fun x j => by split <;> simp

@[simp] theorem execTallyWait_keeps (k : Nat) (s : State) : Keeps s (execTallyWait k s) :=
  keeps_withJob _ _ fun x j => by split <;> simp

@[simp] theorem execBarrierDefine_keeps (k : Nat) (s : State) : Keeps s (execBarrierDefine k s) := by simp [execBarrierDefine]

@[simp] theorem streamInject_heldRanges (s : State) (dest epoch : Nat) (payload : List Byte) :
    heldRanges (streamInject s dest epoch payload) = heldRanges s := by
  simp [streamInject]

@[simp] theorem streamSend_heldRanges (dest epoch msg p k left n : Nat) (s : State) :
    heldRanges (streamSend dest epoch msg p k left n s).1 = heldRanges s := by
  induction k generalizing left n s with
  | zero => rfl
  | succ k ih =>
    simp only [streamSend]
    split <;> simp [ih]

@[simp] theorem execStreamSubmit_keeps (k : Nat) (s : State) : Keeps s (execStreamSubmit k s) := by simp [execStreamSubmit]

@[simp] theorem execHostfifoConfig_keeps (k : Nat) (s : State) : Keeps s (execHostfifoConfig k s) := by simp [execHostfifoConfig]

@[simp] theorem execTelemetry_keeps (k : Nat) (s : State) : Keeps s (execTelemetry k s) := by simp [execTelemetry]

@[simp] theorem execErrlogRead_keeps (k : Nat) (s : State) : Keeps s (execErrlogRead k s) := by simp [execErrlogRead]

@[simp] theorem execRetrain_keeps (k : Nat) (s : State) : Keeps s (execRetrain k s) := by simp [execRetrain]

/-! ### Security -/

@[simp] theorem drawn_heldRanges (s : State) (n : Nat) : heldRanges (drawn s n) = heldRanges s := by simp [drawn]

@[simp] theorem execUpdateComponent_keeps (k : Nat) (pkg : List Byte) (psigOk osigOk : Bool) (s : State) :
    Keeps s (execUpdateComponent k pkg psigOk osigOk s) := by
  simp [execUpdateComponent]

@[simp] theorem execComponentSwap_keeps (s : State) : Keeps s (execComponentSwap s) := by
  fun_cases execComponentSwap s <;> simp

@[simp] theorem execFlashRewriteDone_keeps (s : State) : Keeps s (execFlashRewriteDone s) := by
  simp only [execFlashRewriteDone]
  (repeat' split) <;> simp

@[simp] theorem execAttest_keeps (k : Nat) (s : State) : Keeps s (execAttest k s) := by simp [execAttest]

@[simp] theorem mgmtAnswer_heldRanges (s : State) (code : Nat) (bs : List Byte) : heldRanges (mgmtAnswer s code bs) = heldRanges s := by
  simp [mgmtAnswer]

@[simp] theorem execGetChallenge_keeps (s : State) : Keeps s (execGetChallenge s) := by simp [execGetChallenge]

theorem signedMessage_keeps (s : State) (m : SignedMsg) (permitted : Bool) {f : State → State}
    (h : ∀ v, heldRanges (f v) = heldRanges v) :
    Keeps s (signedMessage s m permitted f) := by
  unfold signedMessage
  (repeat' split) <;> simp [h]

@[simp] theorem writeFloor_heldRanges (s : State) (f : FloorRec) : heldRanges (writeFloor s f) = heldRanges s := by simp [writeFloor]

@[simp] theorem execTakeOwnership_keeps (m : SignedMsg) (owner : List Byte) (s : State) : Keeps s (execTakeOwnership m owner s) :=
  signedMessage_keeps _ _ _ fun v => by simp

@[simp] theorem ownerChange_keeps (s : State) (m : SignedMsg) (permitted : Bool) (f : FloorRec → FloorRec) :
    Keeps s (ownerChange s m permitted f) := by
  unfold ownerChange
  exact signedMessage_keeps _ _ _ fun v => by split <;> simp

@[simp] theorem execSetPolicy_keeps (m : SignedMsg) (cosign : Bool) (keys : List (Nat × List Byte)) (s : State) :
    Keeps s (execSetPolicy m cosign keys s) := by
  simp [execSetPolicy]

@[simp] theorem execSetFloor_keeps (m : SignedMsg) (floors : List Nat) (s : State) : Keeps s (execSetFloor m floors s) := by
  simp [execSetFloor]

@[simp] theorem execReleaseOwnership_keeps (m : SignedMsg) (s : State) : Keeps s (execReleaseOwnership m s) := by
  simp [execReleaseOwnership]

@[simp] theorem writeImage_heldRanges (s : State) (img : List Byte) (psigOk osigOk ok : Bool) :
    heldRanges (writeImage s img psigOk osigOk ok) = heldRanges s := by
  simp [writeImage]

@[simp] theorem execDeliverImage_keeps (img : List Byte) (psigOk osigOk : Bool) (s : State) :
    Keeps s (execDeliverImage img psigOk osigOk s) := by
  fun_cases execDeliverImage img psigOk osigOk s <;> simp

@[simp] theorem spdmAnswer_heldRanges (s : State) (tr code : Nat) (bs : List Byte) :
    heldRanges (spdmAnswer s tr code bs) = heldRanges s := by
  simp [spdmAnswer]

@[simp] theorem keeps_withSpdm {s : State} (tr : Nat) (ready : Bool) {o : Outcome} (h : Keeps s o) : Keeps s (withSpdm s tr ready o) := by
  simp [withSpdm, h]

@[simp] theorem execGetVersion_keeps (tr : Nat) (s : State) : Keeps s (execGetVersion tr s) := by simp [execGetVersion]

@[simp] theorem execGetCapabilities_keeps (tr : Nat) (s : State) : Keeps s (execGetCapabilities tr s) := by simp [execGetCapabilities]

@[simp] theorem execNegotiateAlgorithms_keeps (tr : Nat) (offered : List Nat) (s : State) :
    Keeps s (execNegotiateAlgorithms tr offered s) := by
  simp [execNegotiateAlgorithms]

@[simp] theorem execGetDigests_keeps (tr : Nat) (s : State) : Keeps s (execGetDigests tr s) := by simp [execGetDigests]

@[simp] theorem execGetCertificate_keeps (tr slot : Nat) (s : State) : Keeps s (execGetCertificate tr slot s) := by
  simp [execGetCertificate]

@[simp] theorem execChallenge_keeps (tr slot : Nat) (nonce : List Byte) (s : State) : Keeps s (execChallenge tr slot nonce s) := by
  simp [execChallenge]

@[simp] theorem execGetMeasurements_keeps (tr index : Nat) (s : State) : Keeps s (execGetMeasurements tr index s) := by
  simp [execGetMeasurements]

@[simp] theorem execKeyExchange_keeps (tr : Nat) (s : State) : Keeps s (execKeyExchange tr s) := by
  simp only [execKeyExchange]
  (repeat' split) <;> simp

@[simp] theorem modSession_heldRanges (s : State) (tr i : Nat) (f : Session → Session) :
    heldRanges (modSession s tr i f) = heldRanges s := by
  simp [modSession]

@[simp] theorem endSession_heldRanges (s : State) (tr i : Nat) : heldRanges (endSession s tr i) = heldRanges s := by simp [endSession]

@[simp] theorem keeps_withSession {s : State} (tr i : Nat) (finished : Bool) {o : Outcome} (h : Keeps s o) :
    Keeps s (withSession s tr i finished o) :=
  keeps_withSpdm _ _ h

@[simp] theorem execFinish_keeps (tr sess : Nat) (macOk : Bool) (s : State) : Keeps s (execFinish tr sess macOk s) := by simp [execFinish]

@[simp] theorem execHeartbeat_keeps (tr sess : Nat) (s : State) : Keeps s (execHeartbeat tr sess s) := by simp [execHeartbeat]

@[simp] theorem execKeyUpdate_keeps (tr sess : Nat) (s : State) : Keeps s (execKeyUpdate tr sess s) := by simp [execKeyUpdate]

@[simp] theorem execEndSession_keeps (tr sess : Nat) (s : State) : Keeps s (execEndSession tr sess s) := by simp [execEndSession]

@[simp] theorem execUnsupportedRequest_keeps (tr code : Nat) (s : State) : Keeps s (execUnsupportedRequest tr code s) := by
  simp [execUnsupportedRequest]

@[simp] theorem execIdeKm_keeps (p sess stream : Nat) (key : List Byte) (s : State) : Keeps s (execIdeKm p sess stream key s) := by
  simp [execIdeKm]

@[simp] theorem execRngReseed_keeps (s : State) : Keeps s (execRngReseed s) := by simp [execRngReseed]

@[simp] theorem execRngHealthFailure_keeps (s : State) : Keeps s (execRngHealthFailure s) := by simp [execRngHealthFailure]

/-! ### Tick -/

@[simp] theorem ageNet_heldRanges (s : State) : heldRanges (ageNet s) = heldRanges s := by simp [ageNet]

@[simp] theorem countHub_heldRanges (s : State) : heldRanges (countHub s) = heldRanges s := by simp [countHub]

@[simp] theorem countReplay_heldRanges (s : State) : heldRanges (countReplay s) = heldRanges s := by
  fun_cases countReplay s <;> simp

/-! ## Operations that add or remove ranges -/

/-- The reserved areas of the four Levels (09 R218). -/
def reservedRanges : List (Nat × Nat) := (List.range 4).map fun n => (0x10000000000 + n * 0x4000000000 + 0x3FFC000000, 0x4000000)

theorem takenRanges_eq (s : State) : takenRanges s = heldRanges s ++ reservedRanges := rfl

/-- No two of the ranges overlap, nor does one of them overlap a reserved area. -/
def Apart (l : List (Nat × Nat)) : Prop := (l ++ reservedRanges).Pairwise fun a b => meetsRange a b = false

theorem Apart.sublist {l m : List (Nat × Nat)} (h : Apart l) (hm : m.Sublist l) : Apart m :=
  List.Pairwise.sublist (hm.append_right _) h

theorem apart_nil : Apart [] := by
  unfold Apart
  decide

theorem rangesOf_sublist {rs rs' : List Region} {js js' : List Job} (hr : rs'.Sublist rs) (hj : js'.Sublist js) :
    (rangesOf rs' js').Sublist (rangesOf rs js) :=
  (hr.map _).append (hj.flatMap _)

theorem Apart.filter_regions {rs : List Region} {js : List Job} (h : Apart (rangesOf rs js)) (p : Region → Bool) :
    Apart (rangesOf (rs.filter p) js) :=
  h.sublist (rangesOf_sublist List.filter_sublist (List.Sublist.refl _))

theorem Apart.filter_jobs {rs : List Region} {js : List Job} (h : Apart (rangesOf rs js)) (p : Job → Bool) :
    Apart (rangesOf rs (js.filter p)) :=
  h.sublist (rangesOf_sublist (List.Sublist.refl _) List.filter_sublist)

/-- A fold keeps what each of its steps keeps. -/
theorem foldl_apart {α : Type} {f : State → α → State} (hf : ∀ v x, Apart (heldRanges v) → Apart (heldRanges (f v x)))
    (l : List α) {s : State} (h : Apart (heldRanges s)) : Apart (heldRanges (l.foldl f s)) := by
  induction l generalizing s with
  | nil => exact h
  | cons x l ih => exact ih (hf s x h)

theorem destroyRegion_apart {s : State} (r : Region) (h : Apart (heldRanges s)) : Apart (heldRanges (destroyRegion s r)) := by
  unfold destroyRegion
  extract_lets e v s1 s2
  have h1 : heldRanges s1 = heldRanges s := by simp [s1, v]
  clear_value s1
  have h2 : Apart (heldRanges s2) := by
    have hgone := Apart.filter_regions (h1 ▸ h) fun y => decide (y ≠ r)
    simpa [s2] using hgone
  clear_value s2
  (repeat' split) <;> simpa using h2

theorem closeJob_apart {s : State} (j : Job) (k : Nat) (h : Apart (heldRanges s)) : Apart (heldRanges (closeJob s j k).1) := by
  unfold closeJob
  extract_lets computes failed s0 ts sa still s1 bad s2 s3 s4 s5 s6 s7 s8
  have h4 : heldRanges s4 = heldRanges s := by
    have h1 : heldRanges s1 = heldRanges s := by simp [s1, sa, s0]
    clear_value s1
    have h2 : heldRanges s2 = heldRanges s := by simp [s2, h1]
    clear_value s2
    simp [s4, s3, h2]
  clear_value s4
  have h5 : Apart (heldRanges s5) := by
    have hfold : Apart (heldRanges ((s4.regions.filter (·.job = j.id)).foldl destroyRegion s4)) :=
      foldl_apart (fun v r => destroyRegion_apart r) _ (h4 ▸ h)
    simpa [s5] using hfold
  clear_value s5
  have h6 : heldRanges s6 = heldRanges s5 := by simp [s6]
  clear_value s6
  have h7 : Apart (heldRanges s7) := by
    have hgone := Apart.filter_jobs (h6 ▸ h5) fun y => decide (y.id ≠ j.id)
    simpa [s7] using hgone
  clear_value s7
  simpa [s8] using h7

theorem closeDoomed_apart {s : State} (h : Apart (heldRanges s)) : Apart (heldRanges (closeDoomed s)) := by
  refine foldl_apart (fun v j hv => ?_) _ h
  repeat' split
  · exact hv
  · exact closeJob_apart _ _ hv
  · exact hv

theorem abortJob_apart {s : State} (j : Job) (h : Apart (heldRanges s)) : Apart (heldRanges (abortJob s j)) := by
  have hd : Apart (heldRanges (dropReplies s j.id)) := by simpa using h
  unfold abortJob
  dsimp only
  split
  · simpa using hd
  · exact closeJob_apart _ _ hd

theorem failover_apart {s : State} (p : Nat) (up : Bool) (h : Apart (heldRanges s)) : Apart (heldRanges (failover s p up)) := by
  have hjobs : Apart (heldRanges ((s.jobs.filter (·.port = p)).foldl
      (fun a j => if j.adopt && up then adoptJob a j (1 - p) else abortJob a j) s)) := by
    refine foldl_apart (fun v j hv => ?_) _ h
    split
    · simpa using hv
    · exact abortJob_apart j hv
  simpa [failover] using hjobs

theorem actFailover_apart {s : State} (p : Nat) (h : Apart (heldRanges s)) : Apart (heldRanges (actFailover s p)) := by
  unfold actFailover
  split
  · exact h
  next up fault _ =>
    have hover : Apart (heldRanges (failover s p up)) := failover_apart p up h
    extract_lets writing
    clear_value writing
    (repeat' split) <;> simp [h, hover]

theorem expire_apart {s : State} (p : Nat) (fault : Bool) (h : Apart (heldRanges s)) : Apart (heldRanges (expire s p fault)) :=
  actFailover_apart p (by simpa using h)

theorem portGoes_apart {s : State} (p : Nat) (h : Apart (heldRanges s)) : Apart (heldRanges (portGoes s p)) := expire_apart p false h

theorem portWiped_apart {s : State} (p : Nat) (link perst : Bool) (h : Apart (heldRanges s)) :
    Apart (heldRanges (portWiped s p link perst)) := by
  simpa [portWiped] using portGoes_apart p h

theorem tick_apart {s : State} (h : Apart (heldRanges s)) : Apart (heldRanges (tick s)) := by
  have hacted : Apart (heldRanges (countReplay (actFailover (actFailover (runDeferred s) 0) 1))) := by
    have hdue : Apart (heldRanges (runDeferred s)) := by simpa using h
    simpa using actFailover_apart 1 (actFailover_apart 0 hdue)
  unfold tick
  split
  · exact h
  · generalize countReplay (actFailover (actFailover (runDeferred s) 0) 1) = v at hacted
    simpa using hacted

theorem unlockDevice_apart {s : State} (h : Apart (heldRanges s)) : Apart (heldRanges (unlockDevice s)) := by
  unfold unlockDevice
  extract_lets js s1 s2 s3 errs s4 ring s5
  have h2 : heldRanges s2 = heldRanges s := by simp [s2, s1]
  clear_value s2
  have h3 : Apart (heldRanges s3) := foldl_apart (fun v r => destroyRegion_apart r) _ (h2 ▸ h)
  clear_value s3
  simpa [s5, ring, s4] using h3

/-! Starting up leaves no region and no job. -/

theorem coldState_heldRanges (s : State) : heldRanges (coldState s) = [] := rfl

theorem initialRecord_foldl_none (img : Image) (rs : List Rec) : rs.foldl (initialRecord img) none = none := by
  induction rs with
  | nil => rfl
  | cons r rs ih => exact ih

theorem initialRecord_foldl_heldRanges {img : Image} {rs : List Rec} {s u : State} (h : rs.foldl (initialRecord img) (some s) = some u) :
    heldRanges u = heldRanges s := by
  induction rs generalizing s with
  | nil => cases h; rfl
  | cons r rs ih =>
    rw [List.foldl_cons] at h
    cases hr : initialRecord img (some s) r with
    | none =>
      rw [hr, initialRecord_foldl_none] at h
      cases h
    | some v =>
      rw [hr] at h
      rw [ih h, initialRecord_heldRanges hr]

theorem loadInitial_heldRanges {s u : State} (h : loadInitial s = some u) : heldRanges u = heldRanges s := by
  unfold loadInitial at h
  dsimp only at h
  split at h
  · rw [Option.some.inj h]
  · split at h
    · cases h
    · obtain ⟨v, hv, rfl⟩ := Option.map_eq_some_iff.mp h
      simp [initialRecord_foldl_heldRanges hv]

theorem startUp_heldRanges (s : State) (b : Boot) : heldRanges (startUp s b) = [] := by
  unfold startUp
  extract_lets s0 s1 s2 s3 s4 s5
  have h5 : heldRanges s5 = [] := by
    have h1 : heldRanges s1 = [] := coldState_heldRanges s0
    clear_value s1
    have h2 : heldRanges s2 = [] := by simpa [s2] using h1
    simp [s5, s4, s3, h2]
  clear_value s5
  split
  · simp [s1, coldState_heldRanges]
  · split
    · simp [coldState_heldRanges]
    next s6 hload => simpa [h5] using loadInitial_heldRanges hload


/-! A range that is found free overlaps none of those that are taken. -/

theorem meetsRange_comm (a b : Nat × Nat) : meetsRange a b = meetsRange b a := Bool.and_comm _ _

theorem rangeFree_iff (s : State) (r : Nat × Nat) :
    rangeFree s r = true ↔ ∀ t ∈ heldRanges s ++ reservedRanges, meetsRange r t = false := by
  simp only [rangeFree, takenRanges_eq, List.all_eq_true, Bool.not_eq_true']

/-- Ranges that overlap neither one another nor any that is taken can be taken, wherever the list puts them. -/
theorem Apart.insert {l m : List (Nat × Nat)} {rs : List (Nat × Nat)} (h : Apart l) (hrs : rs.Pairwise fun a b => meetsRange a b = false)
    (hfree : ∀ r ∈ rs, ∀ t ∈ l ++ reservedRanges, meetsRange r t = false) (hm : m.Perm (rs ++ l)) : Apart m := by
  have hperm : (m ++ reservedRanges).Perm (rs ++ (l ++ reservedRanges)) := by
    rw [← List.append_assoc]
    exact hm.append_right _
  unfold Apart
  rw [hperm.pairwise_iff (fun {a b} hab => by rw [meetsRange_comm]; exact hab)]
  exact List.pairwise_append.mpr ⟨hrs, h, hfree⟩

theorem least_mem {l : List Nat} {a : Nat} (h : least l = some a) : a ∈ l := by
  cases l with
  | nil => cases h
  | cons x l => exact List.min?_mem (xs := x :: l) h

theorem greatest_mem {l : List Nat} {a : Nat} (h : greatest l = some a) : a ∈ l := by
  cases l with
  | nil => cases h
  | cons x l => exact List.max?_mem (xs := x :: l) h

theorem fitsAt_of_lowestFree {s : State} {tier n len a : Nat} (h : lowestFree s tier n len = some a) : fitsAt s tier n len a = true :=
  (List.mem_filter.mp (least_mem h)).2

theorem fitsAt_of_highestFree {s : State} {tier n len a : Nat} (h : highestFree s tier n len = some a) : fitsAt s tier n len a = true :=
  (List.mem_filter.mp (greatest_mem h)).2

theorem inTier_of_fitsAt {s : State} {tier n len a : Nat} (h : fitsAt s tier n len a = true) : inTier tier n (a, len) = true :=
  (Bool.and_eq_true_iff.mp h).1

theorem rangeFree_of_fitsAt {s : State} {tier n len a : Nat} (h : fitsAt s tier n len a = true) : rangeFree s (a, len) = true :=
  (Bool.and_eq_true_iff.mp h).2

/-- A region is created only where the range is free (09 R227). -/
theorem rangeFree_of_createBase {s : State} {x : Packet} {a : Nat} (h : createBase s x = .ok a) :
    rangeFree s (a, pfld x 0x18 4 * granule) = true := by
  unfold createBase at h
  dsimp only at h
  split at h
  · split at h
    next hfree => cases h; exact hfree
    · cases h
  · split at h
    next hlow => cases h; exact rangeFree_of_fitsAt (fitsAt_of_lowestFree hlow)
    · cases h

/-- The parts that the Levels have of a tier lie behind one another (09 R217). -/
theorem tier_end_le (tier : Nat) {m n : Nat} (h : m < n) : tierBase tier m + tierLen tier ≤ tierBase tier n := by
  have hlen : Config.hbmPerLevel ≤ 0x3000000000 := by decide
  unfold tierBase tierLen
  split <;> omega

theorem meetsRange_of_levels {tier m n : Nat} {a b : Nat × Nat} (ha : inTier tier m a = true) (hb : inTier tier n b = true) (h : m < n) :
    meetsRange a b = false := by
  have hend := tier_end_le tier h
  simp only [inTier, Bool.and_eq_true, decide_eq_true_eq] at ha hb
  simp only [meetsRange, Bool.and_eq_false_iff, decide_eq_false_iff_not]
  omega

/-- The ranges of a save area, one in each Level, are free and overlap none of one another (14 R341). -/
theorem saveArea_free {s : State} {tier : Nat} {as : List Nat} (h : saveArea s tier = some as) :
    (as.map fun a => (a, areaGran * granule)).Pairwise (fun a b => meetsRange a b = false) ∧
    ∀ r ∈ as.map fun a => (a, areaGran * granule), rangeFree s r = true := by
  have has : (List.range 4).filterMap (fun n => highestFree s tier n (areaGran * granule)) = as := by
    unfold saveArea at h
    dsimp only at h
    split at h
    · exact Option.some.inj h
    · cases h
  subst has
  constructor
  · rw [List.pairwise_map, List.pairwise_filterMap]
    refine List.Pairwise.imp ?_ List.pairwise_lt_range
    intro m n hmn a ha b hb
    exact meetsRange_of_levels (inTier_of_fitsAt (fitsAt_of_highestFree ha)) (inTier_of_fitsAt (fitsAt_of_highestFree hb)) hmn
  · intro r hr
    obtain ⟨a, ha, rfl⟩ := List.mem_map.mp hr
    obtain ⟨n, _, hn⟩ := List.mem_filterMap.mp ha
    exact rangeFree_of_fitsAt (fitsAt_of_highestFree hn)


/-! The commands that can change the ranges. -/

/-- Every state that the row answers has its ranges apart. -/
abbrev LeavesApart (o : Outcome) : Prop := EveryNext (fun u => Apart (heldRanges u)) o

theorem Keeps.leavesApart {s : State} {o : Outcome} (h : Keeps s o) (hs : Apart (heldRanges s)) : LeavesApart o :=
  fun u hu => (congrArg Apart (h u hu)).mpr hs

section Rows

variable {s : State} (hs : Apart (heldRanges s))
include hs

theorem leavesApart_withJob (k op : Nat) {f : Packet → Job → Outcome} (h : ∀ x j, LeavesApart (f x j)) :
    LeavesApart (withJob s k op f) :=
  everyNext_withJob k op hs (by simpa using hs) h

theorem execFailoverTimeout_leavesApart (p : Nat) : LeavesApart (execFailoverTimeout p s) := by
  refine everyNext_withPort p ?_
  dsimp only
  split
  · simpa using hs
  · exact (everyNext_next _ _).mpr (expire_apart p true (by simpa using hs))

theorem execPerstAssert_leavesApart (p : Nat) : LeavesApart (execPerstAssert p s) := by
  refine everyNext_withPort p ?_
  have hwiped := portWiped_apart p false true hs
  (repeat' split) <;> simp_all

theorem execHotReset_leavesApart (p : Nat) : LeavesApart (execHotReset p s) := by
  refine everyNext_withPort p ?_
  have hwiped := portWiped_apart p false false hs
  (repeat' split) <;> simp_all

theorem execFlrPf0_leavesApart (p : Nat) : LeavesApart (execFlrPf0 p s) := by
  refine everyNext_withPort p ?_
  have hgone := portGoes_apart p hs
  (repeat' split) <;> simp_all

theorem execSwitchScanEnd_leavesApart : LeavesApart (execSwitchScanEnd s) := by
  unfold execSwitchScanEnd
  have hclosed (w : Switch) (j : Job) : Apart (heldRanges (closeDoomed (passDevice (tellDone (handOver s w j) j)))) :=
    closeDoomed_apart (by simpa using hs)
  (repeat' split) <;> simp_all

theorem execRestoreEnd_leavesApart : LeavesApart (execRestoreEnd s) := by
  unfold execRestoreEnd
  have hclosed (j : Job) (v : Saved) : Apart (heldRanges (closeDoomed (resumed s j v))) := closeDoomed_apart (by simpa using hs)
  dsimp only
  (repeat' split) <;> simp_all

theorem execPor_leavesApart (b : Boot) : LeavesApart (execPor b s) := by
  unfold execPor
  split
  · simpa using hs
  · exact (everyNext_next _ _).mpr (startUp_heldRanges s b ▸ apart_nil)

theorem execMrstRelease_leavesApart (b : Boot) : LeavesApart (execMrstRelease b s) := by
  unfold execMrstRelease
  split
  · exact (everyNext_next _ _).mpr (startUp_heldRanges s b ▸ apart_nil)
  · simpa using hs

theorem execDebugUnlock_leavesApart (k : Nat) (token : List Byte) (sigOk : Bool) : LeavesApart (execDebugUnlock k token sigOk s) := by
  refine everyNext_withCmd k _ hs fun x => ?_
  have hunlocked : Apart (heldRanges (unlockDevice (modSec (early s x) fun e => { e with debugNonce := none }))) :=
    unlockDevice_apart (by simpa using hs)
  dsimp only
  (repeat' split) <;> simp_all

theorem execRegionDestroy_leavesApart (k : Nat) : LeavesApart (execRegionDestroy k s) := by
  refine leavesApart_withJob hs k _ fun x j => ?_
  have hgone (r : Region) : Apart (heldRanges (destroyRegion (early s x) r)) := destroyRegion_apart r (by simpa using hs)
  (repeat' split) <;> simp_all

theorem execJobClose_leavesApart (k : Nat) : LeavesApart (execJobClose k s) := by
  refine leavesApart_withJob hs k _ fun x j => ?_
  have hclosed : Apart (heldRanges (closeJob (modPacket (early s x) k fun y => { y with sent := true }) j k).1) :=
    closeJob_apart j k (by simpa using hs)
  dsimp only
  (repeat' split) <;> simp_all


/-- What `rangeFree` finds free in s may be taken beside what s holds. -/
theorem insert_free {m : List (Nat × Nat)} {rs : List (Nat × Nat)} (hrs : rs.Pairwise fun a b => meetsRange a b = false)
    (hfree : ∀ r ∈ rs, rangeFree s r = true) (hm : m.Perm (rs ++ heldRanges s)) : Apart m :=
  hs.insert hrs (fun r hr => (rangeFree_iff s r).mp (hfree r hr)) hm

theorem append_region {v : State} (hv : heldRanges v = heldRanges s) (r : Region) (hfree : rangeFree s (backing r) = true) :
    Apart (rangesOf (v.regions ++ [r]) v.jobs) := by
  refine insert_free hs (rs := [backing r]) (List.pairwise_singleton _ _) (by simpa using hfree) ?_
  rw [← hv]
  simp only [rangesOf, List.map_append, List.map_cons, List.map_nil, List.append_assoc, List.singleton_append]
  exact List.perm_middle

/-- A job may be added with the save area that the search gives it, or with none. -/
theorem append_job {v : State} (hv : heldRanges v = heldRanges s) (j : Job) {tier : Nat}
    (h : j.area = [] ∨ saveArea s tier = some j.area) :
    Apart (rangesOf v.regions (v.jobs ++ [j])) := by
  have hsplit : rangesOf v.regions (v.jobs ++ [j]) = heldRanges s ++ j.area.map fun a => (a, areaGran * granule) := by
    rw [← hv]
    simp [rangesOf]
  rw [hsplit]
  rcases h with hnone | harea
  · simpa [hnone] using hs
  · obtain ⟨hrs, hfree⟩ := saveArea_free harea
    exact insert_free hs hrs hfree List.perm_append_comm

theorem openMember_apart (h : RespHead) (b : List Byte) : Apart (heldRanges (openMember s h b)) := by
  unfold openMember
  split
  · exact hs
  · extract_lets lc slot j s1
    have hj : j.area = [] ∨ saveArea s (leAt b 0x16 1) = some j.area := by
      cases hlc : lc with
      | true => simp [j, hlc]
      | false => cases hsave : saveArea s (leAt b 0x16 1) <;> simp [j, hlc, hsave]
    exact append_job hs (takeKey_heldRanges s slot) j hj

theorem execJobOpen_leavesApart (k : Nat) : LeavesApart (execJobOpen k s) := by
  refine everyNext_withCmd k _ hs fun x => ?_
  extract_lets lc
  split
  · simpa using hs
  split
  · simpa using hs
  split
  · simpa using hs
  split
  · simpa using hs
  next area harea =>
    extract_lets j s1
    have hj : j.area = [] ∨ saveArea s (pfld x 0x16 1) = some j.area := by
      cases hlc : lc <;> simp_all [j]
    have hadded := append_job hs (v := s1) (by simp [s1]) j hj
    clear_value s1 j
    simpa using hadded

theorem execRegionCreate_leavesApart (k : Nat) : LeavesApart (execRegionCreate k s) := by
  refine leavesApart_withJob hs k _ fun x j => ?_
  split
  · simpa using hs
  split
  · simpa using hs
  split
  · simpa using hs
  split
  · simpa using hs
  split
  · simpa using hs
  split
  · simpa using hs
  next base hbase _ =>
    extract_lets gran zero slot s1 r s2 fin
    have hcreated : Apart (heldRanges s2) := by
      have hadded := append_region hs (v := s1) (by simp [s1]) r (rangeFree_of_createBase hbase)
      clear_value s1 r
      simpa [s2] using hadded
    clear_value s2
    have hfin (u : State) : heldRanges (fin u) = heldRanges u := by simp [fin]
    split
    · simpa [hfin] using hcreated
    · simpa [hfin] using hcreated

theorem decisionTaken_apart (h : RespHead) (b : List Byte) : Apart (heldRanges (decisionTaken s h b)) := by
  have hopened := openMember_apart hs h b
  have hclosed (j : Job) := closeJob_apart j s.ticket hs
  unfold decisionTaken
  (repeat' split) <;> simp_all

theorem respTaken_apart (b : List Byte) : Apart (heldRanges (respTaken s b)) := by
  have hdecided (h : RespHead) (b : List Byte) := decisionTaken_apart hs h b
  unfold respTaken
  dsimp only
  (repeat' split) <;> simp_all

theorem frameTaken_apart (p : Nat) (f : Frame) : Apart (heldRanges (frameTaken s p f)) := by
  have hresp : Apart (heldRanges (respTaken (freeIn s p f.lvc (nflit f)) f.body)) := respTaken_apart (by simpa using hs) f.body
  unfold frameTaken
  dsimp only
  (repeat' split) <;> simp_all

theorem execJorzinFrame_leavesApart (p : Nat) (f : Frame) (crcOk : Bool) : LeavesApart (execJorzinFrame p f crcOk s) := by
  refine everyNext_withJPort p ?_
  have htaken (v : State) (hv : heldRanges v = heldRanges s) : Apart (heldRanges (frameTaken v p f)) :=
    frameTaken_apart ((congrArg Apart hv).mpr hs) p f
  dsimp only
  (repeat' split) <;> simp_all

end Rows

/-- Every command leaves the ranges apart: those that can add or remove a region or a job each have a lemma, the others keep the ranges. -/
theorem exec_leavesApart (c : Instr) {s : State} (hs : Apart (heldRanges s)) : LeavesApart (exec c s) := by
  cases c with
  | regionCreate k => exact execRegionCreate_leavesApart hs k
  | regionDestroy k => exact execRegionDestroy_leavesApart hs k
  | jobOpen k => exact execJobOpen_leavesApart hs k
  | jobClose k => exact execJobClose_leavesApart hs k
  | switchScanEnd => exact execSwitchScanEnd_leavesApart hs
  | restoreEnd => exact execRestoreEnd_leavesApart hs
  | jorzinFrame p f crcOk => exact execJorzinFrame_leavesApart hs p f crcOk
  | debugUnlock k token sigOk => exact execDebugUnlock_leavesApart hs k token sigOk
  | failoverTimeout p => exact execFailoverTimeout_leavesApart hs p
  | perstAssert p => exact execPerstAssert_leavesApart hs p
  | hotReset p => exact execHotReset_leavesApart hs p
  | flrPf0 p => exact execFlrPf0_leavesApart hs p
  | por b => exact execPor_leavesApart hs b
  | mrstRelease b => exact execMrstRelease_leavesApart hs b
  | _ =>
    refine Keeps.leavesApart ?_ hs
    dsimp only [exec]
    simp

/-- Settles O60: only a REGION_CREATE, a JOB_OPEN and the Pithead's decision to open a job add ranges, and what they add was found free. -/
theorem deviceRangesStayDisjoint : Obligations.DeviceRangesStayDisjoint := by
  refine ⟨apart_nil, fun s u hs hstep => ?_⟩
  unfold step at hstep
  split at hstep
  · cases hstep
    exact tick_apart hs
  next c rest _ => exact exec_leavesApart c (s := { s with pending := rest }) hs u hstep

end Sys2Proof.Machine

/-! PROOF. The packets about regions and the transfers of the copy engines, row by row (09 R227 to R231, R239, R240, 14 R323, R337,
16 R376, R377). -/

namespace Sys2Proof.Machine

section TakenPacket

variable {s : State} {k op : Nat} {x : Packet}

/-- The row of a packet that may start goes on to what the row does. -/
theorem withCmd_of_taken (h : Taken s k op x) (f : Packet → Outcome) : withCmd s k op f = f x := by
  obtain ⟨hfind, hop, hfence, haway, hmodule, hs3⟩ := h
  simp [withCmd, hfind, hop, hfence, haway, hmodule, hs3]

theorem withJob_of_taken {j : Job} (h : TakenJob s k op x j) (f : Packet → Job → Outcome) : withJob s k op f = f x j := by
  obtain ⟨htaken, hjob⟩ := h
  simp [withJob, withCmd_of_taken htaken, hjob]

theorem ticket_of_packetN (h : packetN s k = some x) : x.ticket = k := by
  simpa using List.find?_some h

theorem orLater_of_asked {count : Nat} {fin : State → State} (h : hasAsked s (.command k) = true) :
    orLater s k count fin = modPacket s k fun y => { y with sent := true, count := count } := if_pos h

theorem orLater_of_not_asked {count : Nat} {fin : State → State} (h : hasAsked s (.command k) = false) :
    orLater s k count fin = fin s := if_neg (by simp [h])

end TakenPacket

/-! ### REGION_CREATE -/

/-- The key slot that a job with no key takes with its first region (R239). -/
def slotFor (s : State) (j : Job) : Option Nat := if j.key.isSome then none else freeSlot s

/-- A region that asks for zeroes, or has parity, is initialised (R228). -/
def initialised (x : Packet) : Bool := pfld x 0x13 1 = 1 || pfld x 0x12 1 ≠ 0

/-- The state in which the new region is added: its bytes are gone and its job has a key. -/
def clearedFor (s : State) (x : Packet) (j : Job) (base : Nat) : State :=
  takeKey (memDrop (bumpFresh (early s x)) base (base + pfld x 0x18 4 * granule)) (slotFor s j)

/-- The region that a REGION_CREATE describes, at the base found (R228, R229). -/
def regionFor (s : State) (x : Packet) (j : Job) (base : Nat) : Region :=
  { base := base, gran := pfld x 0x18 4, tier := pfld x 0x10 1, level := pfld x 0x11 1, prot := pfld x 0x12 1,
    job := j.id, port := j.port,
    tw := true, hr := true, hw := true, zero := initialised x, salt := drawKey (clearedFor s x j base).rng, fresh := s.fresh + 1 }

/-- The region exists, and its job holds the key slot. -/
def createdState (s : State) (x : Packet) (j : Job) (base : Nat) : State :=
  let u := clearedFor s x j base
  modJob (memCanon { u with regions := u.regions ++ [regionFor s x j base], rng := u.rng + 4 }) j.id fun y =>
    { y with key := if y.key.isSome then y.key else slotFor s j }

section Create

variable {s : State} {k : Nat} {x : Packet} {j : Job} (htaken : TakenJob s k 0x0100 x j)
include htaken

theorem exec_regionCreate_of_sent (hsent : x.sent = true) :
    exec (.regionCreate k) s = .next (endTransfer s k (x.count % 2 ^ 32) (x.count / 2 ^ 32)) := by
  show execRegionCreate k s = _
  rw [execRegionCreate, withJob_of_taken htaken, if_pos hsent]

variable (hsent : x.sent = false)
include hsent

theorem exec_regionCreate_of_badField {o : Nat} (hfield : createField s x = some o) :
    exec (.regionCreate k) s = .next (refuse s k stBadParam o) := by
  show execRegionCreate k s = _
  simp [execRegionCreate, withJob_of_taken htaken, hsent, hfield, badField]

variable (hfield : createField s x = none) (hslot : ¬(j.key.isNone = true ∧ (freeSlot s).isNone = true))
  (hroom : ¬s.regions.length ≥ 1024)
include hfield hslot hroom

theorem exec_regionCreate_of_noBase {o : Nat} (hbase : createBase s x = .error o) :
    exec (.regionCreate k) s = .next (refuse s k stBadParam o) := by
  show execRegionCreate k s = _
  simp only [execRegionCreate, withJob_of_taken htaken, hsent, hfield, if_neg hslot, if_neg hroom, hbase, badField, Bool.false_eq_true, if_false]

theorem exec_regionCreate_of_base {base : Nat} (hbase : createBase s x = .ok base) (hwait : s.sec.rngWait = false) :
    exec (.regionCreate k) s = .next (
      if initialised x then orLater (startTransfer (createdState s x j base) k j.lc [backing (regionFor s x j base)]) k base
        fun v => endTransfer v k (base % 2 ^ 32) (base / 2 ^ 32)
      else endTransfer (createdState s x j base) k (base % 2 ^ 32) (base / 2 ^ 32)) := by
  show execRegionCreate k s = _
  simp only [execRegionCreate, withJob_of_taken htaken, hsent, hfield, if_neg hslot, if_neg hroom, hbase, hwait, Bool.false_eq_true, if_false]
  rfl

end Create

/-! ### REGION_DESTROY, REGION_PROTECT -/

section Region

variable {s : State} {k : Nat} {x : Packet} {j : Job} {r : Region} (hregion : regionBase s j.id (pfld x 0x10 8) = some r)
include hregion

theorem exec_regionDestroy_of_bound (htaken : TakenJob s k 0x0101 x j) {d : Nat} (hbound : boundQueue s r = some d) :
    exec (.regionDestroy k) s = .next (refuse s k stJobBusy d) := by
  show execRegionDestroy k s = _
  simp only [execRegionDestroy, withJob_of_taken htaken, hregion, hbound]

theorem exec_regionDestroy_of_idle (htaken : TakenJob s k 0x0101 x j) (hbound : boundQueue s r = none) (hlocked : regionLocked s r.base = false)
    (hruns : jobRunning s j.id = false) :
    exec (.regionDestroy k) s = .next (if transferIn s (backing r) then s else replyOk (destroyRegion (early s x) r) k 0 0) := by
  show execRegionDestroy k s = _
  cases hmoves : transferIn s (backing r) <;>
    simp [execRegionDestroy, withJob_of_taken htaken, hregion, hbound, hlocked, hruns, hmoves]

theorem exec_regionProtect_of_bound (htaken : TakenJob s k 0x0104 x j) {d : Nat}
    (hrights : (nbit (pfld x 0x18 1) 1 && nbit (pfld x 0x18 1) 2) = false) (hbound : boundQueue s r = some d) :
    exec (.regionProtect k) s = .next (refuse s k stJobBusy d) := by
  show execRegionProtect k s = _
  simp only [execRegionProtect, withJob_of_taken htaken, hregion, hrights, hbound, Bool.false_eq_true, if_false]

theorem exec_regionProtect_of_free (htaken : TakenJob s k 0x0104 x j)
    (hfree : (nbit (pfld x 0x18 1) 1 && nbit (pfld x 0x18 1) 2) = true ∨ boundQueue s r = none) (hlocked : regionLocked s r.base = false) :
    exec (.regionProtect k) s = .next (replyOk { early s x with
      regions := (early s x).regions.map fun y => if y = r then
        { y with tw := nbit (pfld x 0x18 1) 0, hr := nbit (pfld x 0x18 1) 1, hw := nbit (pfld x 0x18 1) 2 } else y } k 0 0) := by
  have hnone : (if nbit (pfld x 0x18 1) 1 && nbit (pfld x 0x18 1) 2 then none else boundQueue s r) = none := by
    rcases hfree with hrights | hbound
    · exact if_pos hrights
    · rw [hbound, ite_self]
  show execRegionProtect k s = _
  simp only [execRegionProtect, withJob_of_taken htaken, hregion, hnone, hlocked, Bool.false_eq_true, if_false]

end Region

/-! ### COPY and FILL -/

/-- The state in which a transfer's bytes move: that of a packet that was sent, else the one in which it has asked leave (R377). -/
def movesIn (s : State) (k : Nat) (x : Packet) (j : Job) (ends : List (Nat × Nat)) : State :=
  if x.sent then s else startTransfer (early s x) k j.lc ends

/-- The ranges of device memory that a COPY reads and writes. -/
def copyEnds (x : Packet) : List (Nat × Nat) :=
  (if nbit (pfld x 0x28 1) 0 then [] else [(pfld x 0x10 8, pfld x 0x20 8)]) ++
    if nbit (pfld x 0x28 1) 1 then [] else [(pfld x 0x18 8, pfld x 0x20 8)]

/-- The eight-byte pattern of a FILL, repeated over its range. -/
def fillBytes (x : Packet) : List Byte := (List.range (pfld x 0x18 8)).map fun i => BitVec.ofNat 8 (pfld x (0x20 + i % 8) 1)

/-- The end of a transfer that meets the lost line at a (18 R429). -/
def endLost (s : State) (k a : Nat) : State := releaseLeave (refuse (memFatal s a false) k stFaultFatal 0) (.command k)

theorem taken_ticket {s : State} {k op : Nat} {x : Packet} {j : Job} (h : TakenJob s k op x j) : x.ticket = k :=
  ticket_of_packetN h.1.1

section CopyEnd

variable {v : State} {x : Packet} (dma : List Byte)

theorem copyEnd_device (hside : pfld x 0x28 1 = 0) (hsrc : lostIn v (pfld x 0x10 8) (pfld x 0x20 8) = none)
    (hdst : lostIn v (pfld x 0x18 8) (pfld x 0x20 8) = none) :
    copyEnd v x dma = endTransfer (memPut (binReads v (pfld x 0x10 8) (pfld x 0x20 8)) (pfld x 0x18 8)
      (memRead v (pfld x 0x10 8) (pfld x 0x20 8))) x.ticket 0 0 := by
  rw [copyEnd, hside, hsrc, hdst]
  rfl

theorem copyEnd_fromHost (hside : pfld x 0x28 1 = 1) (hdst : lostIn v (pfld x 0x18 8) (pfld x 0x20 8) = none) :
    copyEnd v x dma = endTransfer (memPut v (pfld x 0x18 8) (slice dma 0 (pfld x 0x20 8))) x.ticket 0 0 := by
  rw [copyEnd, hside, hdst]
  rfl

theorem copyEnd_toHost (hside : pfld x 0x28 1 = 2) (hsrc : lostIn v (pfld x 0x10 8) (pfld x 0x20 8) = none) :
    copyEnd v x dma = endTransfer (hostWrite (binReads v (pfld x 0x10 8) (pfld x 0x20 8)) x.port (pfld x 0x18 8)
      (memRead v (pfld x 0x10 8) (pfld x 0x20 8))) x.ticket 0 0 := by
  rw [copyEnd, hside, hsrc]
  rfl

theorem copyEnd_of_lostSource {a : Nat} (hside : pfld x 0x28 1 = 0) (hsrc : lostIn v (pfld x 0x10 8) (pfld x 0x20 8) = some a) :
    copyEnd v x dma = endLost v x.ticket a := by
  rw [copyEnd, hside, hsrc]
  rfl

end CopyEnd

theorem fillEnd_of_noLost {v : State} {x : Packet} (hdst : lostIn v (pfld x 0x10 8) (pfld x 0x18 8) = none) :
    fillEnd v x = endTransfer (memPut v (pfld x 0x10 8) (fillBytes x)) x.ticket 0 0 := by
  rw [fillEnd, hdst]
  rfl

theorem fillEnd_of_lost {v : State} {x : Packet} {a : Nat} (hdst : lostIn v (pfld x 0x10 8) (pfld x 0x18 8) = some a) :
    fillEnd v x = endLost v x.ticket a := by
  rw [fillEnd, hdst]
  rfl

section Copy

variable {s : State} {k : Nat} {x : Packet} {j : Job} (htaken : TakenJob s k 0x0102 x j) (dma : List Byte)
include htaken

theorem exec_copy_of_asked (hsent : x.sent = false) (hfield : copyField s x = none)
    (hasked : hasAsked (movesIn s k x j (copyEnds x)) (.command k) = true) :
    exec (.copy k dma) s = .next (modPacket (movesIn s k x j (copyEnds x)) k fun y => { y with sent := true, count := 0 }) := by
  have hmoves : movesIn s k x j (copyEnds x) = startTransfer (early s x) k j.lc (copyEnds x) := if_neg (by simp [hsent])
  rw [hmoves] at hasked ⊢
  show execCopy k dma s = _
  simp only [execCopy, withJob_of_taken htaken, hsent, hfield, Bool.false_eq_true, if_false]
  exact congrArg Host.Outcome.next (orLater_of_asked hasked)

theorem exec_copy_of_moves (hstart : x.sent = true ∨ copyField s x = none)
    (hmoved : x.sent = true ∨ hasAsked (movesIn s k x j (copyEnds x)) (.command k) = false) :
    exec (.copy k dma) s = .next (copyEnd (movesIn s k x j (copyEnds x)) x dma) := by
  show execCopy k dma s = _
  cases hsent : x.sent with
  | true => rw [execCopy, withJob_of_taken htaken, movesIn, if_pos hsent, if_pos hsent]
  | false =>
    have hmoves : movesIn s k x j (copyEnds x) = startTransfer (early s x) k j.lc (copyEnds x) := if_neg (by simp [hsent])
    have hfield : copyField s x = none := hstart.resolve_left (by simp [hsent])
    have hgranted := hmoved.resolve_left (by simp [hsent])
    rw [hmoves] at hgranted ⊢
    simp only [execCopy, withJob_of_taken htaken, hsent, hfield, Bool.false_eq_true, if_false]
    exact congrArg Host.Outcome.next (orLater_of_not_asked hgranted)

end Copy

section Fill

variable {s : State} {k : Nat} {x : Packet} {j : Job} (htaken : TakenJob s k 0x0103 x j)
include htaken

/-- A FILL that has not started, and whose fields pass, asks leave (R377). -/
theorem exec_fill_of_start (hsent : x.sent = false) (hlen : pfld x 0x18 8 ≠ 0) (hmax : pfld x 0x18 8 ≤ 2 ^ 40)
    (hspan : spanOk s x.port (pfld x 0x10 8) (pfld x 0x18 8) true = true) :
    exec (.fill k) s = .next (orLater (movesIn s k x j [(pfld x 0x10 8, pfld x 0x18 8)]) k 0 fun v => fillEnd v x) := by
  have hmoves : movesIn s k x j [(pfld x 0x10 8, pfld x 0x18 8)] =
    startTransfer (early s x) k j.lc [(pfld x 0x10 8, pfld x 0x18 8)] := if_neg (by simp [hsent])
  have hfits : ¬(pfld x 0x18 8 = 0 ∨ pfld x 0x18 8 > 2 ^ 40) := not_or.mpr ⟨hlen, Nat.not_lt.mpr hmax⟩
  rw [hmoves]
  show execFill k s = _
  simp only [execFill, withJob_of_taken htaken, hsent, hspan, if_neg hfits, Bool.not_true, Bool.false_eq_true, if_false]

theorem exec_fill_of_moves (hstart : x.sent = true ∨
      (pfld x 0x18 8 ≠ 0 ∧ pfld x 0x18 8 ≤ 2 ^ 40 ∧ spanOk s x.port (pfld x 0x10 8) (pfld x 0x18 8) true = true))
    (hmoved : x.sent = true ∨ hasAsked (movesIn s k x j [(pfld x 0x10 8, pfld x 0x18 8)]) (.command k) = false) :
    exec (.fill k) s = .next (fillEnd (movesIn s k x j [(pfld x 0x10 8, pfld x 0x18 8)]) x) := by
  cases hsent : x.sent with
  | true =>
    show execFill k s = _
    simp only [execFill, withJob_of_taken htaken, movesIn, hsent, if_true]
  | false =>
    obtain ⟨hlen, hmax, hspan⟩ := hstart.resolve_left (by simp [hsent])
    rw [exec_fill_of_start htaken hsent hlen hmax hspan, orLater_of_not_asked (hmoved.resolve_left (by simp [hsent]))]

end Fill

/-! ### The statement, packet by packet -/

/-- Settles O35: each packet's row is reduced to its one branch by the checks that pass, and a transfer splits on whether its request
waits. -/
theorem regionsAndTransfers : Obligations.RegionsAndTransfers := by
  unfold Obligations.RegionsAndTransfers
  refine ⟨?create, fun s k x j htaken hsent => exec_regionCreate_of_sent htaken hsent, ?destroy, ?protect, ?copy, ?fill⟩
  case create =>
    intro s k x j htaken hsent
    refine ⟨fun o hfield => exec_regionCreate_of_badField htaken hsent hfield, fun hfield hkey hlength => ?_⟩
    have hroom : ¬s.regions.length ≥ 1024 := Nat.not_le.mpr hlength
    have hslot : ¬(j.key.isNone = true ∧ (freeSlot s).isNone = true) := by
      rintro ⟨hjob, hfree⟩
      rcases hkey with hkey | hkey <;> simp_all
    refine ⟨fun o hbase => exec_regionCreate_of_noBase htaken hsent hfield hslot hroom hbase, fun base hbase hwait => ?_⟩
    have hexec := exec_regionCreate_of_base htaken hsent hfield hslot hroom hbase hwait
    refine ⟨fun hzero => ?_, fun hzero hasked => ?_, fun hzero hasked => ?_⟩
    · exact hexec.trans (congrArg Host.Outcome.next (if_neg (Bool.eq_false_iff.mp hzero)))
    · exact hexec.trans (congrArg Host.Outcome.next ((if_pos hzero).trans (orLater_of_not_asked hasked)))
    · exact hexec.trans (congrArg Host.Outcome.next ((if_pos hzero).trans (orLater_of_asked hasked)))
  case destroy =>
    intro s k x j r htaken hregion
    refine ⟨fun d hbound => exec_regionDestroy_of_bound hregion htaken hbound, fun hbound hlocked hruns => ?_⟩
    have hexec := exec_regionDestroy_of_idle hregion htaken hbound hlocked hruns
    exact ⟨fun hmoves => hexec.trans (congrArg Host.Outcome.next (if_pos hmoves)),
      fun hmoves => hexec.trans (congrArg Host.Outcome.next (if_neg (Bool.eq_false_iff.mp hmoves)))⟩
  case protect =>
    intro s k x j r htaken hregion
    exact ⟨fun d hrights hbound => exec_regionProtect_of_bound hregion htaken hrights hbound,
      fun hfree hlocked => exec_regionProtect_of_free hregion htaken hfree hlocked⟩
  case copy =>
    intro s k x j dma htaken hstart
    refine ⟨fun hsent hasked => ?_, fun hmoved => ?_⟩
    · exact exec_copy_of_asked htaken dma hsent (hstart.resolve_left (by simp [hsent])) hasked
    have hexec := exec_copy_of_moves htaken dma hstart hmoved
    obtain rfl : x.ticket = k := taken_ticket htaken
    exact ⟨fun hside hsrc hdst => hexec.trans (congrArg Host.Outcome.next (copyEnd_device dma hside hsrc hdst)),
      fun hside hdst => hexec.trans (congrArg Host.Outcome.next (copyEnd_fromHost dma hside hdst)),
      fun hside hsrc => hexec.trans (congrArg Host.Outcome.next (copyEnd_toHost dma hside hsrc)),
      fun a hside hsrc => hexec.trans (congrArg Host.Outcome.next (copyEnd_of_lostSource dma hside hsrc))⟩
  case fill =>
    intro s k x j htaken len dst hstart
    refine ⟨fun hsent hasked => ?_, fun hmoved => ?_⟩
    · obtain ⟨hlen, hmax, hspan⟩ := hstart.resolve_left (by simp [hsent])
      exact (exec_fill_of_start htaken hsent hlen hmax hspan).trans (congrArg Host.Outcome.next (orLater_of_asked hasked))
    have hexec := exec_fill_of_moves htaken hstart hmoved
    obtain rfl : x.ticket = k := taken_ticket htaken
    exact ⟨fun hdst => hexec.trans (congrArg Host.Outcome.next (fillEnd_of_noLost hdst)),
      fun a hdst => hexec.trans (congrArg Host.Outcome.next (fillEnd_of_lost hdst))⟩

end Sys2Proof.Machine

/-! PROOF. Messages that arrive: the tests in their order, and what an accepted message or contribution leaves in the receive queue
(10 R255, R256, R263 to R269, R522; 12 R314). -/

namespace Sys2Proof.Machine

/-! ### The tests of an arriving message (R263, R269, R522) -/

/-- What becomes of message n, at position i, by the result of its tests; `kept` is the state that acceptance leaves. -/
def afterTest (s : State) (i : Nat) (n : NetMsg) (kept : State) : Arrival → State
  | .discard c none => bumpSpoil { s with net := dropAt s.net i } n.msg.dtile c 1
  | .discard c (some k) => pushCtl (bumpSpoil { s with net := dropAt s.net i } n.msg.dtile c 1) (noticeOf n.msg k)
  | .fatal => kindFatal { s with net := dropAt s.net i } n.msg.dtile n.msg
  | .accept => kept

/-- Message n, at position i of the mesh and a contribution or not, comes to its tests at a tile of this device. -/
def Arrives (s : State) (i : Nat) (n : NetMsg) (contrib : Bool) : Prop :=
  s.net[i]? = some n ∧ n.hub = false ∧ mayLeave s i n = true ∧ n.msg.ddev = deviceId s ∧ (n.msg.kind = 1 ↔ contrib = true) ∧
    tileRetired s n.msg.dtile = false ∧ tilePaused s n.msg.dtile = false ∧ drainingOut s n.msg = false

theorem arrive_of_arrives {s : State} {i : Nat} {n : NetMsg} {contrib : Bool} (h : Arrives s i n contrib) (f : State → NetMsg → State) :
    arrive s i contrib f = afterTest s i n (f s n) (arrivalTest (tileAt s n.msg.dtile) n.msg) := by
  obtain ⟨hmsg, hhub, hmay, hdev, hkind, hretired, hpaused, hdrain⟩ := h
  rw [arrive, hmsg]
  simp only [hhub, hmay, hdev, hkind, hretired, hpaused, hdrain]
  cases arrivalTest (tileAt s n.msg.dtile) n.msg with
  | discard c cause => cases cause <;> simp [afterTest]
  | fatal => simp [afterTest]
  | accept => simp [afterTest]

/-- The row of an arriving message: CONTRIBUTION and DATA_MESSAGE differ in what takes the accepted ones. -/
theorem exec_of_arrives {s : State} {i : Nat} {n : NetMsg} {contrib : Bool} (h : Arrives s i n contrib) :
    exec (if contrib then .contribution i else .dataMessage i) s =
      .next (afterTest s i n (if contrib then acceptContribution s i n else acceptPlain s i n)
        (arrivalTest (tileAt s n.msg.dtile) n.msg)) := by
  cases contrib with
  | false => exact congrArg Host.Outcome.next (arrive_of_arrives h fun s n => acceptPlain s i n)
  | true => exact congrArg Host.Outcome.next (arrive_of_arrives h fun s n => acceptContribution s i n)

section Tests

variable {x : Tile} {m : Msg}

theorem arrivalTest_of_epoch (hepoch : epochOk x.net m.epoch = false) : arrivalTest x m = .discard 3 none := by
  simp [arrivalTest, hepoch]

variable (hepoch : epochOk x.net m.epoch = true)
include hepoch

theorem arrivalTest_of_generation (hgen : m.dgen ≠ x.net.gen.toNat) : arrivalTest x m = .discard 4 none := by
  simp [arrivalTest, hepoch, hgen]

variable (hgen : m.dgen = x.net.gen.toNat)
include hgen

theorem arrivalTest_of_closed (hclosed : (queueN x.net m.dq).opened = false ∨ qDeclared (queueN x.net m.dq) = false) :
    arrivalTest x m = .discard 0 (some 0) := by
  simp [arrivalTest, hepoch, hgen, hclosed]

variable (hopen : (queueN x.net m.dq).opened = true) (hdeclared : qDeclared (queueN x.net m.dq) = true)
include hopen hdeclared

theorem arrivalTest_of_long (hlong : qMaxFlits (queueN x.net m.dq) < msgFlits m) : arrivalTest x m = .discard 2 (some 2) := by
  simp [arrivalTest, hepoch, hgen, hopen, hdeclared, hlong]

/-- A message that fits is refused for its kind or rank, or accepted. -/
theorem arrivalTest_of_fits (hfits : msgFlits m ≤ qMaxFlits (queueN x.net m.dq)) :
    arrivalTest x m = if kindBad (queueN x.net m.dq) m then .fatal else .accept := by
  simp [arrivalTest, hepoch, hgen, hopen, hdeclared, hfits]

end Tests

/-- Settles O21: the row is the tests' result, and the tests are tagAfter one after the other. -/
theorem arrivingMessagesAreTested : Obligations.ArrivingMessagesAreTested := by
  intro s i n contrib hmsg hhub hmay hdev hkind hretired hpaused hdrain c m tl q gone
  have hexec := exec_of_arrives ⟨hmsg, hhub, hmay, hdev, hkind, hretired, hpaused, hdrain⟩
  refine ⟨fun hepoch => ?epoch, fun hepoch hgen => ?generation, fun hepoch hgen => ⟨fun hclosed => ?closed, fun hopen hdecl =>
    ⟨fun hlong => ?long, fun hfits hbad => ?kind, fun hfits hgood => ?accepted⟩⟩⟩
  case epoch => rwa [arrivalTest_of_epoch hepoch] at hexec
  case generation => rwa [arrivalTest_of_generation hepoch hgen] at hexec
  case closed => rwa [arrivalTest_of_closed hepoch hgen hclosed] at hexec
  case long => rwa [arrivalTest_of_long hepoch hgen hopen hdecl hlong] at hexec
  case kind => rwa [arrivalTest_of_fits hepoch hgen hopen hdecl hfits, if_pos hbad] at hexec
  case accepted => rwa [arrivalTest_of_fits hepoch hgen hopen hdecl hfits, if_neg (ne_true_of_eq_false hgood)] at hexec

/-! ### The network interface of a tile in the canonical array -/

theorem tileAt_setTile_of_sorted {s : State} (h : arrSorted s.tiles = true) (t : Nat) (x : Tile) : tileAt (setTile s t x) t = x :=
  arrGet_arrSet_self s.tiles t x tileReset h

theorem queueN_modQueue_of_sorted {n : NetIf} (h : arrSorted n.queues = true) (k : Nat) (f : RecvQueue → RecvQueue) :
    queueN (modQueue n k f) k = f (queueN n k) :=
  arrGet_arrSet_self n.queues k (f (queueN n k)) recvReset h

theorem modQueue_sorted {n : NetIf} (h : arrSorted n.queues = true) (k : Nat) (f : RecvQueue → RecvQueue) :
    arrSorted (modQueue n k f).queues = true :=
  arrSorted_arrSet n.queues k (f (queueN n k)) recvReset h

/-- The tiles stand in their canonical array, and n is the network interface of tile t. -/
def HasNet (s : State) (t : Nat) (n : NetIf) : Prop := arrSorted s.tiles = true ∧ (tileAt s t).net = n

theorem HasNet.of_tiles {s u : State} {t : Nat} {n : NetIf} (h : HasNet s t n) (htiles : u.tiles = s.tiles) : HasNet u t n :=
  ⟨htiles ▸ h.1, (congrArg Tile.net (tileAt_congr htiles t)).trans h.2⟩

theorem HasNet.with_net {s : State} {t : Nat} {n : NetIf} (h : HasNet s t n) (l : List NetMsg) : HasNet { s with net := l } t n := h

theorem HasNet.after_modTile {s : State} {t : Nat} {n m : NetIf} {f : Tile → Tile} (h : HasNet s t n)
    (hf : ∀ x, x.net = n → (f x).net = m) : HasNet (modTile s t f) t m := by
  obtain ⟨hsorted, hnet⟩ := h
  refine ⟨arrSorted_arrSet s.tiles t (f (tileAt s t)) tileReset hsorted, ?_⟩
  rw [modTile, tileAt_setTile_of_sorted hsorted, hf _ hnet]

theorem HasNet.after_progress {s : State} {t : Nat} {n : NetIf} (h : HasNet s t n) : HasNet (progress s t) t { n with npCount := 0 } :=
  h.after_modTile fun _ hx => hx ▸ rfl

theorem HasNet.after_flushWhere {s : State} {t : Nat} {n : NetIf} (h : HasNet s t n) (p : WgbEntry → Bool) :
    HasNet (flushWhere s t p) t n := by
  simp only [flushWhere]
  split
  next =>
    generalize hu : (modTile s t fun tl =>
      { tl with pad := { tl.pad with wgb := (tileAt s t).pad.wgb.filter fun w => !p w } }) = u
    obtain ⟨m, b, hflush⟩ := flushEntries_frame t ((tileAt s t).pad.wgb.filter p) u
    have hgathered : HasNet u t n := hu ▸ h.after_modTile fun _ hx => hx
    exact hgathered.of_tiles (by rw [hflush])
  next => exact h

theorem HasNet.after_padWrite {s : State} {t : Nat} {n : NetIf} (h : HasNet s t n) (a : Nat) (bs : List Byte) :
    HasNet (padWrite s t a bs) t n := by
  obtain ⟨m, b, hput⟩ := memPut_frame (flushPad s t a bs.length) (padBase t + a) bs
  exact (h.after_flushWhere _).of_tiles (by rw [padWrite, hput, flushPad])

/-! ### A message stored in the main area (R255, R260) -/

/-- HIGH follows the occupancy; nothing else of the queue changes. -/
theorem markHigh_frame (q : RecvQueue) : markHigh q = { q with high := (markHigh q).high } := by
  simp only [markHigh]
  split
  next => rfl
  next => split
          next => rfl
          next => split <;> rfl

@[simp] theorem markHigh_items (q : RecvQueue) : (markHigh q).items = q.items := by rw [markHigh_frame]
@[simp] theorem markHigh_msgs (q : RecvQueue) : (markHigh q).msgs = q.msgs := by rw [markHigh_frame]
@[simp] theorem markHigh_tags (q : RecvQueue) : (markHigh q).tags = q.tags := by rw [markHigh_frame]
@[simp] theorem markHigh_wr (q : RecvQueue) : (markHigh q).wr = q.wr := by rw [markHigh_frame]

/-- The entry of message m in the ring of queue q (R255). -/
def storedItem (q : RecvQueue) (m : Msg) : QItem :=
  let p := placeFor q (msgFlits m + 1)
  { pos := p.1, flits := msgFlits m + 1, skip := p.2, tag := m.tag, stile := m.stile, sdev := m.sdev, acq := false }

/-- Queue q with message m stored last. -/
def withStored (m : Msg) (q : RecvQueue) : RecvQueue :=
  markHigh { q with items := q.items ++ [storedItem q m], wr := (placeFor q (msgFlits m + 1)).1 + (msgFlits m + 1) }

theorem storeMain_net (s : State) (t k : Nat) (m : Msg) : (storeMain s t k m).net = s.net := by
  obtain ⟨ts, mem, b, h⟩ := padWrite_frame s t
    (qBase (queueN (tileAt s t).net k) + 32 * (placeFor (queueN (tileAt s t).net k) (msgFlits m + 1)).1) (headFlit m ++ m.payload)
  simp only [storeMain, modTile_net, h]

theorem HasNet.after_storeMain {s : State} {t : Nat} {n : NetIf} (h : HasNet s t n) (k : Nat) (m : Msg) :
    HasNet (storeMain s t k m) t (modQueue n k (withStored m)) := by
  obtain ⟨hsorted, rfl⟩ := h
  exact (HasNet.after_padWrite ⟨hsorted, rfl⟩ _ _).after_modTile fun _ hx => hx ▸ rfl

/-- MSGS gains 1 (R273). -/
def countMsg (q : RecvQueue) : RecvQueue := { q with msgs := q.msgs + 1 }

/-! ### An accepted message (R255, R256, R265) -/

section Plain

variable {s : State} {i : Nat} {n : NetMsg} (hspill : (queueN (tileAt s n.msg.dtile).net n.msg.dq).spilling = false)
  (hroom : roomFor (queueN (tileAt s n.msg.dtile).net n.msg.dq) (msgFlits n.msg + 1) = true)
include hspill hroom

theorem acceptPlain_of_room :
    acceptPlain s i n =
      let v := modTile (storeMain s n.msg.dtile n.msg.dq n.msg) n.msg.dtile fun x => { x with net := modQueue x.net n.msg.dq countMsg }
      progress { v with net := dropAt v.net i } n.msg.dtile := by
  simp only [acceptPlain, hspill, hroom, Bool.false_eq_true, if_false, if_true]
  rfl

theorem acceptPlain_net : (acceptPlain s i n).net = dropAt s.net i := by
  simp [acceptPlain_of_room hspill hroom, progress, storeMain_net]

theorem acceptPlain_queue (htiles : arrSorted s.tiles = true) (hqueues : arrSorted (tileAt s n.msg.dtile).net.queues = true) :
    queueN (tileAt (acceptPlain s i n) n.msg.dtile).net n.msg.dq =
      countMsg (withStored n.msg (queueN (tileAt s n.msg.dtile).net n.msg.dq)) := by
  have hstored := HasNet.after_storeMain (s := s) (t := n.msg.dtile) ⟨htiles, rfl⟩ n.msg.dq n.msg
  have hcounted := hstored.after_modTile (f := fun x => { x with net := modQueue x.net n.msg.dq countMsg })
    fun _ hx => congrArg (modQueue · n.msg.dq countMsg) hx
  rw [acceptPlain_of_room hspill hroom, (hcounted.with_net _).after_progress.2]
  exact (queueN_modQueue_of_sorted (modQueue_sorted hqueues _ _) _ _).trans (congrArg countMsg (queueN_modQueue_of_sorted hqueues _ _))

end Plain

/-! ### An accepted contribution (R266 to R268) -/

/-- The tag in progress that a contribution belongs to, or the one it begins. -/
def tagFor (q : RecvQueue) (m : Msg) : CombTag :=
  (q.tags.find? fun g => g.tag = m.tag).getD { tag := m.tag, flits := msgFlits m, count := 0, next := 0, ranks := [], held := [], acc := [] }

/-- The tag once it has taken the contribution, and the flags of the sum. -/
def tagAfter (q : RecvQueue) (m : Msg) : CombTag × AFlags := takeContribution q (tagFor q m) m

/-- The message in which a tile delivers the sum of a completed tag to its own queue. -/
def sumMsg (s : State) (m : Msg) (payload : List Byte) : Msg :=
  { ddev := deviceId s, dtile := m.dtile, dq := m.dq, tag := m.tag, kind := 2, rank := 0, sdev := deviceId s, stile := m.dtile
    epoch := (tileAt s m.dtile).net.epoch.toNat, dgen := (tileAt s m.dtile).net.gen.toNat, payload := payload }

/-- Queue y once a contribution counts in MSGS: its tag g stays beside the others, or ends with it. -/
def withTag (done : Bool) (others : List CombTag) (g : CombTag) (y : RecvQueue) : RecvQueue :=
  let u := { countMsg y with tags := if done then others else others ++ [g] }
  if done then u else markHigh u

/-- What an accepted contribution leaves: the sum of a completed tag goes into the queue q. -/
def withContribution (s : State) (i : Nat) (n : NetMsg) (q : RecvQueue) (done : Bool) : State :=
  let m := n.msg
  let r := tagAfter q m
  let sum := deliverPayload (qBf16 q) r.1.acc
  let v := modTile (progress { s with net := dropAt s.net i } m.dtile) m.dtile fun x =>
    let y := raiseFlags x (r.2 ||| (if done then sum.2 else 0))
    { y with net := modQueue y.net m.dq (withTag done (q.tags.filter (·.tag ≠ m.tag)) r.1) }
  if done then storeMain v m.dtile m.dq (sumMsg s m sum.1) else v

theorem acceptContribution_of_place {s : State} {i : Nat} {n : NetMsg} {done : Bool} :
    let q := queueN (tileAt s n.msg.dtile).net n.msg.dq
    (q.tags.find? fun g => g.tag = n.msg.tag).isSome = true ∨ q.tags.length < qTags q →
    decide ((tagAfter q n.msg).1.count = qContribs q) = done → (done = true → roomFor q (msgFlits n.msg + 1) = true) →
    acceptContribution s i n = withContribution s i n q done := by
  intro q hplace hdone hroom
  have hfree : ¬((q.tags.find? fun g => g.tag = n.msg.tag).isNone = true ∧ q.tags.length ≥ qTags q) := by
    rintro ⟨hnone, hfull⟩
    rw [Option.isNone_iff_eq_none.mp hnone] at hplace
    exact Nat.not_le.mpr (hplace.resolve_left Bool.false_ne_true) hfull
  have hfits : ¬(done && !roomFor q (msgFlits n.msg + 1)) = true := by simpa using hroom
  subst hdone
  exact (if_neg hfree).trans (if_neg hfits)

section Contribution

variable {s : State} {i : Nat} {n : NetMsg} (q : RecvQueue)

theorem withContribution_net (done : Bool) : (withContribution s i n q done).net = dropAt s.net i := by
  cases done with
  | false => rfl
  | true => exact storeMain_net _ _ _ _

/-- The interface once queue n.msg.dq has changed by c, before a sum is stored. -/
theorem hasNet_contribution (htiles : arrSorted s.tiles = true) (f : AFlags) (c : RecvQueue → RecvQueue) :
    HasNet (modTile (progress { s with net := dropAt s.net i } n.msg.dtile) n.msg.dtile fun x =>
        { raiseFlags x f with net := modQueue (raiseFlags x f).net n.msg.dq c }) n.msg.dtile
      (modQueue { (tileAt s n.msg.dtile).net with npCount := 0 } n.msg.dq c) :=
  have hfrom : HasNet s n.msg.dtile (tileAt s n.msg.dtile).net := ⟨htiles, rfl⟩
  (hfrom.with_net _).after_progress.after_modTile fun _ hx => congrArg (modQueue · n.msg.dq c) hx

variable (htiles : arrSorted s.tiles = true) (hqueues : arrSorted (tileAt s n.msg.dtile).net.queues = true)
include htiles hqueues

theorem withContribution_open_queue :
    queueN (tileAt (withContribution s i n q false) n.msg.dtile).net n.msg.dq =
      withTag false (q.tags.filter (·.tag ≠ n.msg.tag)) (tagAfter q n.msg).1 (queueN (tileAt s n.msg.dtile).net n.msg.dq) := by
  refine (congrArg (queueN · n.msg.dq) (hasNet_contribution htiles _ _).2).trans ?_
  exact queueN_modQueue_of_sorted (n := { (tileAt s n.msg.dtile).net with npCount := 0 }) hqueues _ _

theorem withContribution_done_queue :
    queueN (tileAt (withContribution s i n q true) n.msg.dtile).net n.msg.dq =
      withStored (sumMsg s n.msg (deliverPayload (qBf16 q) (tagAfter q n.msg).1.acc).1)
        (withTag true (q.tags.filter (·.tag ≠ n.msg.tag)) (tagAfter q n.msg).1 (queueN (tileAt s n.msg.dtile).net n.msg.dq)) := by
  refine (congrArg (queueN · n.msg.dq) ((hasNet_contribution htiles _ _).after_storeMain _ _).2).trans ?_
  refine (queueN_modQueue_of_sorted (modQueue_sorted hqueues _ _) _ _).trans (congrArg (withStored _) ?_)
  exact queueN_modQueue_of_sorted (n := { (tileAt s n.msg.dtile).net with npCount := 0 }) hqueues _ _

end Contribution

/-- Settles O22: the interface of the destination tile is followed through the operations of acceptance. -/
theorem acceptedMessageIsStoredWhole : Obligations.AcceptedMessageIsStoredWhole := by
  intro s i n htiles m tl q comes hqueues
  have harrives : ∀ contrib : Bool, comes → (m.kind = 1 ↔ contrib = true) →
      exec (if contrib then .contribution i else .dataMessage i) s =
        .next (if contrib then acceptContribution s i n else acceptPlain s i n) := by
    rintro contrib ⟨hmsg, hhub, hmay, hdev, hretired, hpaused, hdrain, hepoch, hgen, hopen, hdecl, hfits, hgood⟩ hkind
    have hexec := exec_of_arrives ⟨hmsg, hhub, hmay, hdev, hkind, hretired, hpaused, hdrain⟩
    rwa [arrivalTest_of_fits hepoch hgen hopen hdecl hfits, if_neg (ne_true_of_eq_false hgood)] at hexec
  refine ⟨fun hspill hroom => ?plain, ?contribution⟩
  case plain =>
    intro u q2
    have hq2 : q2 = countMsg (withStored m q) := acceptPlain_queue hspill hroom htiles hqueues
    refine ⟨fun hcomes hkind => harrives false hcomes (by simpa using hkind), acceptPlain_net hspill hroom, ?_⟩
    simp only [hq2]
    simp [countMsg, withStored, storedItem]
  case contribution =>
    intro g r others u q2
    refine ⟨fun hcomes hkind => harrives true hcomes (by simpa using hkind), fun hplace =>
      ⟨fun hcount => ?stays, fun hcount hroom => ?ends⟩⟩
    case stays =>
      have hu : u = withContribution s i n q false := acceptContribution_of_place hplace (decide_eq_false hcount) nofun
      have hq2 : q2 = withTag false others r.1 q := by
        simp only [q2, hu]
        exact withContribution_open_queue q htiles hqueues
      refine ⟨hu ▸ withContribution_net q false, ?_⟩
      simp [hq2, withTag, countMsg]
    case ends =>
      have hu : u = withContribution s i n q true := acceptContribution_of_place hplace (decide_eq_true hcount) fun _ => hroom
      have hq2 : q2 = withStored (sumMsg s m (deliverPayload (qBf16 q) r.1.acc).1) (withTag true others r.1 q) := by
        simp only [q2, hu]
        exact withContribution_done_queue q htiles hqueues
      refine ⟨hu ▸ withContribution_net q true, ?_⟩
      simp [hq2, withStored, withTag, countMsg, storedItem, sumMsg]

end Sys2Proof.Machine

/-! PROOF. Messages that are refused, held or stuck: notices, retired tiles and absent devices, route holds; spilling, pointer resets and
the no-progress timer (10 R247, R252, R259, R262, R264, R270 to R272, 17 R400). -/

namespace Sys2Proof.Machine

/-! ### Send notices (R247, R262) -/

section Notice

variable {s : State} {i sd st ca dd dt dq tag : Nat} (hctl : s.ctl[i]? = some (.notice sd st ca dd dt dq tag))
include hctl

theorem exec_sendNotice_of_own (hown : sd = deviceId s) :
    exec (.sendNotice i) s =
      .next (jobRecord (bumpSpoil { s with ctl := dropAt s.ctl i } st 7 1) 1 stSendToClosed 1 st 5 [ca, dd, dt, dq, tag]) := by
  show execSendNotice i s = _
  rw [execSendNotice, hctl]
  exact if_neg (not_not_intro hown)

theorem exec_sendNotice_of_other (hother : sd ≠ deviceId s) :
    exec (.sendNotice i) s = .next (sendTo { s with ctl := dropAt s.ctl i } sd 0
      { ftype := 1, lvc := 0, seq := 0, sdev := deviceId s, body := noticeFlit sd st ca dd dt dq tag }) := by
  show execSendNotice i s = _
  rw [execSendNotice, hctl]
  exact if_pos hother

end Notice

/-! ### Messages to retired tiles and to other devices (R252, R262, R264, 17 R400) -/

theorem exec_messageToRetiredTile_of_free {s : State} {i : Nat} {n : NetMsg} (hmsg : s.net[i]? = some n) (hhub : n.hub = false)
    (hheld : n.held = false) (hdev : n.msg.ddev = deviceId s) (hretired : tileRetired s n.msg.dtile = true) :
    exec (.messageToRetiredTile i) s =
      .next (pushCtl (bumpSpoil { s with net := dropAt s.net i } (lastLiveRouter s n.msg) 1 1) (noticeOf n.msg 1)) := by
  show execMessageToRetiredTile i s = _
  rw [execMessageToRetiredTile, hmsg]
  exact if_neg (by simp [hhub, hheld, hdev, hretired])

theorem exec_gatePortMessage_of_leaves {s : State} {i : Nat} {n : NetMsg} (hmsg : s.net[i]? = some n) (hhub : n.hub = true)
    (hown : n.msg.sdev = deviceId s) (hdev : n.msg.ddev ≠ deviceId s) (hmay : mayLeave s i n = true)
    (hheld : s.casc.heldFor.contains n.msg.ddev = false) :
    exec (.gatePortMessage i) s =
      let c := countOutbound (progress { s with net := dropAt s.net i } n.msg.stile) n.msg
      if !c.2 then .next c.1
      else if !deviceReady s ∨ !inMembers s n.msg.ddev ∨ !s.casc.present.contains n.msg.ddev then
        .next (pushCtl { c.1 with casc := { c.1.casc with discarded := c.1.casc.discarded + 1 } } (noticeOf n.msg 3))
      else .next (sendTo c.1 n.msg.ddev (flowHash n.msg)
        { ftype := 0, lvc := 1, seq := 0, sdev := deviceId s, body := headFlit n.msg ++ n.msg.payload }) := by
  show execGatePortMessage i s = _
  rw [execGatePortMessage, hmsg]
  exact (if_neg (by simp [hhub, hown, hdev, hmay])).trans (if_neg (ne_true_of_eq_false hheld))

/-! ### Route holds (R252) -/

/-- Message n goes from router src to router dst. -/
def goesBetween (s : State) (src dst : Nat) (n : NetMsg) : Bool := startRouter s n.msg = src && endRouter s n.msg = dst

theorem exec_routeHoldRelease_of_clear {s : State} {src dst : Nat} (hsrc : src < 2304) (hdst : dst < 2304)
    (hclear : ∀ n ∈ s.net, goesBetween s src dst n = true → n.old = false) :
    exec (.routeHoldRelease src dst) s =
      .next { s with net := s.net.map fun n => if goesBetween s src dst n then { n with held := false } else n } := by
  have hnone : ¬(s.net.any fun n => goesBetween s src dst n && n.old) = true := by
    intro hany
    obtain ⟨n, hn, hold⟩ := List.any_eq_true.mp hany
    obtain ⟨hjoins, hold⟩ := (Bool.and_eq_true _ _).mp hold
    simp [hclear n hn hjoins] at hold
  show execRouteHoldRelease src dst s = _
  exact (if_neg (by omega)).trans (if_neg hnone)

/-- Settles O23: a row for each kind of message that is turned away. -/
theorem refusedMessagesNotifyTheirSender : Obligations.RefusedMessagesNotifyTheirSender := by
  refine ⟨?notice, ?retired, ?gate, ?hold⟩
  case notice =>
    intro s i sd st ca dd dt dq tag hctl
    exact ⟨exec_sendNotice_of_own hctl, exec_sendNotice_of_other hctl⟩
  case retired => exact fun s i n hmsg hhub hheld hdev hretired => exec_messageToRetiredTile_of_free hmsg hhub hheld hdev hretired
  case gate =>
    intro s i n hmsg hhub hown hdev hmay hheld c
    have hexec := exec_gatePortMessage_of_leaves hmsg hhub hown hdev hmay hheld
    have hpasses : c.2 = true → ¬(!c.2) = true := fun hnew => by simp [hnew]
    refine ⟨fun hold => hexec.trans (if_pos (by simp [c, hold])), fun hnew hno => ?_, fun hnew hready hmember hpresent => ?_⟩
    · exact hexec.trans ((if_neg (hpasses hnew)).trans (if_pos (by simpa using hno)))
    · exact hexec.trans ((if_neg (hpasses hnew)).trans (if_neg (by simp only [hready, hmember, hpresent]; decide)))
  case hold =>
    intro s src dst hsrc hdst pair hclear
    exact exec_routeHoldRelease_of_clear hsrc hdst hclear

/-! ### Spilling (R270) -/

theorem exec_spill_of_waited {s : State} {t k : Nat} (ht : t < 2304) (hk : k ≤ 15) :
    let q := queueN (tileAt s t).net k
    qMode q = 0 → fld q.w2 23 12 ≠ 0 → q.spilling = false → (q.high = true ∨ fld q.w1 16 0 = 0) →
    (∃ m ∈ s.net, m.waiting = true ∧ m.msg.ddev = deviceId s ∧ m.msg.dtile = t ∧ m.msg.dq = k ∧ fld q.w2 55 24 ≤ m.age) →
    exec (.spill t k) s =
      .next (setTile s t { tileAt s t with net := modQueue (tileAt s t).net k fun q => { q with spilling := true } }) := by
  intro q hplain harea hspill hhigh hwaits
  have hany : (s.net.any fun m => m.waiting && m.msg.ddev = deviceId s && m.msg.dtile = t && m.msg.dq = k &&
      decide (fld q.w2 55 24 ≤ m.age)) = true := by
    obtain ⟨m, hm, hwait, hdev, htile, hqueue, hage⟩ := hwaits
    exact List.any_eq_true.mpr ⟨m, hm, by simp [hwait, hdev, htile, hqueue, hage]⟩
  show withQ16 k s (withTile s t _) = _
  rw [withQ16, if_pos hk, withTile, if_pos ht]
  exact if_pos ⟨hplain, harea, by rw [hspill]; rfl, hhigh, hany⟩

/-! ### Pointer resets (R259) -/

/-- Queue q of a tile after its pointer reset. -/
def resetQueue (q : RecvQueue) : RecvQueue :=
  markHigh { q with
    items := [], wr := 0, lost := q.lost + queueAcq q, tags := [], spill := [], spWr := 0, spilling := false, qreset := q.qreset + 1 }

/-- Queue k of tile t is reset, and the reset counted and recorded. -/
def resetTileQueue (s : State) (t k : Nat) : State :=
  let q := queueN (tileAt s t).net k
  resetRecord (setTile s t { tileAt s t with net := addSpoil (modQueue (tileAt s t).net k resetQueue) 5 (heldIn q) }) (.queue t) 1
    (if (launchOn s t).isSome then s.comp.getD 0 else 0) t (6 + 2 ^ 8 * k) (q.qreset.toNat + 1)

/-- Below its threshold, in no replayable section, a reset of a tile's queue has no further effect. -/
theorem exec_queuePointerReset_of_tile {s : State} {t k : Nat} (ht : t < 2304) (hk : k ≤ 15)
    (hbelow : overThreshold (resetTileQueue s t k) (.queue t) = false) (hplain : ((launchOn s t).all fun x => !imageRpl x.img) = true) :
    exec (.queuePointerReset (.tileQ t k)) s = .next (resetTileQueue s t k) := by
  show withQ16 k s (withTile s t _) = _
  rw [withQ16, if_pos hk, withTile, if_pos ht]
  refine (if_neg (ne_true_of_eq_false hbelow)).trans ?_
  cases hlaunch : launchOn s t with
  | none => rw [resetTileQueue, hlaunch]; rfl
  | some x =>
    rw [hlaunch] at hplain
    rw [resetTileQueue, hlaunch]
    exact if_pos (Or.inl hplain)

/-! ### The no-progress timer (R272) -/

/-- The timer of tile t has reached its limit. -/
def timerDue (s : State) (t : Nat) : Bool :=
  tileLive (tileAt s t) && !tilePaused s t && decide ((tileAt s t).net.npLimit ≠ 0) &&
    decide ((tileAt s t).net.npLimit.toNat ≤ (tileAt s t).net.npCount)

theorem timedOut_eq (s : State) (t : Nat) : timedOut s t = if timerDue s t then deadlockWait s t (tileAt s t) else none := by
  have hflip : timerDue s t = true ↔ ¬(!tileLive (tileAt s t) ∨ tilePaused s t ∨ (tileAt s t).net.npLimit = 0 ∨
      (tileAt s t).net.npCount < (tileAt s t).net.npLimit.toNat) := by
    simp [timerDue, and_assoc]
  rw [if_congr hflip rfl rfl, ite_not]
  rfl

theorem timedOut_isSome (s : State) (t : Nat) : (timedOut s t).isSome = (timerDue s t && (deadlockWait s t (tileAt s t)).isSome) := by
  rw [timedOut_eq]
  cases timerDue s t <;> rfl

/-- The records of tile t for the wait w: the DEADLOCK, then one for each own queue with a message waiting. -/
def waitRecords (s v : State) (t : Nat) (w : Option (Nat × Nat × Nat × Nat)) : State :=
  match w with
  | none => v
  | some (k, c, x, w) =>
    (portWaits s t).foldl (fun a p => jobRecord a 1 stDeadlock 2 t (6 + 2 ^ 8 * p.1) [p.2.1 + p.2.2 * 2 ^ 12, 0, 0, 0, nextSeq v % 2 ^ 32])
      (tileRecord v t 8 x { status := stDeadlock, detail := [k + c * 2 ^ 8 + (portWaits s t).length * 2 ^ 16, w] })

theorem deadlockRecords_of_due {s : State} {t : Nat} (h : timerDue s t = true) (v : State) :
    deadlockRecords s v t = waitRecords s v t (deadlockWait s t (tileAt s t)) := by
  have hwait : timedOut s t = deadlockWait s t (tileAt s t) := (timedOut_eq s t).trans (if_pos h)
  exact congrArg (waitRecords s v t) hwait

theorem exec_noProgressTimeout {s : State} {t : Nat} (ht : t < 2304) :
    exec (.noProgressTimeout t) s = if (timedOut s t).isNone then .next s
      else .next (failComputing ((t :: alsoTimedOut s t).foldl (deadlockRecords s) s) stDeadlock) := by
  show execNoProgressTimeout t s = _
  rw [execNoProgressTimeout, withTile, if_pos ht]

/-- Settles O24: each row under its condition; the timers of all tiles are read in the state before the row. -/
theorem queuesSpillResetAndTimeOut : Obligations.QueuesSpillResetAndTimeOut := by
  refine ⟨fun s t n ht hn => exec_spill_of_waited ht hn, ?hostFifo, fun s n => rfl, ?jorzinIn, ?tileQueue, ?timeout⟩
  case hostFifo => exact fun s p hp => if_pos hp
  case jorzinIn => exact fun s p v hp hv => (if_pos hp).trans (if_neg (Nat.not_lt.mpr hv))
  case tileQueue => exact fun s t n ht hn => exec_queuePointerReset_of_tile ht hn
  case timeout =>
    intro s t ht due one
    have hdue : ∀ u, (timedOut s u).isSome = due u := timedOut_isSome s
    have hnone : (timedOut s t).isNone = !due t := by rw [← hdue, Option.not_isSome]
    have hothers : alsoTimedOut s t = (s.tiles.map (·.1)).filter fun u => u ≠ t && due u := by
      simp only [alsoTimedOut, hdue]
    have hexec := exec_noProgressTimeout (s := s) ht
    refine ⟨fun hno => hexec.trans (if_pos (by rw [hnone, hno]; rfl)), fun hyes => ?_⟩
    have hrecorded : ∀ u ∈ t :: alsoTimedOut s t, due u = true := by
      rw [hothers]
      exact List.forall_mem_cons.mpr ⟨hyes, fun u hu => ((Bool.and_eq_true _ _).mp (List.mem_filter.mp hu).2).2⟩
    have hone : ∀ v, ∀ u ∈ t :: alsoTimedOut s t, deadlockRecords s v u = one v u := fun v u hu =>
      deadlockRecords_of_due ((Bool.and_eq_true _ _).mp (hrecorded u hu)).1 v
    refine hexec.trans ((if_neg (by rw [hnone, hyes]; decide)).trans ?_)
    rw [List.foldl_ext _ _ _ hone, hothers]

end Sys2Proof.Machine

/-! PROOF. Tallies and barriers: what serving waiters and each tally operation do, arrivals, releases and time limits of barriers, and
the host's packets about tallies, barriers and streams (11 R278 to R292, R294; 10 R257 to R260; 14 R337, R346). -/

namespace Sys2Proof.Machine

/-! ### Serving waiters from the oldest (R283) -/

/-- The amount a waiter asks for. -/
def waiterNeed : Waiter → Nat
  | .tile _ _ _ n => n
  | .host _ n => n

theorem serveWaiters_cons (v : Nat) (w : Waiter) (ws : List Waiter) :
    serveWaiters v (w :: ws) =
      if v < waiterNeed w then (v, w :: ws, [])
      else
        let r := serveWaiters (v - waiterNeed w) ws
        (r.1, r.2.1, w :: r.2.2) := by
  cases w <;> rfl

theorem serveWaiters_cons_of_lt {v : Nat} {w : Waiter} (ws : List Waiter) (h : v < waiterNeed w) :
    serveWaiters v (w :: ws) = (v, w :: ws, []) := (serveWaiters_cons v w ws).trans (if_pos h)

theorem serveWaiters_cons_of_le {v : Nat} {w : Waiter} (ws : List Waiter) (h : waiterNeed w ≤ v) :
    serveWaiters v (w :: ws) = ((serveWaiters (v - waiterNeed w) ws).1, (serveWaiters (v - waiterNeed w) ws).2.1,
      w :: (serveWaiters (v - waiterNeed w) ws).2.2) := (serveWaiters_cons v w ws).trans (if_neg (Nat.not_lt.mpr h))

theorem serveWaiters_served_append_left (v : Nat) (ws : List Waiter) : (serveWaiters v ws).2.2 ++ (serveWaiters v ws).2.1 = ws := by
  induction ws generalizing v with
  | nil => rfl
  | cons w ws ih =>
    rcases Nat.lt_or_ge v (waiterNeed w) with h | h
    · simp [serveWaiters_cons_of_lt ws h]
    · simp [serveWaiters_cons_of_le ws h, ih]

theorem serveWaiters_value_add_served (v : Nat) (ws : List Waiter) :
    (serveWaiters v ws).1 + ((serveWaiters v ws).2.2.map waiterNeed).sum = v := by
  induction ws generalizing v with
  | nil => rfl
  | cons w ws ih =>
    rcases Nat.lt_or_ge v (waiterNeed w) with h | h
    · simp [serveWaiters_cons_of_lt ws h]
    · have hrest := ih (v - waiterNeed w)
      simp only [serveWaiters_cons_of_le ws h, List.map_cons, List.sum_cons]
      omega

theorem serveWaiters_value_lt_oldest (v : Nat) (ws : List Waiter) :
    ∀ w, (serveWaiters v ws).2.1.head? = some w → (serveWaiters v ws).1 < waiterNeed w := by
  induction ws generalizing v with
  | nil => simp [serveWaiters]
  | cons w ws ih =>
    rcases Nat.lt_or_ge v (waiterNeed w) with h | h
    · simp [serveWaiters_cons_of_lt ws h, h]
    · simpa only [serveWaiters_cons_of_le ws h] using ih (v - waiterNeed w)

/-- Settles O27, by induction on the waiters: the oldest is either served, or stops the serving. -/
theorem waitersAreServedInOrder : Obligations.WaitersAreServedInOrder := by
  intro v ws need r
  have hneed : need = waiterNeed := funext fun w => by cases w <;> rfl
  rw [hneed]
  exact ⟨serveWaiters_served_append_left v ws, serveWaiters_value_add_served v ws, serveWaiters_value_lt_oldest v ws⟩

/-! ### Operations on a mapped tally (R282, R283, R285) -/

/-- Tally p of Level l after serving: its value and waiters are those of r, and the waiters served are replied to. -/
def servedState (s : State) (l p : Nat) (r : Nat × List Waiter × List Waiter) : State :=
  r.2.2.foldl replyWaiter (setTally s l p { tallyAt s l p with value := BitVec.ofNat 24 r.1, waiters := r.2.1 })

section Apply
variable {s : State} {v l p lim : Nat} (hmap : mapEntry s v = some (l, p, lim)) (n who : Nat) (w : Waiter)
include hmap

theorem tallyStatus_subtract :
    tallyStatus s 1 v n = if (tallyAt s l p).value.toNat < n then some stTallyUnderflow else none := by
  simp [tallyStatus, hmap]

theorem tallyStatus_add {op : Nat} (hop : op = 0 ∨ op = 3) :
    tallyStatus s op v n = if (tallyAt s l p).value.toNat + n > 0xFFFFFF ∨ (lim ≠ 0 ∧ (tallyAt s l p).value.toNat + n > lim)
      then some stTallyOverflow else none := by
  simp only [tallyStatus, hmap, if_pos hop]

theorem tallyStatus_wait : tallyStatus s 2 v n = if lim ≠ 0 ∧ n > lim then some stBadParam else none := by
  simp [tallyStatus, hmap]

theorem applyTally_of_refused {op st : Nat} (hst : tallyStatus s op v n = some st) :
    applyTally s op v n who w = tallyFatal s st l p v n who := by
  simp only [applyTally, hmap, hst]

theorem applyTally_of_accepted {op : Nat} (hst : tallyStatus s op v n = none) :
    applyTally s op v n who w =
      let y := tallyAt s l p
      if op = 1 then setTally s l p { y with value := BitVec.ofNat 24 (y.value.toNat - n) }
      else servedState s l p
        (if op = 2 then serveWaiters y.value.toNat (y.waiters ++ [w]) else serveWaiters (y.value.toNat + n) y.waiters) := by
  simp only [applyTally, hmap, hst]
  rfl

theorem applyTally_subtract :
    applyTally s 1 v n who w =
      let y := tallyAt s l p
      if y.value.toNat < n then tallyFatal s stTallyUnderflow l p v n who
      else setTally s l p { y with value := BitVec.ofNat 24 (y.value.toNat - n) } := by
  have hst := tallyStatus_subtract hmap n
  split at hst
  next hless => exact (applyTally_of_refused hmap n who w hst).trans (if_pos hless).symm
  next hcovered => exact (applyTally_of_accepted hmap n who w hst).trans (if_neg hcovered).symm

theorem applyTally_add {op : Nat} (hop : op = 0 ∨ op = 3) :
    applyTally s op v n who w =
      let y := tallyAt s l p
      if y.value.toNat + n > 0xFFFFFF ∨ (lim ≠ 0 ∧ y.value.toNat + n > lim) then tallyFatal s stTallyOverflow l p v n who
      else servedState s l p (serveWaiters (y.value.toNat + n) y.waiters) := by
  have hst := tallyStatus_add hmap n hop
  have hnotSubtract : op ≠ 1 := by omega
  have hnotWait : op ≠ 2 := by omega
  split at hst
  next hover => exact (applyTally_of_refused hmap n who w hst).trans (if_pos hover).symm
  next hfits =>
    refine (applyTally_of_accepted hmap n who w hst).trans ((if_neg hnotSubtract).trans ?_)
    rw [if_neg hnotWait]
    exact (if_neg hfits).symm

theorem applyTally_wait :
    applyTally s 2 v n who w =
      let y := tallyAt s l p
      if lim ≠ 0 ∧ n > lim then tallyFatal s stBadParam l p v n who
      else servedState s l p (serveWaiters y.value.toNat (y.waiters ++ [w])) := by
  have hst := tallyStatus_wait hmap n
  split at hst
  next hover => exact (applyTally_of_refused hmap n who w hst).trans (if_pos hover).symm
  next hwithin => exact (applyTally_of_accepted hmap n who w hst).trans (if_neg hwithin).symm

end Apply

/-! ### A tile's operation reaches its tally, and the satisfied reply the tile (R276, R284, R294) -/

/-- An operation of the tile's own, first of its tile and tally, is stale or applied. -/
theorem exec_tallyOperation_of_first {s : State} {i t op v n we q : Nat} (hctl : s.ctl[i]? = some (.tallyOp t op v n we q))
    (hfirst : tallyBehind s.ctl i (.tallyOp t op v n we q) = false) :
    exec (.tallyOperation i) s =
      let u : State := { s with ctl := dropAt s.ctl i }
      if we ≠ workEpoch s then .next (modLevel u (homeLevel s v t) fun l => { l with stale := l.stale + 1 })
      else .next (applyTally u op v n (requester t q (op = 3)) (.tile t q v n)) := by
  show execTallyOperation i s = _
  simp only [execTallyOperation, hctl, hfirst, Bool.false_eq_true, if_false]

theorem exec_twaitSatisfied_of_head {s : State} {i t q v : Nat} {e : QEntry} (hctl : s.ctl[i]? = some (.twaitReply t q v))
    (hhead : headIs (tileAt s t) q 0x31 = some e) (hleave : leaveWait s t = false) (hsent : e.sent = true) (hv : fld e.word 43 32 = v) :
    exec (.twaitSatisfied i) s = .next (setTile { s with ctl := dropAt s.ctl i } t (popHead (tileAt s t) q)) := by
  show execTwaitSatisfied i s = _
  simp only [execTwaitSatisfied, hctl, hleave, hhead, hsent, hv, and_self, Bool.false_eq_true, if_false, if_true]

/-- Settles O26: a stale operation is only counted; for the others, whether the subtraction, the addition or the wait is refused. -/
theorem tallyOperationsApply : Obligations.TallyOperationsApply := by
  refine ⟨?operation, fun s i t q v e hctl hhead hleave hsent hv => exec_twaitSatisfied_of_head hctl hhead hleave hsent hv⟩
  intro s i t op v n we q hctl hfirst _ u
  have hexec := exec_tallyOperation_of_first hctl hfirst
  refine ⟨fun hstale => hexec.trans (if_pos hstale), fun l p lim hepoch hmap => ?_⟩
  intro y x
  have hmap : mapEntry u v = some (l, p, lim) := hmap
  have happly : ∀ {a}, applyTally u op v n (requester t q (op = 3)) (.tile t q v n) = a → exec (.tallyOperation i) s = .next a :=
    fun ha => (hexec.trans (if_neg (not_not.mpr hepoch))).trans (congrArg _ ha)
  refine ⟨?subtracts, ?underflows, ?adds, ?overflows, ?waitsTooMuch, ?waits⟩
  case subtracts =>
    rintro rfl hle
    exact happly ((applyTally_subtract hmap n _ _).trans (if_neg (Nat.not_lt.mpr hle)))
  case underflows =>
    rintro rfl hlt
    exact happly ((applyTally_subtract hmap n _ _).trans (if_pos hlt))
  case adds =>
    intro hop hword hlim
    have hfits : ¬(x + n > 0xFFFFFF ∨ (lim ≠ 0 ∧ x + n > lim)) := by omega
    exact happly ((applyTally_add hmap n _ _ hop).trans (if_neg hfits))
  case overflows =>
    exact fun hop hover => happly ((applyTally_add hmap n _ _ hop).trans (if_pos hover))
  case waitsTooMuch =>
    rintro rfl hlim hover
    exact happly ((applyTally_wait hmap n _ _).trans (if_pos ⟨hlim, hover⟩))
  case waits =>
    rintro rfl hlim
    have hwithin : ¬(lim ≠ 0 ∧ n > lim) := by omega
    exact happly ((applyTally_wait hmap n _ _).trans (if_neg hwithin))

/-! ### Barriers (R289 to R292) -/

theorem missing_eq_nil_iff (b : Barrier) : missing b = [] ↔ barFull b = true := by
  simp [missing, barFull, List.filter_eq_nil_iff]

/-- A cascade barrier that is stored drives its output, where no spare stands for a tile (18 R426). -/
theorem barrierAt_setBarrier_cascade {s : State} {bid : Nat} (hbid : 64 ≤ bid) (b : Barrier) (hsubst : s.subst = [])
    (hsorted : arrSorted s.cbar = true) :
    barrierAt (setBarrier s bid b) bid = { b with out := shbarOut s (bid - 64) b } := by
  have hcascade : ¬bid < 64 := Nat.not_lt.mpr hbid
  simp only [setBarrier, barrierAt, if_neg hcascade, hsubst, List.foldl_nil]
  exact arrGet_arrSet_self _ _ _ _ hsorted

/-- The barrier with the arrival of tile t, the first of its phase at the shaft count given. -/
def withArrival (b : Barrier) (t now : Nat) : Barrier :=
  { b with arr := if b.arr.contains t then b.arr else t :: b.arr, first := some (b.first.getD now) }

section Arrival
variable {s : State} {i t b q : Nat} (hctl : s.ctl[i]? = some (.arrival t b q))
include hctl

theorem exec_barrierArrival_of_refused (hok : barOk s b t = false) :
    exec (.barrierArrival i) s = .next (barFatal { s with ctl := dropAt s.ctl i } t q b) := by
  show execBarrierArrival i s = _
  simp only [execBarrierArrival, hctl, hok, Bool.not_false, if_true]

theorem exec_barrierArrival_of_ok (hok : barOk s b t = true) :
    exec (.barrierArrival i) s =
      let u : State := { s with ctl := dropAt s.ctl i }
      let x1 := withArrival (barrierAt u b) t (shaftCount s)
      .next (if b < 64 && barFull x1 then completePhase (setBarrier u b x1) b else setBarrier u b x1) := by
  show execBarrierArrival i s = _
  simp only [execBarrierArrival, hctl, hok, Bool.not_true, Bool.false_eq_true, if_false]
  rfl

end Arrival

theorem exec_barrierRelease_of_ctl {s : State} {i t b ph : Nat} (hctl : s.ctl[i]? = some (.release t b ph)) :
    exec (.barrierRelease i) s = .next (modTile { s with ctl := dropAt s.ctl i } t fun tl =>
      { tl with net := { tl.net with arrived := arrSet tl.net.arrived b (ph, true) (0, true) } }) := by
  show execBarrierRelease i s = _
  simp only [execBarrierRelease, hctl]

/-- A defined barrier whose first arrival is TMO ticks old is recorded with its missing members and fails the job (R291). -/
theorem exec_barrierTimeout_of_due {s : State} {b f : Nat} (hb : b < 68) (hfirst : (barrierAt s b).first = some f)
    (hen : (barrierAt s b).en = true) (htmo : (barrierAt s b).tmo ≠ 0) (hdue : f + (barrierAt s b).tmo.toNat ≤ shaftCount s) :
    exec (.barrierTimeout b) s =
      let x := barrierAt s b
      let ms := missing x
      let lvl := if b < 64 then b / 16 else 4
      let v := setBarrier (levelRecord s stDeadlock lvl (1 + 4 * b)
        ((x.phase.toNat + ms.length * 2 ^ 16) :: missingWords (ms.take 8))) b { x with first := none }
      .next (failComputing (if ms.length ≤ 8 then v else
        jobRecord v 5 stDeadlock 2 lvl (1 + 4 * b) (nextSeq s % 2 ^ 32 :: missingWords ((ms.drop 8).take 8))) stDeadlock) := by
  have hstands : ¬((!(barrierAt s b).en) = true ∨ (barrierAt s b).tmo = 0 ∨ shaftCount s < f + (barrierAt s b).tmo.toNat) :=
    not_or.mpr ⟨by simp [hen], not_or.mpr ⟨htmo, Nat.not_lt.mpr hdue⟩⟩
  show execBarrierTimeout b s = _
  simp only [execBarrierTimeout, if_neg (Nat.not_le.mpr hb), hfirst, if_neg hstands]

/-- Settles O28: an arrival is refused, or leaves the barrier full or not; a cascade barrier's output follows what is stored. -/
theorem barriersCollectAndRelease : Obligations.BarriersCollectAndRelease := by
  refine ⟨?arrival, fun s i t b ph hctl => exec_barrierRelease_of_ctl hctl,
    fun s b f hb hfirst hen htmo hdue => exec_barrierTimeout_of_due hb hfirst hen htmo hdue⟩
  intro s i t b q hctl u
  refine ⟨fun hok => exec_barrierArrival_of_refused hctl hok, fun hok => ?_⟩
  intro x x1 v
  have hexec := exec_barrierArrival_of_ok hctl hok
  refine ⟨fun hsome => ?missing, fun hnone hdevice => ?full, fun hnone hcascade => ⟨?stored, fun hsubst hsorted => ?released⟩⟩
  case missing =>
    have hopen : barFull x1 ≠ true := fun h => hsome ((missing_eq_nil_iff x1).mpr h)
    exact hexec.trans (congrArg _ (if_neg fun h => hopen ((Bool.and_eq_true _ _).mp h).2))
  case full =>
    have hfull : (decide (b < 64) && barFull x1) = true := by simp [hdevice, (missing_eq_nil_iff x1).mp hnone]
    exact hexec.trans (congrArg _ (if_pos hfull))
  case stored =>
    have hshared : (decide (b < 64) && barFull x1) ≠ true := by simp [hcascade]
    exact hexec.trans (congrArg _ (if_neg hshared))
  case released =>
    have hstored : barrierAt v b = { x1 with out := shbarOut u (b - 64) x1 } := barrierAt_setBarrier_cascade hcascade x1 hsubst hsorted
    rw [hstored]
    simp [shbarOut, (missing_eq_nil_iff x1).mp hnone]

/-! ### The host's tally and barrier packets (R278 to R285, R290; 15 R356) -/

theorem jobActs_of_computing {s : State} {j : Nat} (hcomp : s.comp = some j) (hsw : switchingNow s = false) : jobActs s j = true := by
  simp [jobActs, hcomp, hsw]

theorem tallyField_eq_none {x : Packet} (hid : pfld x 0x10 2 ≤ 4095) (hzero : pfld x 0x17 1 = 0) : tallyField x = none :=
  (if_neg (Nat.not_lt.mpr hid)).trans (if_neg (not_not.mpr hzero))

section TallyPackets
variable {s : State} {k : Nat} {x : Packet} {j : Job} (hcomp : s.comp = some j.id) (hsw : switchingNow s = false)
include hcomp hsw

theorem tallyHeld_eq_false (hsent : x.sent = false) (hreplay : replayRunning s j.id = false) : tallyHeld s x j.id = false := by
  simp [tallyHeld, hsent, jobActs_of_computing hcomp hsw, hreplay]

section Map
variable (htaken : TakenJob s k 0x0400 x j) (hidle : jobRunning s j.id = false)
include htaken hidle

theorem exec_tallyMap_of_badField {o : Nat} (hfield : mapField s x = some o) :
    exec (.tallyMap k) s = .next (refuse s k stBadParam o) := by
  show execTallyMap k s = _
  simp only [execTallyMap, withJob_of_taken htaken, jobActs_of_computing hcomp hsw, hidle, hfield, badField, Bool.not_true,
    Bool.false_eq_true, if_false]

theorem exec_tallyMap_of_fields (hfield : mapField s x = none) :
    exec (.tallyMap k) s = .next (replyOk ((mapEntries x).foldl (fun a e => writeMap a e.1 e.2) (early s x)) k 0 0) := by
  show execTallyMap k s = _
  simp only [execTallyMap, withJob_of_taken htaken, jobActs_of_computing hcomp hsw, hidle, hfield, Bool.not_true,
    Bool.false_eq_true, if_false]

end Map

section Operation
variable (hfield : tallyField x = none) (hsent : x.sent = false) (hreplay : replayRunning s j.id = false)
include hfield hsent hreplay

theorem exec_tallySignal_of_free (htaken : TakenJob s k 0x0401 x j) :
    exec (.tallySignal k) s = .next (hostTally s k 0 (pfld x 0x10 2) (pfld x 0x14 3) x) := by
  show execTallySignal k s = _
  simp only [execTallySignal, withJob_of_taken htaken, hfield, tallyHeld_eq_false hcomp hsw hsent hreplay, Bool.false_eq_true, if_false]

theorem exec_tallyWait_of_free (htaken : TakenJob s k 0x0402 x j) (hroom : waitsOf s x.port < 64) :
    exec (.tallyWait k) s = .next (hostTally s k 2 (pfld x 0x10 2) (pfld x 0x14 3) x) := by
  have hgoes : ¬(tallyHeld s x j.id = true ∨ waitsOf s x.port ≥ 64) := by
    simp [tallyHeld_eq_false hcomp hsw hsent hreplay, hroom]
  show execTallyWait k s = _
  simp only [execTallyWait, withJob_of_taken htaken, hfield, if_neg hgoes]

end Operation

theorem exec_barrierDefine_of_empty (htaken : TakenJob s k 0x0403 x j) (hbid : pfld x 0x10 1 ≤ 67) (hen : pfld x 0x11 1 ≤ 1)
    (hempty : (barrierAt s (pfld x 0x10 1)).arr = []) :
    exec (.barrierDefine k) s = .next (replyOk (setBarrier (early s x) (pfld x 0x10 1) { barrierAt s (pfld x 0x10 1) with
      en := pfld x 0x11 1 = 1, tmo := BitVec.ofNat 32 (pfld x 0x14 4), bmask := BitVec.ofNat 144 (pfld x 0x20 18)
      tmask := (List.range 144).foldl (fun m i => arrSet m i (BitVec.ofNat 16 (pfld x (0x40 + 2 * i) 2)) 0) [] }) k 0 0) := by
  show execBarrierDefine k s = _
  simp only [execBarrierDefine, withJob_of_taken htaken, jobActs_of_computing hcomp hsw, hempty, if_neg (Nat.not_lt.mpr hbid),
    if_neg (Nat.not_lt.mpr hen), List.isEmpty_nil, Bool.not_true, Bool.false_eq_true, if_false]

end TallyPackets

/-! ### The host stream's packets (R346; 10 R257 to R260) -/

/-- Another STREAM_SUBMIT of the port is in progress. -/
def streamBusy (s : State) (k : Nat) (x : Packet) : Bool :=
  s.out.any fun y => y.port = x.port && y.ticket ≠ k && y.sent && pOpcode y = 0x0500

/-- Bytes of a STREAM_SUBMIT that are not sent yet. -/
def streamLeft (x : Packet) : Nat := pfld x 0x20 8 - 32 * pfld x 0x19 1 * x.count

/-- What sending from the FIFO gives: the state, the bytes left and the messages sent. -/
def streamSent (s : State) (x : Packet) : State × Nat × Nat :=
  streamSend (pfld x 0x10 8) (pfld x 0x18 1) (pfld x 0x19 1) x.port ((portN s x.port).fifo.bytes.length / 32 + 1) (streamLeft x) x.count
    (early s x)

/-- The packet remembers the messages sent, and the FIFO's marks follow its occupancy. -/
def streamMarked (s : State) (k : Nat) (x : Packet) : State :=
  fifoMark (modPacket (streamSent s x).1 k fun y => { y with sent := true, count := (streamSent s x).2.2 }) x.port

/-- A STREAM_SUBMIT with valid fields, which nothing holds and whose threshold stands in the FIFO, sends (R346). -/
theorem exec_streamSubmit_of_sends {s : State} {k : Nat} {x : Packet} {j : Job} (htaken : TakenJob s k 0x0500 x j)
    (hdev : nbits (pfld x 0x10 8) 63 38 = 0) (htile : nbits (pfld x 0x10 8) 31 20 ≤ 2303) (hmin : 1 ≤ pfld x 0x19 1)
    (hmax : pfld x 0x19 1 ≤ 64) (hlen : pfld x 0x20 8 % 32 = 0) (hsw : switchingNow s = false) (hstate : j.state ≠ .preempted)
    (hbusy : streamBusy s k x = false)
    (hthr : x.sent = true ∨ min (portN s x.port).fifo.thr (streamLeft x / 32) ≤ fifoOcc (portN s x.port).fifo) :
    exec (.streamSubmit k) s = .next (if (streamSent s x).2.1 = 0 then replyOk (streamMarked s k x) k (streamSent s x).2.2 0
      else streamMarked s k x) := by
  have hdest : ¬(nbits (pfld x 0x10 8) 63 38 ≠ 0 ∨ nbits (pfld x 0x10 8) 31 20 > 2303) := by omega
  have hmsg : ¬(pfld x 0x19 1 < 1 ∨ pfld x 0x19 1 > 64) := by omega
  have hgoes : ¬(switchingNow s = true ∨ j.state = .preempted ∨ streamBusy s k x = true) := by simp [hsw, hstate, hbusy]
  have hfilled : ¬((!x.sent) = true ∧ fifoOcc (portN s x.port).fifo < min (portN s x.port).fifo.thr (streamLeft x / 32)) := by
    rintro ⟨hunsent, hbelow⟩
    rcases hthr with hsent | hstands
    · simp [hsent] at hunsent
    · exact Nat.not_lt.mpr hstands hbelow
  show execStreamSubmit k s = _
  rw [execStreamSubmit, withJob_of_taken htaken]
  refine (if_neg hdest).trans ((if_neg hmsg).trans ((if_neg (not_not.mpr hlen)).trans ((if_neg hgoes).trans ?_)))
  exact if_neg hfilled

section FifoConfig
variable {s : State} {k : Nat} {x : Packet} (htaken : Taken s k 0x0501 x)
include htaken

theorem exec_hostfifoConfig_of_highMark (hhigh : 262144 < pfld x 0x10 4) :
    exec (.hostfifoConfig k) s = .next (refuse s k stBadParam 0x10) := by
  show execHostfifoConfig k s = _
  rw [execHostfifoConfig, withCmd_of_taken htaken]
  exact if_pos hhigh

theorem exec_hostfifoConfig_of_marks (hhigh : pfld x 0x10 4 ≤ 262144) (hlow : pfld x 0x14 4 < pfld x 0x10 4) :
    exec (.hostfifoConfig k) s = .next (replyOk (fifoMark (modPort (early s x) x.port fun p =>
      { p with fifo := { p.fifo with hwm := pfld x 0x10 4, lwm := pfld x 0x14 4, thr := pfld x 0x18 4 } }) x.port) k 0 0) := by
  show execHostfifoConfig k s = _
  rw [execHostfifoConfig, withCmd_of_taken htaken]
  exact (if_neg (Nat.not_lt.mpr hhigh)).trans (if_neg (Nat.not_le.mpr hlow))

end FifoConfig

/-- Settles O39: each packet passes the checks of its row, or is refused by the one that its field fails. -/
theorem hostTalliesBarriersAndStreams : Obligations.HostTalliesBarriersAndStreams := by
  refine ⟨fun s k x j htaken hcomp hsw hidle => ⟨fun o hfield => exec_tallyMap_of_badField hcomp hsw htaken hidle hfield,
      fun hfield => exec_tallyMap_of_fields hcomp hsw htaken hidle hfield⟩, ?operation,
    fun s k x j htaken hbid hen hcomp hsw hempty => exec_barrierDefine_of_empty hcomp hsw htaken hbid hen hempty, ?stream,
    fun s k x htaken => ⟨exec_hostfifoConfig_of_highMark htaken, exec_hostfifoConfig_of_marks htaken⟩⟩
  case operation =>
    intro s k x j wait htaken hid hzero hsent hcomp hsw hreplay hroom
    have hfield : tallyField x = none := tallyField_eq_none hid hzero
    cases wait with
    | false => exact exec_tallySignal_of_free hcomp hsw hfield hsent hreplay htaken
    | true => exact exec_tallyWait_of_free hcomp hsw hfield hsent hreplay htaken (hroom rfl)
  case stream =>
    intro s k x j htaken dest msg len f hdev htile hmin hmax hlen hsw hstate hbusy left hthr
    exact exec_streamSubmit_of_sends htaken hdev htile hmin hmax hlen hsw hstate hbusy hthr

end Sys2Proof.Machine

/-! PROOF. The load of a configuration image, row by row: its checks, its mode phase and the records of its write phase
(12 R302 to R313, 09 R224, 18 R429). -/

namespace Sys2Proof.Machine

/-! ### The mode phase (R309) -/

section ModePhase
variable {s : State} {l : Load} {t : Nat}

theorem modePhase_quiesced_of_busy (hbusy : unquiesced s l.img.rect = some t) :
    modePhase s l 0 = refuse s l.ticket stTokensPresent t := by simp [modePhase, hbusy]

theorem modePhase_drain_of_busy (hbusy : unquiesced s l.img.rect = some t) : modePhase s l 1 = { s with load := some l } := by
  simp [modePhase, hbusy]

theorem modePhase_of_quiet {mode : Nat} (hmode : mode ≤ 1) (hquiet : unquiesced s l.img.rect = none) :
    modePhase s l mode = startWrite s l := by
  have hkeeps : mode ≠ 2 := by omega
  simp [modePhase, hkeeps, hquiet]

theorem modePhase_discard (s : State) (l : Load) :
    modePhase s l 2 = if (discardRegion s l.img.rect).1.comp = s.comp
      then startWrite (discardRegion s l.img.rect).1 { l with tokens := (discardRegion s l.img.rect).2 }
      else (discardRegion s l.img.rect).1 := by
  simp only [modePhase, if_true, ite_not]

end ModePhase

/-! ### SECTION_LOAD: a lost line, a failing check, or the mode phase (R306 to R309) -/

/-- The load of an image whose verify phase has passed: nothing is written, nothing discarded. -/
def loadVerified (k : Nat) (img : Image) : Load := { ticket := k, img := img, phase := .drain, index := 0, off := 256, tokens := 0 }

/-- What a SECTION_LOAD does with an image that it may read: the verify phase, and when it passes the mode phase. -/
def loadImage (s : State) (k : Nat) (x : Packet) (img : Image) (room : Nat) (ok : Bool) : State :=
  match loadLost s img room with
  | some a => memFatal s a false
  | none =>
    match verifyImage s img room ok with
    | .error e => refuse (imageRead s img room) k e.1 e.2
    | .ok _ => modePhase (early (imageRead s img room) x) (loadVerified k img) (pfld x 0x20 1)

section LoadImage
variable {s : State} {k : Nat} {x : Packet} {img : Image} {room : Nat} {ok : Bool}

theorem loadImage_of_lost {a : Nat} (hlost : loadLost s img room = some a) : loadImage s k x img room ok = memFatal s a false := by
  simp only [loadImage, hlost]

theorem loadImage_of_refused {e : Nat × Nat} (hlost : loadLost s img room = none) (hverify : verifyImage s img room ok = .error e) :
    loadImage s k x img room ok = refuse (imageRead s img room) k e.1 e.2 := by
  simp only [loadImage, hlost, hverify]

theorem loadImage_of_verified {rs : List Rec} (hlost : loadLost s img room = none) (hverify : verifyImage s img room ok = .ok rs) :
    loadImage s k x img room ok = modePhase (early (imageRead s img room) x) (loadVerified k img) (pfld x 0x20 1) := by
  simp only [loadImage, hlost, hverify]

end LoadImage

/-- A SECTION_LOAD of the computing job whose image lies in its region, with nothing to wait for, goes on to the image. -/
theorem exec_sectionLoad_of_region {s : State} {k : Nat} {x : Packet} {j : Job} {ok : Bool} {r : Region} {img : Image}
    (htaken : TakenJob s k 0x0300 x j) (hload : s.load = none) (hcomp : s.comp = some j.id) (hmode : pfld x 0x20 1 ≤ 2)
    (hregion : regionBase s j.id (pfld x 0x10 8) = some r) (hroom : pfld x 0x18 8 + 256 ≤ visibleBytes r) (hresets : s.resets = [])
    (hwake : s.s2 = []) (hstays : leaving s j.id = false)
    (himg : imageOf j.id r.base (r.base + pfld x 0x18 8) (memRead s (r.base + pfld x 0x18 8) 256) = img) :
    exec (.sectionLoad k ok) s = .next (loadImage s k x img (visibleBytes r - pfld x 0x18 8) ok) := by
  have hfree : ¬(s.load.isSome = true ∨ leaving s j.id = true) := by simp [hload, hstays]
  have hready : ¬((!s.resets.isEmpty) = true ∨ s.s2.any (rectMeetsLevel img.rect) = true) := by simp [hresets, hwake]
  show execSectionLoad k ok s = _
  simp only [execSectionLoad, withJob_of_taken htaken, if_neg hfree, if_neg (not_not.mpr hcomp), if_neg (Nat.not_lt.mpr hmode), hregion,
    if_neg (Nat.not_lt.mpr hroom), himg, if_neg hready]
  cases hlost : loadLost s img (visibleBytes r - pfld x 0x18 8) with
  | some a => rw [loadImage_of_lost hlost]
  | none =>
    cases hverify : verifyImage s img (visibleBytes r - pfld x 0x18 8) ok with
    | error e => rw [loadImage_of_refused hlost hverify]
    | ok rs => rw [loadImage_of_verified hlost hverify, loadVerified]

/-! ### The end of the drain (R309) -/

section Drain
variable {s : State} {l : Load} (hload : s.load = some l) (hphase : l.phase = .drain)
include hload hphase

theorem exec_loadDrainDone_of_quiet (hquiet : unquiesced s l.img.rect = none) : exec .loadDrainDone s = .next (startWrite s l) := by
  show execLoadDrainDone s = _
  simp [execLoadDrainDone, hload, hphase, hquiet]

theorem exec_loadDrainTimeout_of_busy {t : Nat} (hbusy : unquiesced s l.img.rect = some t) :
    exec .loadDrainTimeout s = .next (refuse { s with
      load := none, paused := s.paused ++ (goodTiles s l.img.rect).filter fun u => !s.paused.contains u } l.ticket stDrainTimeout t) := by
  show execLoadDrainTimeout s = _
  simp [execLoadDrainTimeout, hload, hphase, hbusy]

end Drain

/-! ### The records of the write phase (R302 to R305, R311, R312) -/

section NextRecord
variable {s : State} {l : Load} {r : Rec} {p : Rec → Bool} {f : Load → Rec → State} (hload : s.load = some l)
include hload

theorem withRecord_of_lost {a : Nat} (hlost : recordLost s l = some a) : withRecord s p f = .next (memFatal s a false) := by
  simp only [withRecord, hload, hlost]

variable (hread : recordLost s l = none) (hnext : nextRecord s l = some r) (hkind : p r = true)
include hread hnext hkind

theorem withRecord_of_outside (hlies : recLies l.img r = false) : withRecord s p f = .next (abortLoad s l stRegionViolation) := by
  simp [withRecord, hload, hread, hnext, hkind, hlies]

theorem withRecord_of_inside (hlies : recLies l.img r = true) : withRecord s p f = .next (f l r) := by
  simp [withRecord, hload, hread, hnext, hkind, hlies]

end NextRecord

section RecordStep
variable {s : State} {l : Load} {r : Rec} {ts : List Nat} {off : Nat} {f : State}

theorem recordStep_of_sound (hsound : recordBreaks s ts off r = none) : recordStep s l r ts off f = stepRecord f l r := by
  simp only [recordStep, hsound]

theorem recordStep_of_breaks {t : Nat} {e : TErr} (hbreaks : recordBreaks s ts off r = some (t, e)) (hcomp : s.comp.isSome = true) :
    recordStep s l r ts off f = tileFatal s t 8 0xFFFF e := by
  simp only [recordStep, hbreaks, hcomp, if_true]

end RecordStep

/-- The tile that holds the control-space address of a WRITE record, or its substitute (R304). -/
def writeTile (s : State) (r : Rec) : Nat := substT s ((recAddr r - 0x090000000000) / 0x10000)

/-- A WRITE record tests its tile when it names a good one, and no tile otherwise. -/
theorem recordBreaks_writeTile {s : State} {r : Rec}
    (hsound : isCtl (recAddr r) = true → recordBreaks s [writeTile s r] (recAddr r % 0x10000) r = none) :
    recordBreaks s (if isCtl (recAddr r) && !tileRetired s (writeTile s r) then [writeTile s r] else []) (recAddr r % 0x10000) r = none := by
  split
  next htests => exact hsound (Bool.and_eq_true_iff.mp htests).1
  next => rfl

/-- The row of a command record takes it by its kind and its OP. -/
theorem isCommand_of_op {r : Rec} {n : Nat} (hkind : recFrame r = false) (hop : recOp r = n) : (!recFrame r && decide (recOp r = n)) = true := by
  simp [hkind, hop]

section Records
variable {s : State} {l : Load} {r : Rec} (hload : s.load = some l) (hread : recordLost s l = none) (hnext : nextRecord s l = some r)
  (hlies : recLies l.img r = true)
include hload hread hnext hlies

theorem exec_commandRecordWrite_of_sound (hkind : recFrame r = false) (hop : recOp r = 1)
    (hsound : isCtl (recAddr r) = true → recordBreaks s [writeTile s r] (recAddr r % 0x10000) r = none) :
    exec .commandRecordWrite s = .next (stepRecord (recordWrite s r) l r) :=
  (withRecord_of_inside hload hread hnext (isCommand_of_op hkind hop) hlies).trans
    (congrArg Host.Outcome.next (recordStep_of_sound (recordBreaks_writeTile hsound)))

section Bcast
variable (hkind : recFrame r = false) (hop : recOp r = 2)
include hkind hop

theorem exec_commandRecordBcast_of_sound (hsound : recordBreaks s (goodTiles s (recRect r)) (recAddr r) r = none) :
    exec .commandRecordBcast s = .next (stepRecord
      ((goodTiles s (recRect r)).foldl (fun s t => modTile s t (recordTile (jobSplit s) (recAddr r) r)) s) l r) :=
  (withRecord_of_inside hload hread hnext (isCommand_of_op hkind hop) hlies).trans (by rw [recordStep_of_sound hsound])

theorem exec_commandRecordBcast_of_breaks {t : Nat} {e : TErr}
    (hbreaks : recordBreaks s (goodTiles s (recRect r)) (recAddr r) r = some (t, e)) (hcomp : s.comp.isSome = true) :
    exec .commandRecordBcast s = .next (tileFatal s t 8 0xFFFF e) :=
  (withRecord_of_inside hload hread hnext (isCommand_of_op hkind hop) hlies).trans
    (by rw [recordStep_of_breaks hbreaks hcomp])

end Bcast

section Wait
variable (hkind : recFrame r = false) (hop : recOp r = 3)
include hkind hop

theorem exec_commandRecordWait_of_inside :
    exec .commandRecordWait s = .next (if waitMet s r then stepRecord s l r else s) :=
  withRecord_of_inside hload hread hnext (isCommand_of_op hkind hop) hlies

theorem exec_loadWaitTimeout_of_inside :
    exec .loadWaitTimeout s = .next (if waitMet s r then s else abortLoad s l stDrainTimeout) :=
  withRecord_of_inside hload hread hnext (isCommand_of_op hkind hop) hlies

end Wait

end Records

/-- Settles O36: a load verifies its image and prepares its region, then takes its records one by one. -/
theorem loadsVerifyDrainAndWrite : Obligations.LoadsVerifyDrainAndWrite := by
  refine ⟨?load, fun s l hload hphase => ⟨exec_loadDrainDone_of_quiet hload hphase, fun t => exec_loadDrainTimeout_of_busy hload hphase⟩,
    fun s l a hload hlost => withRecord_of_lost hload hlost, ?records⟩
  case load =>
    intro s k x j ok r htaken hload hcomp hmode hregion hroom hresets hwake hstays off img
    have hexec : exec (.sectionLoad k ok) s = .next (loadImage s k x img (visibleBytes r - off) ok) :=
      exec_sectionLoad_of_region htaken hload hcomp hmode hregion hroom hresets hwake hstays rfl
    refine ⟨fun a hlost => by rw [hexec, loadImage_of_lost hlost], ?_⟩
    intro hlost l v u
    refine ⟨fun e hverify => by rw [hexec, loadImage_of_refused hlost hverify], fun rs hverify => ?_⟩
    have hphase : exec (.sectionLoad k ok) s = .next (modePhase u l (pfld x 0x20 1)) := by
      rw [hexec, loadImage_of_verified hlost hverify]; rfl
    refine ⟨fun t hzero hbusy => ?_, fun hkeeps hquiet => ?_, fun t hone hbusy => ?_, fun htwo => ?_⟩
    · rw [hphase, hzero, modePhase_quiesced_of_busy (l := l) hbusy]
    · rw [hphase, modePhase_of_quiet (l := l) hkeeps hquiet]
    · rw [hphase, hone, modePhase_drain_of_busy (l := l) hbusy]
    · rw [hphase, htwo, modePhase_discard]
  case records =>
    intro s l r hload hread hnext
    constructor
    · intro hlies
      exact ⟨fun hkind => withRecord_of_outside hload hread hnext hkind hlies,
        fun hkind hop => withRecord_of_outside hload hread hnext (isCommand_of_op hkind hop) hlies,
        fun hkind hop => withRecord_of_outside hload hread hnext (isCommand_of_op hkind hop) hlies,
        fun hkind hop => withRecord_of_outside hload hread hnext (isCommand_of_op hkind hop) hlies⟩
    · intro hlies
      refine ⟨fun hkind => withRecord_of_inside hload hread hnext hkind hlies,
        exec_commandRecordWrite_of_sound hload hread hnext hlies,
        exec_commandRecordBcast_of_sound hload hread hnext hlies,
        fun t e hkind hop => exec_commandRecordBcast_of_breaks hload hread hnext hlies hkind hop,
        fun hkind hop => ⟨fun hmet => ?_, fun hunmet => ⟨?_, ?_⟩⟩⟩
      · rw [exec_commandRecordWait_of_inside hload hread hnext hlies hkind hop, if_pos hmet]
      · rw [exec_commandRecordWait_of_inside hload hread hnext hlies hkind hop, hunmet, if_neg Bool.false_ne_true]
      · rw [exec_loadWaitTimeout_of_inside hload hread hnext hlies hkind hop, hunmet, if_neg Bool.false_ne_true]

end Sys2Proof.Machine

/-! PROOF. Records that name no job, and the taking of packets with their checks (14 R324, R325, R327, R329, R332, R334, R346, R352). -/

namespace Sys2Proof.Machine

/-! ### Records that name no job (R334) -/

/-- The two MSI-X messages of an error at a port whose link is up (R352). -/
def errorSignals (s : State) (p : Nat) : List Msi :=
  if (portN s p).link then [{ port := p, pf := 0, vec := 1016 }, { port := p, pf := 1, vec := 1 }] else []

theorem signalError_eq (s : State) (p : Nat) : signalError s p = { s with msi := s.msi ++ errorSignals s p } := by
  cases hlink : (portN s p).link with
  | false => simp [signalError, signal, errorSignals, hlink]
  | true =>
    have hkept : (portN { s with msi := s.msi ++ [{ port := p, pf := 0, vec := 1016 }] } p).link = true := hlink
    simp [signalError, signal, errorSignals, hlink, hkept]

theorem addRecord_of_no_job {s : State} {status sev : Nat} {lasting summary : Bool} {src job loc0 loc1 : Nat} {detail : List Nat}
    (h : job = 0 ∨ sev = 3) :
    addRecord s status sev lasting summary src job loc0 loc1 detail =
      { putRecord s status sev lasting summary src job loc0 loc1 detail with
        msi := s.msi ++ (errorSignals s 0 ++ errorSignals s 1) } := by
  simp only [addRecord, if_pos h, signalError_eq, List.append_assoc]
  rfl

/-- Settles O56: neither the ring nor the two ports' signals touch a queue. -/
theorem recordsOfNoJobAreSignalled : Obligations.RecordsOfNoJobAreSignalled := by
  intro s status sev lasting summary src job loc0 loc1 detail hnone u
  have hu : u = _ := addRecord_of_no_job hnone
  rw [hu]
  refine ⟨rfl, rfl, rfl, rfl, ?ring, ?signals⟩
  case ring => simp [putRecord]
  case signals => simp [errorSignals, List.range_succ]

/-! ### The taking of a packet (R324, R325, R329, R332, R346) -/

theorem withPq_of_le {p q : Nat} (hp : p ≤ 1) (hq : q ≤ 16) (o : Outcome) : withPq p q o = o := by
  rw [withPq, if_neg (Nat.not_lt.mpr hp), if_neg (Nat.not_lt.mpr hq)]

section TakePacket
variable {s : State} {x : Packet}

theorem takePacket_of_badForm {e : Nat × Nat} (hform : checkForm s x = some e) : takePacket s x = replyPacket s x e.1 e.2 0 0 := by
  simp only [takePacket, hform]

variable (hform : checkForm s x = none)
include hform

theorem takePacket_of_forward (hdev : devTest s x = .forward) :
    takePacket s x = sendForwards { s with out := s.out ++ [{ x with away := true }] } := by
  simp only [takePacket, hform, if_pos hdev]

theorem takePacket_of_badJob {e : Nat × Nat} (hdev : devTest s x ≠ .forward) (hjob : checkJob s x = some e) :
    takePacket s x = replyPacket s x e.1 e.2 0 0 := by
  simp only [takePacket, hform, if_neg hdev, hjob]

theorem takePacket_of_passed (hdev : devTest s x ≠ .forward) (hjob : checkJob s x = none) :
    takePacket s x = { s with out := s.out ++ [x] } := by
  simp only [takePacket, hform, if_neg hdev, hjob]

end TakePacket

/-- Slots from the head to the tail of a queue. -/
def slotsAvailable (x : SubQueue) : Nat := (x.tail + sqSize x - x.head) % sqSize x

/-- Slots of the packet whose first slot a host read has brought. -/
def slotsNamed (bytes : List Byte) : Nat := max 1 (leAt (slice bytes 0 64) 2 1)

/-- The turn has passed to queue q of port p. -/
def turnTo (s : State) (p q : Nat) : State := modPort s p fun y => { y with rr := q }

/-- The queue's head once n slots are taken. -/
def headPast (x : SubQueue) (n : Nat) : Nat := (x.head + n) % sqSize x

/-- The packet that n slots of a queue hold. -/
def packetOf (s : State) (p q : Nat) (bytes : List Byte) (n : Nat) : Packet :=
  { ticket := s.ticket, port := p, sq := q, sqhead := headPast (sqN (portN s p) q) n, bytes := slice bytes 0 (64 * n), sent := false, count := 0
    drop := false, sub := none, res := none, away := false, fast := isFast s (sqN (portN s p) q) (slice bytes 0 (64 * n)) }

/-- The state in which a packet of n slots is checked: turn, head and ticket have moved on. -/
def takenState (s : State) (p q n : Nat) : State :=
  { modSq (turnTo s p q) p q (fun y => { y with head := headPast (sqN (portN s p) q) n }) with ticket := s.ticket + 1 }

/-- Queue q of port p, in host memory, has the turn on a trained port of a device in service. -/
def HasTurn (s : State) (p q : Nat) : Prop :=
  p ≤ 1 ∧ q ≤ 16 ∧ s.module = .on ∧ s.s3 = false ∧ (portN s p).link = true ∧ nextSq (portN s p) = some q ∧
    bitAt (sqN (portN s p) q).cfg 12 = false

section HostQueue
variable {x : SubQueue} (hmem : bitAt x.cfg 12 = false) (bytes : List Byte) (n : Nat)
include hmem

theorem slotBytes_of_hostMemory (s : State) : slotBytes s x bytes n = slice bytes 0 (64 * n) := by simp [slotBytes, hmem]

/-- A read of host memory has failed when it brings fewer bytes than were asked for (R327). -/
theorem slotsRead_of_hostMemory : slotsRead x bytes n = decide (64 * n ≤ bytes.length) := by simp [slotsRead, hmem]

end HostQueue

theorem queueReach_hostMemory (s : State) (p q a n : Nat) : queueReach s false p q a n = true := rfl

/-- What a queue with the turn does with the bytes of host memory from its head on. -/
theorem exec_packetTake_of_turn {s : State} {p q : Nat} (h : HasTurn s p q) (bytes : List Byte) :
    exec (.packetTake p q bytes) s =
      if bytes.length < 64 then .next (sqError (turnTo s p q) p q)
      else if slotsAvailable (sqN (portN s p) q) < slotsNamed bytes then .next (turnTo s p q)
      else if bytes.length < 64 * slotsNamed bytes then .next (sqError (turnTo s p q) p q)
      else if isFast s (sqN (portN s p) q) (slice bytes 0 (64 * slotsNamed bytes)) = false ∧ 256 ≤ cpHeld s p then .next s
      else .next (takePacket (takenState s p q (slotsNamed bytes)) (packetOf s p q bytes (slotsNamed bytes))) := by
  obtain ⟨hp, hq, hmodule, hs3, hlink, hnext, hmem⟩ := h
  show execPacketTake p q bytes s = _
  rw [execPacketTake, withPq_of_le hp hq]
  have hgoes : ¬(s.module ≠ .on ∨ s.s3 = true ∨ (!(portN s p).link) = true ∨ (!decide (nextSq (portN s p) = some q)) = true ∧
      (!(sqReady (portN s p) q && isFast s (sqN (portN s p) q) (slotBytes s (sqN (portN s p) q) bytes 1))) = true) := by
    simp [hmodule, hs3, hlink, hnext]
  have hreach : ∀ n, ((List.range n).all fun _ => true) = true := fun n => by simp
  refine (if_neg hgoes).trans ?_
  simp only [hnext, hmem, slotBytes_of_hostMemory hmem, slotsRead_of_hostMemory hmem, queueReach_hostMemory, hreach, Nat.mul_one, decide_true,
    Bool.not_true, Bool.false_eq_true, false_or, if_true, if_false, Bool.not_eq_true', decide_eq_false_iff_not, Nat.not_le, ge_iff_le,
    gt_iff_lt]
  rfl

section Turn
variable {s : State} {p q : Nat} {bytes : List Byte} (hturn : HasTurn s p q)
include hturn

theorem exec_packetTake_of_unread (hbytes : bytes.length < 64 ∨
      slotsNamed bytes ≤ slotsAvailable (sqN (portN s p) q) ∧ bytes.length < 64 * slotsNamed bytes) :
    exec (.packetTake p q bytes) s = .next (sqError (turnTo s p q) p q) := by
  rw [exec_packetTake_of_turn hturn]
  rcases hbytes with hfirst | ⟨hfits, hmissing⟩
  · exact if_pos hfirst
  · rw [if_neg (Nat.not_lt.mpr hfits), if_pos hmissing, ite_self]

theorem exec_packetTake_of_beyond (hfirst : 64 ≤ bytes.length) (hbeyond : slotsAvailable (sqN (portN s p) q) < slotsNamed bytes) :
    exec (.packetTake p q bytes) s = .next (turnTo s p q) := by
  rw [exec_packetTake_of_turn hturn, if_neg (Nat.not_lt.mpr hfirst), if_pos hbeyond]

theorem exec_packetTake_of_whole (hread : 64 * slotsNamed bytes ≤ bytes.length)
    (hfits : slotsNamed bytes ≤ slotsAvailable (sqN (portN s p) q))
    (hroom : isFast s (sqN (portN s p) q) (slice bytes 0 (64 * slotsNamed bytes)) = true ∨ cpHeld s p < 256) :
    exec (.packetTake p q bytes) s =
      .next (takePacket (takenState s p q (slotsNamed bytes)) (packetOf s p q bytes (slotsNamed bytes))) := by
  have hone : 1 ≤ slotsNamed bytes := Nat.le_max_left 1 _
  have hfirst : ¬bytes.length < 64 := by omega
  have hgoes : ¬(isFast s (sqN (portN s p) q) (slice bytes 0 (64 * slotsNamed bytes)) = false ∧ 256 ≤ cpHeld s p) := by
    rintro ⟨hslow, hfull⟩
    rcases hroom with hfast | hheld
    · simp [hfast] at hslow
    · omega
  rw [exec_packetTake_of_turn hturn, if_neg hfirst, if_neg (Nat.not_lt.mpr hfits), if_neg (Nat.not_lt.mpr hread), if_neg hgoes]

end Turn

/-- Settles O31: the bytes read decide whether the packet is taken whole; the checks in the state after it decide what becomes of it. -/
theorem packetsAreTakenInTurnAndChecked : Obligations.PacketsAreTakenInTurnAndChecked := by
  intro s p q bytes hp hq hmodule hs3 hlink hnext hmem x n b turn head k u
  have hturn : HasTurn s p q := ⟨hp, hq, hmodule, hs3, hlink, hnext, hmem⟩
  refine ⟨exec_packetTake_of_unread hturn, exec_packetTake_of_beyond hturn, fun hread hfits hroom => ?_⟩
  have hexec : exec (.packetTake p q bytes) s = .next (takePacket u k) := exec_packetTake_of_whole hturn hread hfits hroom
  refine ⟨fun hdev hform => ?forward, fun hdev hform hjob => ?outstanding, fun e hdev hform hjob => ?badJob, fun e hform => ?badForm⟩
  case forward => rw [hexec, takePacket_of_forward hform hdev]
  case outstanding => rw [hexec, takePacket_of_passed hform hdev hjob]
  case badJob => rw [hexec, takePacket_of_badJob hform hdev hjob]
  case badForm => rw [hexec, takePacket_of_badForm hform]

end Sys2Proof.Machine

/-! PROOF. The registers of the host's queues (14 R324, R326, R327, R348, R352). -/

namespace Sys2Proof.Machine

/-! ### Entries of the lists of ports and queues -/

section ModAt
variable {α : Type}

/-- A changed entry depends on that entry alone. -/
theorem modAt_eq_const (l : List α) (i : Nat) (f : α → α) (d : α) : modAt l i f = modAt l i fun _ => f (l.getD i d) := by
  induction l generalizing i with
  | nil => rfl
  | cons a l ih =>
    cases i with
    | zero => rfl
    | succ i => simpa [modAt] using ih i

/-- What holds of the changed entry and of the default holds of the entry read. -/
theorem of_getD_modAt {P : α → Prop} {l : List α} {i : Nat} {f : α → α} {d : α} (hd : P d) (hf : P (f (l.getD i d))) :
    P ((modAt l i f).getD i d) := by
  induction l generalizing i with
  | nil => exact hd
  | cons a l ih =>
    cases i with
    | zero => exact hf
    | succ i => exact ih hf

end ModAt

/-- A change of a port depends on that port alone. -/
theorem modPort_congr {s : State} {p : Nat} {f g : Port → Port} (h : f (portN s p) = g (portN s p)) : modPort s p f = modPort s p g := by
  have hports : modAt s.ports p f = modAt s.ports p g := by
    rw [modAt_eq_const _ p f portReset, modAt_eq_const _ p g portReset]
    exact congrArg (fun y => modAt s.ports p fun _ => y) h
  rw [modPort, modPort, hports]

theorem modSq_eq_const (s : State) (p q : Nat) (f : SubQueue → SubQueue) :
    modSq s p q f = modSq s p q fun _ => f (sqN (portN s p) q) :=
  modPort_congr (congrArg (fun l => { portN s p with sq := l }) (modAt_eq_const _ q f sqReset))

theorem modCq_eq_const (s : State) (p q : Nat) (f : CompQueue → CompQueue) :
    modCq s p q f = modCq s p q fun _ => f (cqN (portN s p) q) :=
  modPort_congr (congrArg (fun l => { portN s p with cq := l }) (modAt_eq_const _ q f cqReset))

theorem cqN_portReset (q : Nat) : cqN portReset q = cqReset := by
  rw [cqN, portReset, List.getD_eq_getElem?_getD, List.getElem?_getD_replicate_default_eq]

theorem held_modCq_eq_nil {s : State} {p q : Nat} {f : CompQueue → CompQueue} (h : (f (cqN (portN s p) q)).held = []) :
    (cqN (portN (modCq s p q f) p) q).held = [] :=
  of_getD_modAt (P := fun pt => (cqN pt q).held = []) (by rw [cqN_portReset]; rfl) (of_getD_modAt (P := fun c : CompQueue => c.held = []) rfl h)

/-! ### Doorbells (R324, R326, R327) -/

section Doorbell
variable {s : State} {p q : Nat} (hp : p ≤ 1) (hq : q ≤ 16) (hreach : hostReaches s p (queuePf q) = true)
include hp hq hreach

theorem exec_sqTailDoorbell_of_runs (hen : sqEn (sqN (portN s p) q) = true) (herr : (sqN (portN s p) q).err = false) (v : Nat) :
    exec (.sqTailDoorbell p q v) s =
      if sqSize (sqN (portN s p) q) ≤ v % 4096 then .next (sqError s p q)
      else .next (modSq s p q fun y => { y with tail := v % 4096 }) := by
  show execSqTailDoorbell p q v s = _
  simp [execSqTailDoorbell, withPq_of_le hp hq, hreach, hen, herr]

theorem exec_cqHeadDoorbell_of_runs (hen : cqEn (cqN (portN s p) q) = true) (herr : (cqN (portN s p) q).err = false) (v : Nat) :
    exec (.cqHeadDoorbell p q v) s =
      if cqSize (cqN (portN s p) q) ≤ v % 4096 then .next (cqError s p q)
      else .next (drainHeld p q (cqN (portN s p) q).held.length (modCq s p q fun y => { y with head := v % 4096 })) := by
  show execCqHeadDoorbell p q v s = _
  simp [execCqHeadDoorbell, withPq_of_le hp hq, hreach, hen, herr]

end Doorbell

/-! ### SQ_CFG and CQ_CFG (R348) -/

/-- SQ_CFG after a write of the covered bytes of v. -/
def sqCfgAfter (x : SubQueue) (v : BitVec 64) (be : BitVec 8) : BitVec 64 :=
  merge64 x.cfg v (beMask be &&& BitVec.ofNat 64 (sqCfgMask (sqEn x)))

def cqCfgAfter (x : CompQueue) (v : BitVec 64) (be : BitVec 8) : BitVec 64 :=
  merge64 x.cfg v (beMask be &&& BitVec.ofNat 64 (cqCfgMask (cqEn x)))

/-- A submission queue whose SQ_CFG becomes c. -/
def withSqCfg (x : SubQueue) (c : BitVec 64) : SubQueue :=
  if bitAt c 17 && !sqEn x then { x with cfg := c, head := 0, tail := 0, err := false }
  else if !bitAt c 17 then { x with cfg := c, tail := x.head }
  else { x with cfg := c }

/-- A completion queue whose CQ_CFG becomes c. -/
def withCqCfg (x : CompQueue) (c : BitVec 64) : CompQueue :=
  if bitAt c 23 && !cqEn x then { x with cfg := c, head := 0, tail := 0, phase := true, err := false, unsig := 0 }
  else { x with cfg := c }

theorem withCqCfg_held (x : CompQueue) (c : BitVec 64) : (withCqCfg x c).held = x.held := by
  unfold withCqCfg
  split <;> rfl

section CfgWrite
variable {s : State} {p q : Nat} (hp : p ≤ 1) (hq : q ≤ 16) (hreach : hostReaches s p (queuePf q) = true) (v : BitVec 64) (be : BitVec 8)
include hp hq hreach

theorem exec_sqCfgWrite_of_reaches :
    exec (.sqCfgWrite p q v be) s =
      .next (modSq s p q fun _ => withSqCfg (sqN (portN s p) q) (sqCfgAfter (sqN (portN s p) q) v be)) := by
  show execSqCfgWrite p q v be s = _
  rw [execSqCfgWrite, withPq_of_le hp hq, if_neg (by simp [hreach]), modSq_eq_const]
  rfl

theorem exec_cqCfgWrite_of_empty (hheld : (cqN (portN s p) q).held = []) :
    exec (.cqCfgWrite p q v be) s =
      .next (modCq s p q fun _ => withCqCfg (cqN (portN s p) q) (cqCfgAfter (cqN (portN s p) q) v be)) := by
  have hdrained : ∀ f : CompQueue → CompQueue, (f (cqN (portN s p) q)).held = [] →
      drainHeld p q (cqN (portN (modCq s p q f) p) q).held.length (modCq s p q f) = modCq s p q f := by
    intro f hf
    rw [held_modCq_eq_nil hf]
    rfl
  show execCqCfgWrite p q v be s = _
  rw [execCqCfgWrite, withPq_of_le hp hq, if_neg (by simp [hreach])]
  refine congrArg Host.Outcome.next ((hdrained _ ?_).trans (modCq_eq_const s p q _))
  exact (withCqCfg_held _ (cqCfgAfter (cqN (portN s p) q) v be)).trans hheld

end CfgWrite

/-! ### Held replies and the coalescing limit (R326, R352) -/

theorem exec_cqReplyWrite_of_open {s : State} {p q : Nat} {r : Reply} {rest : List Reply} (hp : p ≤ 1) (hq : q ≤ 16)
    (hheld : (cqN (portN s p) q).held = r :: rest) (hopen : cqOpen (portN s p) (cqN (portN s p) q) = true) :
    exec (.cqReplyWrite p q) s = .next (writeEntry (modCq s p q fun x => { x with held := rest }) p q r) := by
  show execCqReplyWrite p q s = _
  simp [execCqReplyWrite, withPq_of_le hp hq, drainHeld, hheld, hopen]

theorem exec_cqCoalesceTimeout_of_unsignalled {s : State} {p q : Nat} (hp : p ≤ 1) (hq : q ≤ 16) (hunsig : (cqN (portN s p) q).unsig ≠ 0) :
    exec (.cqCoalesceTimeout p q) s =
      .next (signal (modCq s p q fun y => { y with unsig := 0 }) p (queuePf q) (cqVec q (cqN (portN s p) q))) := by
  show execCqCoalesceTimeout p q s = _
  simp [execCqCoalesceTimeout, withPq_of_le hp hq, hunsig]

/-- Settles O30: a doorbell's index against SIZE, EN before and after a write of CFG, and the head of what a CQ holds decide each row. -/
theorem queueRegistersFollowTheirWrites : Obligations.QueueRegistersFollowTheirWrites := by
  refine ⟨?doorbells, ?configuration, fun s p q r rest hp hq hheld hopen => exec_cqReplyWrite_of_open hp hq hheld hopen,
    fun s p q hp hq hunsig => exec_cqCoalesceTimeout_of_unsignalled hp hq hunsig⟩
  case doorbells =>
    intro s p q v hp hq hreach
    refine ⟨fun hen herr => ⟨fun hin => ?_, fun hout => ?_⟩, fun hen herr => ⟨fun hin => ?_, fun hout => ?_⟩⟩
    · rw [exec_sqTailDoorbell_of_runs hp hq hreach hen herr, if_neg (Nat.not_le.mpr hin)]
    · rw [exec_sqTailDoorbell_of_runs hp hq hreach hen herr, if_pos hout, sqError]
    · rw [exec_cqHeadDoorbell_of_runs hp hq hreach hen herr, if_neg (Nat.not_le.mpr hin)]
    · rw [exec_cqHeadDoorbell_of_runs hp hq hreach hen herr, if_pos hout, cqError]
  case configuration =>
    intro s p q v be hp hq hreach
    have hsq := exec_sqCfgWrite_of_reaches hp hq hreach v be
    have hcq := exec_cqCfgWrite_of_empty hp hq hreach v be
    refine ⟨?submission, ?completion⟩
    case submission =>
      intro x c
      change _ = Host.Outcome.next (modSq s p q fun _ => withSqCfg x c) at hsq
      refine ⟨fun hset hoff => ?_, fun hset hon => ?_, fun hclear => ?_⟩
      · simp only [hsq, withSqCfg, sqEn, hset, hoff, Bool.not_false, Bool.and_self, if_true]
      · simp only [hsq, withSqCfg, sqEn, hset, hon, Bool.not_true, Bool.and_false, Bool.false_eq_true, if_false]
      · simp only [hsq, withSqCfg, hclear, Bool.false_and, Bool.not_false, Bool.false_eq_true, if_false, if_true]
    case completion =>
      intro x c
      change _ → _ = Host.Outcome.next (modCq s p q fun _ => withCqCfg x c) at hcq
      refine ⟨fun hheld hset hoff => ?_, fun hheld hkept => ?_⟩
      · simp only [hcq hheld, withCqCfg, cqEn, hset, hoff, Bool.not_false, Bool.and_self, if_true]
      · have hstays : ¬(bitAt c 23 && !cqEn x) = true := by simpa [cqEn] using hkept
        rw [hcq hheld, withCqCfg, if_neg hstays]

end Sys2Proof.Machine

/-! PROOF. Identification, status and features (14 R331, R337, R339, R340, R348; 20 R468). -/

namespace Sys2Proof.Machine

section Identification
variable {s : State} {k : Nat} {x : Packet}

theorem exec_nop_of_taken (h : Taken s k 0x0001 x) : exec (.nop k) s = .next (replyOk (early s x) k 0 0) := by
  show execNop k s = _
  rw [execNop, withCmd_of_taken h]

theorem exec_identify_of_taken (h : Taken s k 0x0002 x) :
    exec (.identify k) s =
      .next (replyOk (hostWrite (early s x) x.port (pfld x 0x10 8) (identifyBytes s)) k orderingCode 0) := by
  show execIdentify k s = _
  rw [execIdentify, withCmd_of_taken h]

theorem exec_getStatus_of_taken (h : Taken s k 0x0003 x) :
    exec (.getStatus k) s = .next (replyOk (early s x) k (devStat s x.port) (s.comp.getD 0)) := by
  show execGetStatus k s = _
  rw [execGetStatus, withCmd_of_taken h]

theorem exec_getFeature_of_known (h : Taken s k 0x0005 x) (hknown : (featRange (pfld x 0x10 2)).isSome = true) :
    exec (.getFeature k) s = .next (replyOk (early s x) k (feature s (pfld x 0x10 2)) 0) := by
  obtain ⟨r, hrange⟩ := Option.isSome_iff_exists.mp hknown
  show execGetFeature k s = _
  simp only [execGetFeature, withCmd_of_taken h, hrange]

section SetFeature
variable (h : Taken s k 0x0004 x)
include h

theorem exec_setFeature_of_unknown (hrange : featRange (pfld x 0x10 2) = none) :
    exec (.setFeature k) s = .next (refuse s k stBadParam 0x10) := by
  show execSetFeature k s = _
  simp only [execSetFeature, withCmd_of_taken h, hrange, badField]

variable {lo hi : Nat} (hrange : featRange (pfld x 0x10 2) = some (lo, hi))
include hrange

/-- A value out of range is refused, and so is a SIGREQ that may not change. -/
theorem exec_setFeature_of_badValue (hbad : pfld x 0x14 4 < lo ∨ hi < pfld x 0x14 4 ∨ (pfld x 0x10 2 = 1 ∧
      ((pfld x 0x14 4 = 1 ∧ (!owned s) = true) ∨ (pfld x 0x14 4 = 0 ∧ feature s 1 = 1)))) :
    exec (.setFeature k) s = .next (refuse s k stBadParam 0x14) := by
  show execSetFeature k s = _
  simp only [execSetFeature, withCmd_of_taken h, hrange, if_pos hbad, badField]

theorem exec_setFeature_of_goodValue (hother : pfld x 0x10 2 ≠ 1) (hlo : lo ≤ pfld x 0x14 4) (hhi : pfld x 0x14 4 ≤ hi) :
    exec (.setFeature k) s = .next (replyOk { early s x with
      feat := arrSet s.feat (pfld x 0x10 2) (pfld x 0x14 4) (featDefault (pfld x 0x10 2)) } k (feature s (pfld x 0x10 2)) 0) := by
  have hgood : ¬(pfld x 0x14 4 < lo ∨ hi < pfld x 0x14 4 ∨ (pfld x 0x10 2 = 1 ∧
      ((pfld x 0x14 4 = 1 ∧ (!owned s) = true) ∨ (pfld x 0x14 4 = 0 ∧ feature s 1 = 1)))) := by
    rintro (hbelow | habove | ⟨hone, -⟩)
    · exact Nat.not_lt.mpr hlo hbelow
    · exact Nat.not_lt.mpr hhi habove
    · exact hother hone
  show execSetFeature k s = _
  simp only [execSetFeature, withCmd_of_taken h, hrange, if_neg hgood]

end SetFeature

end Identification

/-- Settles O33: each packet's row under its fields; for SET_FEATURE, the range of its FID and the value decide. -/
theorem identificationAndFeatures : Obligations.IdentificationAndFeatures := by
  intro s k x
  refine ⟨exec_nop_of_taken, exec_identify_of_taken, exec_getStatus_of_taken, fun htaken => ?setFeature, exec_getFeature_of_known⟩
  case setFeature =>
    intro f v
    refine ⟨exec_setFeature_of_unknown htaken, fun lo hi hrange => ⟨fun hout => ?_, fun hone hzero hset => ?_, ?_⟩⟩
    · exact exec_setFeature_of_badValue htaken hrange (hout.imp_right .inl)
    · exact exec_setFeature_of_badValue htaken hrange (.inr (.inr ⟨hone, .inr ⟨hzero, hset⟩⟩))
    · exact exec_setFeature_of_goodValue htaken hrange

end Sys2Proof.Machine

/-! PROOF. Sections: launch, start, the end of waiting, stop and commit (14 R343, R344; 15 R356; 16 R384; 18 R436). -/

namespace Sys2Proof.Machine

/-! ### SECTION_LAUNCH (R343, R344) -/

/-- The state in which a launch is considered: a job that has only been opened enters its queue (15 R355). -/
def launchEntered (s : State) (j : Job) : State := if j.state = .opened then enterQueue s j else s

theorem launches_not_answered {s : State} {k : Nat} (hnew : ∀ l ∈ s.launches, l.ticket ≠ k) :
    ¬(s.launches.any fun l => l.ticket = k && l.stage ≠ .waiting) = true := by
  simpa using fun l hl hk => absurd hk (hnew l hl)

section Launch
variable {s : State} {k : Nat} {x : Packet} {j : Job} (htaken : TakenJob s k 0x0301 x j)
include htaken

theorem exec_sectionLaunch_of_badRect {o : Nat} (hepoch : pfld x 0x14 1 ≠ 0) (hrect : rectField (pRect x) = some o) :
    exec (.sectionLaunch k) s = .next (refuse s k stBadParam o) := by
  show execSectionLaunch k s = _
  simp only [execSectionLaunch, withJob_of_taken htaken, hepoch, if_false, hrect, badField]

variable (hnew : ∀ l ∈ s.launches, l.ticket ≠ k)
include hnew

theorem exec_sectionLaunch_of_claim (hclaim : pfld x 0x14 1 = 0) :
    exec (.sectionLaunch k) s =
      if (launchEntered s j).comp ≠ some j.id then .next (launchEntered s j) else .next (replyOk (early (launchEntered s j) x) k 0 0) := by
  show execSectionLaunch k s = _
  simp only [execSectionLaunch, withJob_of_taken htaken, hclaim, if_true, if_neg (launches_not_answered hnew)]
  rfl

theorem exec_sectionLaunch_of_rect (hepoch : pfld x 0x14 1 ≠ 0) (hrect : rectField (pRect x) = none) :
    exec (.sectionLaunch k) s =
      if (launchEntered s j).comp ≠ some j.id then .next (holdLaunch (launchEntered s j) x j.id (pRect x))
      else if switching (launchEntered s j) j.id = true ∨ loadMeets (launchEntered s j) (pRect x) = true then
        .next (holdLaunch (launchEntered s j) x j.id (pRect x))
      else .next (checkLaunch (launchEntered s j) x j (pRect x)) := by
  show execSectionLaunch k s = _
  simp only [execSectionLaunch, withJob_of_taken htaken, hepoch, if_false, hrect, if_neg (launches_not_answered hnew)]
  rfl

end Launch

/-! ### SECTION_START and LEAVE_TIMEOUT (R343; 16 R384; 17 R420) -/

/-- A launch whose leave is granted, of the computing job, that nothing but AT holds. -/
def MayStart (s : State) (l : Launch) : Prop :=
  s.launches.find? (·.ticket = l.ticket) = some l ∧ l.stage = .ready ∧ s.resets = [] ∧ swapHolds s l = false ∧ s.comp = some l.job ∧
    switching s l.job = false ∧ loadMeets s l.rect = false

/-- The start of a launch whose tiles are fit: a replayable one follows the operations sent before it (11 R288). -/
def startFit (s : State) (l : Launch) : State :=
  let u := if imageRpl l.img then settleUnits s else s
  if (u.launches.find? (·.ticket = l.ticket)).isSome then beginSection u l else u

theorem exec_sectionStart_of_early {s : State} {l : Launch} (h : MayStart s l) (hat : shaftCount s < l.at_) :
    exec (.sectionStart l.ticket) s = .next s := by
  obtain ⟨hfind, -⟩ := h
  show execSectionStart l.ticket s = _
  simp only [execSectionStart, tryStart, hfind, hat, or_true, if_true]

section Start
variable {s : State} {l : Launch} (h : MayStart s l) (hat : l.at_ ≤ shaftCount s)
include h hat

theorem mayStart_not_held : ¬(l.stage ≠ .ready ∨ (!s.resets.isEmpty) = true ∨ swapHolds s l = true ∨ s.comp ≠ some l.job ∨
    switching s l.job = true ∨ loadMeets s l.rect = true ∨ shaftCount s < l.at_) := by
  obtain ⟨-, hstage, hresets, hswap, hcomp, hsw, hload⟩ := h
  simp [hstage, hresets, hswap, hcomp, hsw, hload, hat]

theorem exec_sectionStart_of_unfit {t : Nat} (hbad : launchBad s (launchTiles s l.rect) l.epoch = some t) :
    exec (.sectionStart l.ticket) s = .next (refuseLaunch s l.ticket stBadParam t) := by
  have hgoes := mayStart_not_held h hat
  obtain ⟨hfind, -⟩ := h
  show execSectionStart l.ticket s = _
  simp only [execSectionStart, tryStart, hfind, if_neg hgoes, hbad]

theorem exec_sectionStart_of_fit (hfit : launchBad s (launchTiles s l.rect) l.epoch = none) :
    exec (.sectionStart l.ticket) s = .next (startFit s l) := by
  have hgoes := mayStart_not_held h hat
  obtain ⟨hfind, -⟩ := h
  show execSectionStart l.ticket s = _
  simp only [execSectionStart, tryStart, hfind, if_neg hgoes, hfit, startFit]

end Start

theorem startFit_of_replayable {s : State} {l : Launch} (hrpl : imageRpl l.img = true) :
    startFit s l = if ((settleUnits s).launches.find? (·.ticket = l.ticket)).isSome then beginSection (settleUnits s) l else settleUnits s := by
  simp only [startFit, hrpl, if_true]

theorem startFit_of_plain {s : State} {l : Launch} (hrpl : imageRpl l.img = false) (hfind : s.launches.find? (·.ticket = l.ticket) = some l) :
    startFit s l = beginSection s l := by
  simp only [startFit, hrpl, Bool.false_eq_true, if_false, hfind, Option.isSome_some, if_true]

theorem exec_leaveTimeout_of_waiting {s : State} {l : Launch} (hfind : s.launches.find? (·.ticket = l.ticket) = some l) (htmo : l.tmo ≠ 0)
    (hstage : l.stage = .waiting ∨ l.stage = .leave) :
    exec (.leaveTimeout l.ticket) s = .next (refuseLaunch s l.ticket stLeaveTimeout 0) := by
  show execLeaveTimeout l.ticket s = _
  simp only [execLeaveTimeout, hfind, if_pos (And.intro htmo hstage)]

/-! ### SECTION_STOP and SECTION_COMMIT (R343; 18 R436) -/

section StopAndCommit
variable {s : State} {k : Nat} {x : Packet} {j : Job} (hrect : rectField (pRect x) = none)
include hrect

theorem exec_sectionStop_of_computing (htaken : TakenJob s k 0x0302 x j) (hcomp : s.comp = some j.id) (hscan : scanning s j.id = false) :
    exec (.sectionStop k) s = .next (
      let u := settleAt (early s x) (actingTiles s (pRect x))
      if u.comp = s.comp then replyOk (stopTiles u (actingTiles s (pRect x))) k
        ((actingTiles s (pRect x)).filter fun t => tileRunning (tileAt s t)).length 0 else u) := by
  have hacts : ¬(s.comp ≠ some j.id ∨ scanning s j.id = true) := by simp [hcomp, hscan]
  show execSectionStop k s = _
  simp only [execSectionStop, withJob_of_taken htaken, hrect, if_neg hacts]

/-- The running replayable sections of the job that a rectangle meets. -/
def replayableMet (s : State) (j : Nat) (r : Rect) : List Launch :=
  s.launches.filter fun l => l.job = j && l.stage = .running && imageRpl l.img && rectsMeet l.rect r

/-- The launches with these tickets are committed and their input logs dropped. -/
def withCommitted (s : State) (x : Packet) (ks : List Nat) : State :=
  { early s x with
    launches := s.launches.map fun l => if ks.contains l.ticket then { l with committed := true } else l
    replays := s.replays.filter fun p => !ks.contains p.ticket }

variable (htaken : TakenJob s k 0x0303 x j)
include htaken

theorem exec_sectionCommit_of_met (hmet : (replayableMet s j.id (pRect x)).map (·.ticket) ≠ []) :
    exec (.sectionCommit k) s =
      .next (replyOk (dropSnapshot (withCommitted s x ((replayableMet s j.id (pRect x)).map (·.ticket))) j.id) k 0 0) := by
  have hsome : ¬(replayableMet s j.id (pRect x)).isEmpty = true := by simpa using hmet
  show execSectionCommit k s = _
  rw [execSectionCommit, withJob_of_taken htaken]
  simp only [hrect]
  exact if_neg hsome

theorem exec_sectionCommit_of_ran (hmet : (replayableMet s j.id (pRect x)).map (·.ticket) = [])
    (hran : ranReplayable (jobView s j) j.id (pRect x) = true) :
    exec (.sectionCommit k) s = .next (replyOk (early s x) k 0 0) := by
  have hnone : (replayableMet s j.id (pRect x)).isEmpty = true := by simpa using hmet
  show execSectionCommit k s = _
  rw [execSectionCommit, withJob_of_taken htaken]
  simp only [hrect]
  exact (if_pos hnone).trans (if_pos hran)

end StopAndCommit

/-- Settles O37: EPOCH, the rectangle and the computing job decide a launch; AT and the tiles its start; what the rectangle meets a commit. -/
theorem sectionsLaunchStopAndCommit : Obligations.SectionsLaunchStopAndCommit := by
  refine ⟨?launch, ?start, fun s l hfind htmo hstage => exec_leaveTimeout_of_waiting hfind htmo hstage,
    fun s k x j htaken hrect hcomp hscan => exec_sectionStop_of_computing hrect htaken hcomp hscan, ?commit⟩
  case launch =>
    intro s k x j htaken hnew u
    refine ⟨fun hclaim haway => ?_, fun hclaim hcomp => ?_, fun hepoch => ⟨fun o hrect => ?_, fun hrect => ⟨fun haway => ?_, ?_⟩⟩⟩
    · rw [exec_sectionLaunch_of_claim htaken hnew hclaim]
      exact if_pos haway
    · rw [exec_sectionLaunch_of_claim htaken hnew hclaim]
      exact if_neg (not_not.mpr hcomp)
    · exact exec_sectionLaunch_of_badRect htaken hepoch hrect
    · rw [exec_sectionLaunch_of_rect htaken hnew hepoch hrect]
      exact if_pos haway
    · intro hcomp hsw hload
      have hgoes : ¬(switching u j.id = true ∨ loadMeets u (pRect x) = true) := by simp [hsw, hload]
      rw [exec_sectionLaunch_of_rect htaken hnew hepoch hrect]
      exact (if_neg (not_not.mpr hcomp)).trans (if_neg hgoes)
  case start =>
    intro s l hfind hstage hresets hswap hcomp hsw hload
    have h : MayStart s l := ⟨hfind, hstage, hresets, hswap, hcomp, hsw, hload⟩
    refine ⟨exec_sectionStart_of_early h, fun hat =>
      ⟨fun hfit => ⟨fun hrpl => ?_, fun hrpl => ?_⟩, fun t => exec_sectionStart_of_unfit h hat⟩⟩
    · rw [exec_sectionStart_of_fit h hat hfit, startFit_of_plain hrpl hfind]
    · rw [exec_sectionStart_of_fit h hat hfit, startFit_of_replayable hrpl]
  case commit =>
    intro s k x j htaken hrect ks
    exact ⟨exec_sectionCommit_of_met hrect htaken, exec_sectionCommit_of_ran hrect htaken⟩

end Sys2Proof.Machine

/-! PROOF. Section saves and restores (14 R345; 15 R356; 09 R224; 11 R287; 12 R320). -/

namespace Sys2Proof.Machine

/-! ### The range of a save and the tiles of its rectangle -/

/-- The range of a section save lies in a region of the job that the host may read, or write (R345). -/
def SaveRange (s : State) (x : Packet) (j : Job) (base size : Nat) (wr : Bool) : Prop :=
  hostRange s x.port base size wr = true ∧ ∀ g, regionAt s base = some g → g.job = j.id

theorem SaveRange.not_refused {s : State} {x : Packet} {j : Job} {base size : Nat} {wr : Bool} (h : SaveRange s x j base size wr) :
    ¬((!hostRange s x.port base size wr) = true ∨ ((regionAt s base).any fun g => g.job ≠ j.id) = true) := by
  obtain ⟨hrange, hown⟩ := h
  cases hregion : regionAt s base with
  | none => simp [hrange]
  | some g => simp [hrange, hown g hregion]

theorem not_any_running {view : State} {r : Rect} (h : ∀ t ∈ rectTiles r, tileRunning (tileAt view t) = false) :
    ¬((rectTiles r).any fun t => tileRunning (tileAt view t)) = true := by simpa using h

/-- The tiles that a save of a rectangle covers, and the bytes of the save. -/
def savedTiles (s : State) (j : Job) (r : Rect) : List Nat := launchTiles (jobView s j) r

def savedSize (s : State) (j : Job) (r : Rect) : Nat := saveSize (savedTiles s j r).length (saveLevels r).length

/-! ### SECTION_SAVE (R345) -/

/-- The state of a computing job whose tiles are saved: everything in flight is applied, gathered lines are written. -/
def settledForSave (s : State) (x : Packet) (ts : List Nat) : State := flushAllOf (deliverAll (settleUnits (early s x))) ts

section Save
variable {s : State} {k : Nat} {x : Packet} {j : Job} (htaken : TakenJob s k 0x0304 x j) (hrect : rectField (pRect x) = none)
  (hidle : ∀ t ∈ rectTiles (pRect x), tileRunning (tileAt (jobView s j) t) = false)
  (hrange : SaveRange s x j (pfld x 0x18 8) (savedSize s j (pRect x)) true)
include htaken hrect hidle hrange

theorem exec_sectionSave_of_computing (hcomp : s.comp = some j.id) :
    exec (.sectionSave k) s = .next (
      let ts := savedTiles s j (pRect x)
      let u := settledForSave s x ts
      if u.comp ≠ some j.id then u else saveSection u u x j (pRect x) ts) := by
  show execSectionSave k s = _
  rw [execSectionSave, withJob_of_taken htaken]
  simp only [hrect]
  refine (if_neg hrange.not_refused).trans ((if_neg (not_any_running hidle)).trans ((if_pos hcomp).trans ?_))
  exact (apply_ite Host.Outcome.next _ _ _).symm

theorem exec_sectionSave_of_away (haway : s.comp ≠ some j.id) :
    exec (.sectionSave k) s = .next (saveSection (early s x) (jobView s j) x j (pRect x) (savedTiles s j (pRect x))) := by
  show execSectionSave k s = _
  rw [execSectionSave, withJob_of_taken htaken]
  simp only [hrect]
  exact (if_neg hrange.not_refused).trans ((if_neg (not_any_running hidle)).trans (if_neg haway))

end Save

/-! ### SECTION_RESTORE (R345) -/

/-- The whole save is read, and the packet has started. -/
def restoreRead (s : State) (x : Packet) (src size : Nat) : State :=
  bumpFresh (binReads (early (binReads s src 4096) x) (src + 4096) (size - 4096))

/-- What the save at src holds: its content when the blocks are those that the device wrote, else a free value. -/
def restoredSave (s : State) (src size : Nat) : Saved := ((saveHeld s src size).map (·.saved)).getD (Config.savedState s.fresh)

/-- The job has the saved work epoch, and the packet its reply. -/
def restoreDone (v : State) (j : Job) (k : Nat) (w : Saved) : State := replyOk (modJob v j.id fun y => { y with wepoch := w.wepoch }) k 0 0

/-- The header at src is the one that a save of the rectangle would have now, its time stamp aside. -/
def HeaderMatches (s : State) (j : Job) (r : Rect) (src : Nat) : Prop :=
  slice (memRead s src 4096) 0 0x18 = slice (saveHeader (jobView s j) j.id r (savedTiles s j r)) 0 0x18 ∧
    slice (memRead s src 4096) 0x20 (savedTiles s j r).length =
      slice (saveHeader (jobView s j) j.id r (savedTiles s j r)) 0x20 (savedTiles s j r).length

/-- What a restore does with the save read: into the device for the computing job, else into the job's saved state. -/
def restoreFrom (s : State) (j : Job) (k : Nat) (r : Rect) (u : State) (w : Saved) : State :=
  if s.comp = some j.id then
    let v := settleUnits u
    let y := restoreSection v j.id w (savedTiles s j r) (saveLevels r)
    if v.comp ≠ some j.id then v
    else restoreDone (tellGenerations y ((savedTiles s j r).filter fun t => let n := (tileAt y t).net; n.gen = n.agen)) j k w
  else restoreDone (if j.saved.isNone then u else modJob u j.id fun y =>
    { y with saved := some (scanState (restoreSection (jobView s j) j.id w (savedTiles s j r) (saveLevels r)) w.wepoch).2 }) j k w

section Restore
variable {s : State} {k : Nat} {x : Packet} {j : Job} (htaken : TakenJob s k 0x0305 x j) (hrect : rectField (pRect x) = none)
  (hrange : SaveRange s x j (pfld x 0x18 8) (savedSize s j (pRect x)) false)
include htaken hrect hrange

theorem exec_sectionRestore_of_lost {a : Nat} (hlost : lostIn s (pfld x 0x18 8) (savedSize s j (pRect x)) = some a) :
    exec (.sectionRestore k) s = .next (memFatal s a false) := by
  unfold savedSize savedTiles at hlost
  show execSectionRestore k s = _
  rw [execSectionRestore, withJob_of_taken htaken]
  simp only [hrect]
  refine (if_neg hrange.not_refused).trans ?_
  simp only [hlost]

theorem exec_sectionRestore_of_matching (hlost : lostIn s (pfld x 0x18 8) (savedSize s j (pRect x)) = none)
    (hheader : HeaderMatches s j (pRect x) (pfld x 0x18 8))
    (hidle : ∀ t ∈ rectTiles (pRect x), tileRunning (tileAt (jobView s j) t) = false) :
    exec (.sectionRestore k) s = .next (restoreFrom s j k (pRect x) (restoreRead s x (pfld x 0x18 8) (savedSize s j (pRect x)))
      (restoredSave s (pfld x 0x18 8) (savedSize s j (pRect x)))) := by
  obtain ⟨hfields, hepochs⟩ := hheader
  unfold savedSize savedTiles at hlost
  show execSectionRestore k s = _
  rw [execSectionRestore, withJob_of_taken htaken]
  simp only [hrect]
  refine (if_neg hrange.not_refused).trans ?_
  simp only [hlost]
  refine (if_neg (not_or.mpr ⟨not_not.mpr hfields, not_not.mpr hepochs⟩)).trans ((if_neg (not_any_running hidle)).trans ?_)
  unfold restoredSave savedSize savedTiles
  cases saveHeld s (pfld x 0x18 8) (saveSize (launchTiles (jobView s j) (pRect x)).length (saveLevels (pRect x)).length) with
  | none =>
    simp only [restoreFrom, apply_ite Host.Outcome.next]
    rfl
  | some w =>
    simp only [restoreFrom, apply_ite Host.Outcome.next]
    rfl

end Restore

/-- Settles O38: the computing job's tiles are settled first; another job's save and restore are those of its saved state. -/
theorem sectionSavesAndRestores : Obligations.SectionSavesAndRestores := by
  refine ⟨?save, ?restore⟩
  case save =>
    intro s k x j htaken hrect r dst view ts size fin hidle hhost hown u
    have hrange : SaveRange s x j dst size true := ⟨hhost, hown⟩
    obtain rfl : x.ticket = k := taken_ticket htaken
    have hfin : ∀ v w : State, saveSection v w x j r ts = fin v w := fun _ _ => rfl
    refine ⟨fun hcomp => ?_, fun haway => ?_⟩
    · rw [← hfin]
      exact exec_sectionSave_of_computing htaken hrect hidle hrange hcomp
    · rw [← hfin]
      exact exec_sectionSave_of_away htaken hrect hidle hrange haway
  case restore =>
    intro s k x j htaken hrect r src view ts size hidle hhost hown
    have hrange : SaveRange s x j src size false := ⟨hhost, hown⟩
    refine ⟨fun a hlost => exec_sectionRestore_of_lost htaken hrect hrange hlost, ?matching⟩
    intro hlost hfields hepochs u w put fin
    have hexec : exec (.sectionRestore k) s = .next (restoreFrom s j k r u w) :=
      exec_sectionRestore_of_matching htaken hrect hrange hlost ⟨hfields, hepochs⟩ hidle
    refine ⟨fun hcomp => ?computing, fun haway => ⟨fun hnone => ?unsaved, fun hsome => ?saved⟩⟩
    case computing => exact hexec.trans (congrArg Host.Outcome.next (if_pos hcomp))
    case unsaved =>
      rw [hexec, restoreFrom, if_neg haway, if_pos (Option.isNone_iff_eq_none.mpr hnone)]
      rfl
    case saved =>
      have hkept : ¬j.saved.isNone = true := by simpa [Option.isSome_iff_ne_none] using hsome
      rw [hexec, restoreFrom, if_neg haway, if_neg hkept]
      rfl

end Sys2Proof.Machine

/-! PROOF. Service commands: telemetry, the error log, meter records, attestation, self-test, retirement and the debug unlock
(14 R337; 16 R376; 18 R426, R445; 20 R470, R471, R480; 21 R494). -/

namespace Sys2Proof.Machine

/-! ### TELEMETRY, ERRLOG_READ, METER_READ and METER_RECORDS -/

section Reports
variable {s : State} {k : Nat} {x : Packet}

theorem exec_telemetry_of_badPage (h : Taken s k 0x0A00 x) (hpage : 3 < pfld x 0x18 2) :
    exec (.telemetry k) s = .next (refuse s k stBadParam 0x18) := by
  show execTelemetry k s = _
  rw [execTelemetry, withCmd_of_taken h]
  exact if_pos hpage

theorem exec_telemetry_of_page (h : Taken s k 0x0A00 x) (hpage : pfld x 0x18 2 ≤ 3) :
    exec (.telemetry k) s = .next (replyOk (bumpFresh (hostWrite (early s x) x.port (pfld x 0x10 8)
      (((List.range 4).filter (nbit (pLvl x))).flatMap (telemetryPage s (pfld x 0x18 2))))) k 0 0) := by
  show execTelemetry k s = _
  rw [execTelemetry, withCmd_of_taken h]
  exact if_neg (Nat.not_lt.mpr hpage)

/-- Records read are no longer unread; a freeze area that has been read whole is given up (18 R445). -/
def withRead (u : State) (left : List Nat) : State :=
  { u with errs := { u.errs with unread := left, frozen := if left.isEmpty then [] else u.errs.frozen } }

theorem exec_errlogRead_of_count (h : Taken s k 0x0A01 x) (hmin : 1 ≤ pfld x 0x20 2) (hmax : pfld x 0x20 2 ≤ 1024) :
    exec (.errlogRead k) s =
      let rs := recordsHeld s.errs (pfld x 0x18 8) (pfld x 0x20 2)
      .next (replyOk (withRead (hostWrite (early s x) x.port (pfld x 0x10 8) (rs.flatMap recordBytes))
        (s.errs.unread.filter fun n => !rs.any fun r => r.seq = n)) k rs.length (if s.errs.next = 0 then 0xFFFFFFFF else s.errs.next - 1)) := by
  have hcount : ¬(pfld x 0x20 2 < 1 ∨ pfld x 0x20 2 > 1024) := by omega
  show execErrlogRead k s = _
  rw [execErrlogRead, withCmd_of_taken h]
  exact if_neg hcount

theorem exec_meterRead_of_running (h : Taken s k 0x0800 x) (hruns : s.assay.running = true) :
    exec (.meterRead k) s =
      let u := hostWrite (bumpFresh (early s x)) x.port (pfld x 0x10 8) (meterBytes s (snapshotRec s.assay))
      .next (if Config.sealedModule && s.assay.marked then refuse u k stSealBroken 0 else replyOk u k 0 0) := by
  show execMeterRead k s = _
  rw [execMeterRead, withCmd_of_taken h]
  refine (if_neg (by simp [hruns])).trans ?_
  exact (apply_ite Host.Outcome.next _ _ _).symm

theorem exec_meterRecords_of_count (h : Taken s k 0x0801 x) (hmin : 1 ≤ pfld x 0x20 2) (hmax : pfld x 0x20 2 ≤ 256)
    (hruns : s.assay.running = true) :
    exec (.meterRecords k) s =
      let rs := (if pfld x 0x18 8 = 0 then [identBytes s] else []) ++
        (recordsFrom s.assay (pfld x 0x18 8) (pfld x 0x20 2)).map (meterBytes s)
      let u := bumpFresh (early s x)
      .next (replyOk (if rs.isEmpty then u else hostWrite u x.port (pfld x 0x10 8) (rs.flatMap id)) k rs.length 0) := by
  have hcount : ¬(pfld x 0x20 2 = 0 ∨ pfld x 0x20 2 > 256) := by omega
  show execMeterRecords k s = _
  rw [execMeterRecords, withCmd_of_taken h]
  exact (if_neg hcount).trans (if_neg (by simp [hruns]))

end Reports

/-! ### The lengths of what a report is made of (20 R470, R471) -/

@[simp] theorem length_leBytes (n x : Nat) : (leBytes n x).length = n := by
  induction n generalizing x with
  | zero => rfl
  | succ n ih => simp [leBytes, ih]

@[simp] theorem length_slice (bs : List Byte) (off n : Nat) : (slice bs off n).length = n := by
  simp [slice]

theorem length_flatMap_of_const {α β : Type} {f : α → List β} {n : Nat} (h : ∀ a, (f a).length = n) (l : List α) :
    (l.flatMap f).length = l.length * n := by
  simp [List.length_flatMap, h]

/-- A round of SHA-384 keeps eight working values. -/
theorem length_shaStep {x : List W64 × List W64} (h : x.1.length = 8) (k : W64) : (shaStep x k).1.length = 8 := by
  unfold shaStep
  split
  · rfl
  · exact h

theorem length_shaBlock {h : List W64} (hlen : h.length = 8) (block : List Byte) : (shaBlock h block).length = 8 := by
  have hrounds : ∀ w : List W64, (shaRounds.foldl shaStep (h, w)).1.length = 8 := fun w =>
    List.foldlRecOn (motive := fun x : List W64 × List W64 => x.1.length = 8) _ _ hlen fun _ hx k _ => length_shaStep hx k
  simp only [shaBlock, List.length_zipWith, hrounds, hlen, Nat.min_self]

theorem length_shaStart : shaStart.length = 8 := by
  have hprimes : (firstPrimes 16).length = 16 := by decide +kernel
  simp [shaStart, hprimes]

theorem length_sha384 (bs : List Byte) : (sha384 bs).length = 48 := by
  have hstate : ∀ l : List Nat, (l.foldl (fun h i => shaBlock h (slice (shaPad bs) (128 * i) 128)) shaStart).length = 8 := fun l =>
    List.foldlRecOn (motive := fun h : List W64 => h.length = 8) l _ length_shaStart fun _ hh i _ => length_shaBlock hh _
  rw [sha384, length_flatMap_of_const (n := 8) (by simp [beBytes])]
  simp [hstate]

theorem length_measurement (s : State) (i : Nat) : (measurement s i).length = 64 := by
  unfold measurement
  simp only [List.length_append, List.length_cons, List.length_nil]
  split_ifs <;> simp [length_sha384]

theorem length_measurements (s : State) : (measurements s).length = 1024 :=
  length_flatMap_of_const (fun i => length_measurement s (i + 1)) (List.range 16)

/-! ### ATTEST (20 R471) -/

/-- The bytes of a report before MEASUREMENTS. -/
def reportHead (s : State) (x : Packet) : List Byte :=
  [0x50, 0x4C, 0x41, 0x37, 1, 0, 16, 0] ++ leBytes 8 (shaftCount s) ++ slice x.bytes 0x20 32 ++ leBytes 8 Config.deviceKeyId ++
    (List.range 8).map (Config.openByte 0 220)

/-- The report without its signature. -/
def reportBody (s : State) (x : Packet) : List Byte := reportHead s x ++ measurements s

def reportBytes (s : State) (x : Packet) : List Byte := reportBody s x ++ signed s (reportBody s x)

theorem length_reportHead (s : State) (x : Packet) : (reportHead s x).length = 0x40 := by simp [reportHead]

theorem length_reportBody (s : State) (x : Packet) : (reportBody s x).length = 0x440 := by
  rw [reportBody, List.length_append, length_reportHead, length_measurements]

theorem length_signed (s : State) (msg : List Byte) : (signed s msg).length = 96 := by simp [signed]

theorem length_reportBytes (s : State) (x : Packet) : (reportBytes s x).length = 1184 := by
  rw [reportBytes, List.length_append, length_reportBody, length_signed]

/-- A slice that covers a middle part of a list is that part. -/
theorem slice_of_append {l a b c : List Byte} {off n : Nat} (hl : l = a ++ (b ++ c)) (ha : a.length = off) (hb : b.length = n) :
    slice l off n = b := by
  subst hl ha hb
  simp [slice]

theorem reportBytes_nonce (s : State) (x : Packet) : slice (reportBytes s x) 0x10 32 = slice x.bytes 0x20 32 := by
  refine slice_of_append (a := [0x50, 0x4C, 0x41, 0x37, 1, 0, 16, 0] ++ leBytes 8 (shaftCount s))
    (c := leBytes 8 Config.deviceKeyId ++ ((List.range 8).map (Config.openByte 0 220) ++ (measurements s ++ signed s (reportBody s x))))
    ?_ (by simp) (length_slice _ _ _)
  simp only [reportBytes, reportBody, reportHead, List.append_assoc]

theorem reportBytes_measurements (s : State) (x : Packet) : slice (reportBytes s x) 0x40 1024 = measurements s :=
  slice_of_append (by rw [reportBytes, reportBody, List.append_assoc]) (length_reportHead s x) (length_measurements s)

theorem reportBytes_signature (s : State) (x : Packet) :
    slice (reportBytes s x) 0x440 96 = signed s ((reportBytes s x).take 0x440) := by
  have hbody : (reportBytes s x).take 0x440 = reportBody s x := List.take_left' (length_reportBody s x)
  rw [hbody]
  exact slice_of_append (c := []) (by rw [List.append_nil, reportBytes]) (length_reportBody s x) (length_signed s _)

section Attest
variable {s : State} {k : Nat} {x : Packet} (h : Taken s k 0x0901 x)
include h

theorem exec_attest_of_short (hlen : pfld x 0x18 4 < 1184) : exec (.attest k) s = .next (refuse s k stBadParam 0x18) := by
  show execAttest k s = _
  rw [execAttest, withCmd_of_taken h]
  exact if_pos hlen

theorem exec_attest_of_room (hlen : 1184 ≤ pfld x 0x18 4) :
    exec (.attest k) s =
      .next (replyOk (bumpFresh (hostWrite (early s x) x.port (pfld x 0x10 8) (reportBytes s x))) k 1184 0) := by
  show execAttest k s = _
  rw [execAttest, withCmd_of_taken h]
  exact if_neg (Nat.not_lt.mpr hlen)

end Attest

/-! ### SELFTEST (16 R376) -/

/-- The state in which a SELFTEST has asked leave: once, when it starts. -/
def selftestAsked (s : State) (k : Nat) (x : Packet) : State :=
  if x.sent then s else askLeave (modPacket (early s x) k fun y => { y with sent := true }) (.command k) false (selftestDraw x)

/-- The tiles of a SELFTEST's Levels that have failed, retired ones aside. -/
def selftestFailures (s : State) (x : Packet) (failed : List Nat) : List Nat :=
  failed.eraseDups.filter fun t => decide (t < 2304) && nbit (pLvl x) (levelOf t) && !tileRetired s t

section Selftest
variable {s : State} {k : Nat} {x : Packet} {failed : List Nat} (h : Taken s k 0x0A02 x) (hkind : pfld x 0x10 1 ≤ 1)
  (hstarts : x.sent = true ∨ ((s.comp = none ∨ pLvl x = 0) ∧ neverAdmissible s.power (selftestDraw x) = false))
include h hkind hstarts

theorem exec_selftest_of_starts :
    exec (.selftest k failed) s =
      let u := selftestAsked s k x
      if (!hasGrant u (.command k)) = true ∨ u.s2.any (fun n => nbit (pLvl x) n) = true then .next u
      else .next (releaseLeave (replyOk u k (selftestFailures s x failed).length 0) (.command k)) := by
  have hbusy : ¬((!x.sent) = true ∧ s.comp.isSome = true ∧ pLvl x ≠ 0) := by
    rcases hstarts with hsent | ⟨hcomp | hlevels, -⟩
    · simp [hsent]
    · simp [hcomp]
    · simp [hlevels]
  have hdenied : ¬((!x.sent) = true ∧ neverAdmissible s.power (selftestDraw x) = true) := by
    rcases hstarts with hsent | ⟨-, hadmits⟩
    · simp [hsent]
    · simp [hadmits]
  show execSelftest k failed s = _
  rw [execSelftest, withCmd_of_taken h]
  exact (if_neg (Nat.not_lt.mpr hkind)).trans ((if_neg hbusy).trans (if_neg hdenied))

theorem exec_selftest_of_waits (hgrant : hasGrant (selftestAsked s k x) (.command k) = false) :
    exec (.selftest k failed) s = .next (selftestAsked s k x) := by
  rw [exec_selftest_of_starts h hkind hstarts]
  exact if_pos (.inl (by simp [hgrant]))

theorem exec_selftest_of_granted (hgrant : hasGrant (selftestAsked s k x) (.command k) = true) (hawake : (selftestAsked s k x).s2 = []) :
    exec (.selftest k failed) s =
      .next (releaseLeave (replyOk (selftestAsked s k x) k (selftestFailures s x failed).length 0) (.command k)) := by
  rw [exec_selftest_of_starts h hkind hstarts]
  exact if_neg (by simp [hgrant, hawake])

end Selftest

/-! ### TILE_RETIRE and DEBUG_UNLOCK (18 R426; 20 R480) -/

section RetireAndUnlock
variable {s : State} {k : Nat} {x : Packet}

theorem exec_tileRetire_of_idle (h : Taken s k 0x0A03 x) (htile : pfld x 0x10 2 ≤ 2303) (hidle : launchOn s (pfld x 0x10 2) = none)
    (hacts : actionsWait s = false) :
    exec (.tileRetire k) s =
      let t := pfld x 0x10 2
      let u := retireTile (early s x) t (if s.comp.isSome then spareFor s t else none)
      .next (replyOk u k (((List.range 2304).filter fun v => levelOf v = levelOf t && !tileRetired u v).length) 0) := by
  show execTileRetire k s = _
  rw [execTileRetire, withCmd_of_taken h]
  exact (if_neg (Nat.not_lt.mpr htile)).trans ((if_neg (by simp [hidle])).trans (if_neg (by simp [hacts])))

variable {token : List Byte} {ok : Bool} (h : Taken s k 0x0902 x) (hupdate : s.sec.update = none)
include h hupdate

theorem exec_debugUnlock_of_challenge (hlen : pfld x 0x18 4 = 0) (hrng : s.sec.rngWait = false) :
    exec (.debugUnlock k token ok) s =
      .next (replyOk (modSec (drawn (early s x) 1) fun e => { e with debugNonce := some (drawWord s) })
        k (drawWord s % 2 ^ 32) (drawWord s / 2 ^ 32)) := by
  show execDebugUnlock k token ok s = _
  rw [execDebugUnlock, withCmd_of_taken h]
  exact (if_neg (by simp [hupdate])).trans ((if_pos hlen).trans (if_neg (by simp [hrng])))

theorem exec_debugUnlock_of_token (hlen : pfld x 0x18 4 = 128) :
    exec (.debugUnlock k token ok) s =
      let u := modSec (early s x) fun e => { e with debugNonce := none }
      .next (if tokenOk s token ok then replyOk (unlockDevice u) k 0 0 else refuse u k stSignature 0) := by
  have hsome : ¬pfld x 0x18 4 = 0 := by omega
  show execDebugUnlock k token ok s = _
  rw [execDebugUnlock, withCmd_of_taken h]
  refine (if_neg (by simp [hupdate])).trans ((if_neg hsome).trans ((if_neg (not_not.mpr hlen)).trans ?_))
  exact (apply_ite Host.Outcome.next _ _ _).symm

end RetireAndUnlock

/-- Settles O51: each packet whose fields pass has one branch; a report's parts are found by their lengths, since a measurement block has 64
bytes and a digest 48. -/
theorem serviceCommandsReport : Obligations.ServiceCommandsReport := by
  refine ⟨fun s k x h => ⟨exec_telemetry_of_badPage h, exec_telemetry_of_page h⟩,
    fun s k x h hmin hmax => exec_errlogRead_of_count h hmin hmax, fun s k x h hruns => exec_meterRead_of_running h hruns,
    fun s k x h hmin hmax hruns => exec_meterRecords_of_count h hmin hmax hruns, fun s k x h => ⟨exec_attest_of_short h, fun hlen => ?_⟩,
    fun s k x failed h hkind hstarts => ⟨exec_selftest_of_waits h hkind hstarts, exec_selftest_of_granted h hkind hstarts⟩,
    fun s k x h htile hidle hacts => exec_tileRetire_of_idle h htile hidle hacts,
    fun s k x token ok h hupdate => ⟨exec_debugUnlock_of_challenge h hupdate, exec_debugUnlock_of_token h hupdate⟩⟩
  exact ⟨reportBytes s x, length_reportBytes s x, reportBytes_nonce s x, reportBytes_measurements s x, reportBytes_signature s x,
    exec_attest_of_room h hlen⟩

end Sys2Proof.Machine

/-! PROOF. Host accesses: BAR0 and the MSI-X table, BAR2 and the Level units, the stream FIFO, configuration requests and ALERT_N
(09 R231; 14 R347 to R351; 22 R500 to R502, R504; 23 R515). -/

namespace Sys2Proof.Machine

theorem withPort_of_le {p : Nat} (hp : p ≤ 1) (o : Outcome) : withPort p o = o := if_pos hp

/-! ### Writes under a mask (R351) -/

theorem beMask_all : beMask 0xFF = BitVec.allOnes 64 := by decide

theorem beMask_low : beMask 0x0F = (BitVec.allOnes 32).setWidth 64 := by decide

theorem merge64_allOnes (old v : W64) : merge64 old v (BitVec.allOnes 64) = v := by
  rw [merge64, BitVec.not_allOnes, BitVec.and_zero, BitVec.zero_or, BitVec.and_allOnes]

/-- The two dwords of a write whose mask m lies in the low one: the bits under m of the low one change, the high one stays. -/
theorem merge64_low_mask (lo hi m : W32) (v : W64) :
    let w := merge64 (lo.setWidth 64 ||| (hi.setWidth 64 <<< 32)) v (m.setWidth 64)
    w.setWidth 32 = lo &&& ~~~m ||| v.setWidth 32 &&& m ∧ (w >>> 32).setWidth 32 = hi := by
  constructor
  · ext i hlow
    have hwide : i < 64 := by omega
    simp [merge64, hwide]
  · ext i hlow
    have hwide : 32 + i < 64 := by omega
    simp [merge64, hlow, hwide]

/-! ### BAR0 and the MSI-X table (R347, R348; 22 R500) -/

section RegisterWrite
variable {s : State} {p pf : Nat} (hp : p ≤ 1) (hpf : pf ≤ 1) (hreach : hostReaches s p pf = true) {off : Nat} {v : BitVec 64} {be : BitVec 8}
include hp hpf hreach

theorem exec_registerWrite_of_bar0 :
    exec (.registerWrite p pf off v be) s = .next (bar0Write64 s p pf (off / 8 * 8) v (beMask be)) := by
  have hfunc : pf % 2 = pf := Nat.mod_eq_of_lt (by omega)
  have hexists : ¬pf > 3 := by omega
  have hbar0 : pf < 2 := by omega
  show execRegisterWrite p pf off v be s = _
  rw [execRegisterWrite, withPort_of_le hp, if_neg hexists, hfunc, hreach, if_neg (by simp), if_pos hbar0]

/-- A write of a whole register of BAR0. -/
theorem exec_registerWrite_of_whole (hoff : off % 8 = 0) :
    exec (.registerWrite p pf off v 0xFF) s = .next (bar0Write64 s p pf off v (BitVec.allOnes 64)) := by
  have haligned : off / 8 * 8 = off := by omega
  rw [exec_registerWrite_of_bar0 hp hpf hreach, haligned, beMask_all]

/-- A write of the low dword at an offset of BAR4 leaves the high one. -/
theorem exec_registerWrite_of_msix :
    exec (.registerWrite p (pf + 2) off v 0x0F) s =
      .next (msixWrite (msixWrite s p pf (off / 8 * 2) (v.setWidth 32)) p pf (off / 8 * 2 + 1)
        (arrGet (funcN s p pf).msix (off / 8 * 2 + 1) 0)) := by
  have hfunc : (pf + 2) % 2 = pf := by omega
  have hexists : ¬pf + 2 > 3 := by omega
  have hbar4 : ¬pf + 2 < 2 := by omega
  obtain ⟨hlow, hhigh⟩ := merge64_low_mask (arrGet (funcN s p pf).msix (off / 8 * 2) 0) (arrGet (funcN s p pf).msix (off / 8 * 2 + 1) 0)
    (BitVec.allOnes 32) v
  rw [BitVec.not_allOnes, BitVec.and_zero, BitVec.zero_or, BitVec.and_allOnes] at hlow
  show execRegisterWrite p (pf + 2) off v 0x0F s = _
  rw [execRegisterWrite, withPort_of_le hp, if_neg hexists, hfunc, hreach, if_neg (by simp), if_neg hbar4, beMask_low]
  simp only [hlow, hhigh]

end RegisterWrite

section Registers
variable (s : State) (p : Nat) (v : W64) {q : Nat}

theorem bar0Write64_sqBase (hq : q < 16) :
    bar0Write64 s p 0 (0x10000 + 0x40 * q) v (BitVec.allOnes 64) = modSq s p q fun x => { x with base := v } := by
  have hplace : 0x10000 ≤ 0x10000 + 0x40 * q ∧ 0x10000 + 0x40 * q < 0x10400 ∧ (0x10000 + 0x40 * q) % 0x40 = 0 := by omega
  have hindex : (0x10000 + 0x40 * q - 0x10000) / 0x40 = q := by omega
  simp only [bar0Write64, merge64_allOnes, if_pos hplace, hindex]
  simp [hq]

theorem bar0Write64_cqBase (hq : q < 16) :
    bar0Write64 s p 0 (0x11000 + 0x40 * q) v (BitVec.allOnes 64) = modCq s p q fun x => { x with base := v } := by
  have hother : ¬(0x10000 ≤ 0x11000 + 0x40 * q ∧ 0x11000 + 0x40 * q < 0x10400 ∧ (0x11000 + 0x40 * q) % 0x40 = 0) := by omega
  have hplace : 0x11000 ≤ 0x11000 + 0x40 * q ∧ 0x11000 + 0x40 * q < 0x11400 ∧ (0x11000 + 0x40 * q) % 0x40 = 0 := by omega
  have hindex : (0x11000 + 0x40 * q - 0x11000) / 0x40 = q := by omega
  simp only [bar0Write64, merge64_allOnes, if_neg hother, if_pos hplace, hindex]
  simp [hq]

theorem bar0Write64_evlost (hq : q < 16) :
    bar0Write64 s p 0 (0x11010 + 0x40 * q) v (BitVec.allOnes 64) =
      modCq s p q fun x => { x with evlost := BitVec.ofNat 32 (fld v 63 32) } := by
  have hsq : ¬(0x10000 ≤ 0x11010 + 0x40 * q ∧ 0x11010 + 0x40 * q < 0x10400 ∧ (0x11010 + 0x40 * q) % 0x40 = 0) := by omega
  have hbase : ¬(0x11000 ≤ 0x11010 + 0x40 * q ∧ 0x11010 + 0x40 * q < 0x11400 ∧ (0x11010 + 0x40 * q) % 0x40 = 0) := by omega
  have hplace : 0x11000 ≤ 0x11010 + 0x40 * q ∧ 0x11010 + 0x40 * q < 0x11400 ∧ (0x11010 + 0x40 * q) % 0x40 = 0x10 := by omega
  have hindex : (0x11010 + 0x40 * q - 0x11000) / 0x40 = q := by omega
  simp only [bar0Write64, merge64_allOnes, if_neg hsq, if_neg hbase, if_pos hplace, hindex]
  simp [hq]

theorem bar0Write64_apbase :
    bar0Write64 s p 0 0x12008 v (BitVec.allOnes 64) = modPort s p fun x => { x with apbase := BitVec.ofNat 64 (fld v 47 36 * 2 ^ 36) } := by
  simp only [bar0Write64, merge64_allOnes]
  rfl

theorem bar0Write64_ovf :
    bar0Write64 s p 0 0x12010 v (BitVec.allOnes 64) =
      modPort s p fun x => { x with fifo := { x.fifo with ovf := BitVec.ofNat 32 (fld v 63 32) } } := by
  simp only [bar0Write64, merge64_allOnes]
  rfl

/-- DEVSTAT is read-only. -/
theorem bar0Write64_devstat (m : W64) : bar0Write64 s p 0 0x12000 v m = s := rfl

end Registers

/-! ### BAR2 (R351; 09 R231) -/

/-- External memory has no scratchpad window and no tile control space. -/
theorem not_isPad_of_external {a : Nat} (h : isHbm a = true ∨ isLpddr a = true) : isPad a = false ∧ isTileCtl a = false := by
  have hbelow : a < 0x20000000000 := by
    rcases h with hhbm | hlpddr
    · simp only [isHbm, Bool.and_eq_true, decide_eq_true_eq] at hhbm
      omega
    · simp only [isLpddr, decide_eq_true_eq] at hlpddr
      omega
  simp only [isPad, isTileCtl, decide_eq_false_iff_not]
  omega

/-- The device address of offset off in BAR2 of port p. -/
def bar2Addr (s : State) (p off : Nat) : Nat :=
  (portN s p).apbase.toNat / 2 ^ bar2Bits (portN s p).pf0 * 2 ^ bar2Bits (portN s p).pf0 + off

/-- Both ends of an access lie in HBM3E, or both in LPDDR5X. -/
def InMemory (a n : Nat) : Prop :=
  (isHbm a = true ∧ isHbm (a + n - 1) = true) ∨ (isLpddr a = true ∧ isLpddr (a + n - 1) = true)

theorem exec_bar2Access_of_memory {s : State} {p off : Nat} {a : BusAccess} (hp : p ≤ 1) (hreach : hostReaches s p 0 = true)
    (hoff : off + accLen a ≤ 2 ^ bar2Bits (portN s p).pf0) (hlen : 0 < accLen a) (hs3 : s.s3 = false)
    (hmem : InMemory (bar2Addr s p off) (accLen a)) :
    exec (.bar2Access p off a) s =
      if spanOk s p (bar2Addr s p off) (accLen a) (accWrite a) then .next (memAccess s p (bar2Addr s p off) a)
      else .next (barRefused s p (bar2Addr s p off) a) := by
  obtain ⟨hpad, hctl⟩ := not_isPad_of_external (hmem.imp And.left And.left)
  have hgoes : ¬((!hostReaches s p 0) = true ∨ off + accLen a > 2 ^ bar2Bits (portN s p).pf0 ∨ accLen a = 0) := by
    rw [hreach]
    simp
    omega
  have hboth : (isHbm (bar2Addr s p off) && isHbm (bar2Addr s p off + accLen a - 1) ||
      isLpddr (bar2Addr s p off) && isLpddr (bar2Addr s p off + accLen a - 1)) = true := by
    simpa [InMemory] using hmem
  have hawake : ¬(s.s3 = true ∨
      (isPad (bar2Addr s p off) && s.s2.contains (levelOf ((bar2Addr s p off - 0x080000000000) / 0x200000)) ||
        isTileCtl (bar2Addr s p off) && s.s2.contains (levelOf ((bar2Addr s p off - 0x090000000000) / 0x10000))) = true) := by
    simp [hs3, hpad, hctl]
  show execBar2Access p off a s = _
  rw [execBar2Access, withPort_of_le hp]
  exact (if_neg hgoes).trans ((if_neg hawake).trans (if_pos hboth))

section MemAccess
variable {s : State} {p addr : Nat} (hpad : isPad addr = false)
include hpad

theorem memAccess_read {n : Nat} (hlost : lostIn s addr n = none) :
    memAccess s p addr (.read n) = barAnswer (binReads s addr n) p (memRead s addr n) := by
  simp [memAccess, accLen, hlost, hpad]

/-- A write goes byte by byte: f writes the bytes that it covers, and passes over the others. -/
theorem memAccess_write {d : List (Option Byte)} {f : State → Nat × Option Byte → State} (hlost : lostIn s addr d.length = none)
    (hsome : ∀ u i b, f u (i, some b) = memWrite u (addr + i) b) (hnone : ∀ u i, f u (i, none) = u) :
    memAccess s p addr (.write d) = ((List.range d.length).zip d).foldl f s := by
  simp only [memAccess, accLen, hlost, hpad, Bool.false_eq_true, if_false]
  congr 1
  funext u ⟨i, b⟩
  cases b with
  | none => exact (hnone u i).symm
  | some b => exact (hsome u i b).symm

end MemAccess

/-! ### The Level units (R350) -/

section LevelUnits
variable {s : State} {p off n : Nat} (hp : p ≤ 1) (hreach : hostReaches s p 0 = true) (hcomp : portComputes s p = true) (hs3 : s.s3 = false)
  (hn : 0 < n)
include hp hreach hcomp hs3 hn

theorem exec_levelUnitRead_of_cascadeBarriers (hlo : 0xC00000 ≤ off) (hhi : off + n ≤ 0xC00800) :
    exec (.bar0LevelUnitAccess p off (.read n)) s =
      .next (barAnswer s p (wordBytes (fun o => cbarRead64 s (o - 0xC00000)) off n)) := by
  have hunits : ¬(0x800000 ≤ off ∧ off + n ≤ 0xC00000) := by omega
  show execBar0LevelUnitAccess p off (.read n) s = _
  simp [execBar0LevelUnitAccess, withPort_of_le hp, hreach, hcomp, hs3, accLen, hunits, hlo, hhi, hn.ne']

theorem exec_levelUnitRead_of_awake (hlo : 0x800000 ≤ off) (hhi : off + n ≤ 0xC00000)
    (hawake : s.s2.contains ((off - 0x800000) / 0x100000) = false) :
    exec (.bar0LevelUnitAccess p off (.read n)) s =
      let lv := (off - 0x800000) / 0x100000
      let u : State := { s with lvA1 := s.lvA1.filter (· ≠ lv) }
      .next (barAnswer u p (wordBytes (fun o => luRead64 u lv (o % 0x100000)) off n)) := by
  show execBar0LevelUnitAccess p off (.read n) s = _
  have hawake' : (off - 0x800000) / 0x100000 ∉ s.s2 := by simpa using hawake
  simp [execBar0LevelUnitAccess, withPort_of_le hp, hreach, hcomp, hs3, accLen, hlo, hhi, hn.ne', hawake']

end LevelUnits

/-! ### The stream FIFO (R349) -/

/-- The FIFO of port p takes these bytes, and counts n lost units of 32 bytes. -/
def fifoTaken (s : State) (p : Nat) (bytes : List Byte) (n : Nat) : State :=
  fifoMark (modPort s p fun x => { x with fifo := { x.fifo with bytes := x.fifo.bytes ++ bytes, ovf := x.fifo.ovf + BitVec.ofNat 32 n } }) p

section HostFifo
variable {s : State} {p : Nat} {bytes : List Byte} (hp : p ≤ 1) (hreach : hostReaches s p 0 = true)
include hp hreach

theorem exec_hostFifoWrite_of_room (hroom : (portN s p).fifo.bytes.length + bytes.length ≤ fifoCap) :
    exec (.hostFifoWrite p bytes) s = .next (fifoTaken s p bytes 0) := by
  have htaken : bytes.take (fifoCap - (portN s p).fifo.bytes.length) = bytes := List.take_of_length_le (by omega)
  have hlost : cdiv (bytes.length - (fifoCap - (portN s p).fifo.bytes.length)) 32 = 0 := by
    rw [Nat.sub_eq_zero_of_le (by omega)]
    rfl
  show execHostFifoWrite p bytes s = _
  rw [execHostFifoWrite, withPort_of_le hp, hreach, if_neg (by simp)]
  simp only [htaken, hlost, true_or, if_true]
  rfl

theorem exec_hostFifoWrite_of_full (hfilled : fifoCap ≤ (portN s p).fifo.bytes.length) (hfull : (portN s p).fifo.full = true) :
    exec (.hostFifoWrite p bytes) s = .next (fifoTaken s p [] (cdiv bytes.length 32)) := by
  have hroom : fifoCap - (portN s p).fifo.bytes.length = 0 := Nat.sub_eq_zero_of_le hfilled
  show execHostFifoWrite p bytes s = _
  rw [execHostFifoWrite, withPort_of_le hp, hreach, if_neg (by simp)]
  simp only [hroom, List.take_zero, Nat.sub_zero, hfull, or_true, if_true]
  rfl

end HostFifo

/-! ### Configuration requests (22 R500 to R502) -/

/-- An answer to a configuration request of PF0. -/
def configAnswer (s : State) (p code : Nat) : State :=
  { s with answers := s.answers ++ [{ who := .config p 0, code := code, bytes := [] }] }

section Configuration
variable {s : State} {p reg : Nat} (hp : p ≤ 1) (hreg : reg ≤ 1023) (hmodule : s.module = .on) (hperst : (portN s p).perst = false)
include hp hreg hmodule hperst

theorem exec_configurationRequest_of_untrained (w : Option (BitVec 32)) (hlink : (portN s p).link = false) :
    exec (.configurationRequest p 0 reg w) s = .next (configAnswer s p 2) := by
  show execConfigurationRequest p 0 reg w s = _
  rw [execConfigurationRequest, withPort_of_le hp]
  exact (if_neg (by omega)).trans ((if_neg (by simp [hmodule, hperst])).trans (if_pos (by simp [hlink])))

theorem exec_configurationRequest_of_write (v : BitVec 32) (hlink : (portN s p).link = true) :
    exec (.configurationRequest p 0 reg (some v)) s =
      .next (configAnswer (modPort s p fun x => { x with pf0 := { x.pf0 with conf := arrPut x.pf0.conf reg v false } }) p 0) := by
  show execConfigurationRequest p 0 reg (some v) s = _
  rw [execConfigurationRequest, withPort_of_le hp]
  exact (if_neg (by omega)).trans ((if_neg (by simp [hmodule, hperst])).trans (if_neg (by simp [hlink])))

end Configuration

/-- Settles O32: each access is decoded to its register, its memory or its Level unit; the FIFO's room and the port's link decide the rest. -/
theorem hostAccessesAndFifo : Obligations.HostAccessesAndFifo := by
  refine ⟨?registers, ?bar2, fun s p off n hp hreach hcomp hs3 hn => exec_levelUnitRead_of_cascadeBarriers hp hreach hcomp hs3 hn,
    fun s p off n hp hreach hcomp hs3 hn => exec_levelUnitRead_of_awake hp hreach hcomp hs3 hn,
    fun s p bytes hp hreach => ⟨exec_hostFifoWrite_of_room hp hreach, exec_hostFifoWrite_of_full hp hreach⟩, ?configuration, fun s => rfl⟩
  case registers =>
    intro s p off v be hp
    refine ⟨fun pf hpf hreach => exec_registerWrite_of_bar0 hp hpf hreach, fun pf hpf hreach _ hbe _ => ?msix, fun hreach => ?registers⟩
    case msix =>
      rw [hbe]
      exact exec_registerWrite_of_msix hp hpf hreach
    case registers =>
      have hwhole : ∀ o, o % 8 = 0 → exec (.registerWrite p 0 o v 0xFF) s = .next (bar0Write64 s p 0 o v (BitVec.allOnes 64)) :=
        fun o ho => exec_registerWrite_of_whole hp (Nat.zero_le 1) hreach ho
      refine ⟨fun q hq => ⟨?sqBase, ?cqBase, ?evlost⟩, ?apbase, ?ovf, ?devstat⟩
      case sqBase => rw [hwhole _ (by omega), bar0Write64_sqBase s p v hq]
      case cqBase => rw [hwhole _ (by omega), bar0Write64_cqBase s p v hq]
      case evlost => rw [hwhole _ (by omega), bar0Write64_evlost s p v hq]
      case apbase => rw [hwhole _ (by omega), bar0Write64_apbase]
      case ovf => rw [hwhole _ (by omega), bar0Write64_ovf]
      case devstat => exact (exec_registerWrite_of_bar0 hp (Nat.zero_le 1) hreach).trans (congrArg _ (bar0Write64_devstat s p v _))
  case bar2 =>
    intro s p off a hp hreach hoff hlen hs3 addr
    refine ⟨fun hmem => ⟨fun hok => ?_, fun hrefused => ?_⟩,
      fun hpad => ⟨fun n => memAccess_read hpad, fun d hlost => memAccess_write hpad hlost (fun _ _ _ => rfl) fun _ _ => rfl⟩⟩
    · exact (exec_bar2Access_of_memory hp hreach hoff hlen hs3 hmem).trans (if_pos hok)
    · exact (exec_bar2Access_of_memory hp hreach hoff hlen hs3 hmem).trans (if_neg (Bool.eq_false_iff.mp hrefused))
  case configuration =>
    intro s p reg w hp hreg hmodule hperst
    refine ⟨exec_configurationRequest_of_untrained hp hreg hmodule hperst w, fun v hlink hw => ?_⟩
    rw [hw]
    exact exec_configurationRequest_of_write hp hreg hmodule hperst v hlink

end Sys2Proof.Machine

/-! PROOF. What every command keeps: the queue of commands, the canonical form of memory, the floors, and (but for four commands) the
ceiling and the features. Each operation has one lemma; the four statements are read off the last one. -/

namespace Sys2Proof.Machine

/-! ## The relation -/

/-- What the statements speak of: device memory with what its unlisted bytes read as, the queue of commands, the features, the
ceiling and the floor record. -/
structure Kept where
  mem : List Host.Cell
  regions : List Region
  saves : List SecSave
  pending : List Instr
  feat : Arr Nat
  ceil : Nat
  floor : Option FloorRec

/-- `Kept.mk` as a definition, so that `simp` compares two of them as wholes. -/
def keptOf (m : List Host.Cell) (r : List Region) (v : List SecSave) (q : List Instr) (ft : Arr Nat) (c : Nat) (fl : Option FloorRec) :
    Kept :=
  { mem := m, regions := r, saves := v, pending := q, feat := ft, ceil := c, floor := fl }

@[simp] abbrev kept (s : State) : Kept := keptOf s.mem s.regions s.saves s.pending s.feat s.power.ceil s.sec.floor

/-- The memory is canonical, whatever else the state holds. -/
def Kept.Canonical (k : Kept) : Prop := memWf { State.reset with mem := k.mem, regions := k.regions, saves := k.saves } = true

/-- A floor record of 11 floors is followed by one none of whose floors is lower. -/
def FloorsRise (x y : Option FloorRec) : Prop :=
  ∀ f, x = some f → f.floors.length = 11 → ∃ g, y = some g ∧ g.floors.length = 11 ∧ ∀ i < 11, f.floors.getD i 0 ≤ g.floors.getD i 0

/-- What may follow k: canonical memory stays canonical, the queue stays, no floor falls, and with `fixed` the features and the
ceiling stay. -/
def Leads (fixed : Bool) (k l : Kept) : Prop :=
  (k.Canonical → l.Canonical) ∧ l.pending = k.pending ∧ FloorsRise k.floor l.floor ∧ (fixed = true → l.feat = k.feat ∧ l.ceil = k.ceil)

/-- `Leads`, where an operation's lemma leaves it: `simp` does not look into it. -/
def Anew (fixed : Bool) (k : Kept) (s : State) : Prop := Leads fixed k (kept s)

@[congr] theorem anew_congr (fixed : Bool) (k : Kept) (s : State) : Anew fixed k s = Anew fixed k s := rfl

theorem kept_canonical (s : State) : (kept s).Canonical ↔ memWf s = true := by
  unfold Kept.Canonical
  exact Bool.eq_iff_iff.mp (memWf_congr (s := s) rfl rfl rfl)

theorem FloorsRise.refl (x : Option FloorRec) : FloorsRise x x := fun f hf hlen => ⟨f, hf, hlen, fun _ _ => Nat.le_refl _⟩

theorem FloorsRise.trans {x y z : Option FloorRec} (hxy : FloorsRise x y) (hyz : FloorsRise y z) : FloorsRise x z := by
  intro f hf hlen
  obtain ⟨g, hg, hglen, hfg⟩ := hxy f hf hlen
  obtain ⟨h, hh, hhlen, hgh⟩ := hyz g hg hglen
  exact ⟨h, hh, hhlen, fun i hi => Nat.le_trans (hfg i hi) (hgh i hi)⟩

variable {fixed : Bool}

@[simp] theorem leads_refl (k : Kept) : Leads fixed k k := ⟨id, rfl, FloorsRise.refl _, fun _ => ⟨rfl, rfl⟩⟩

theorem Leads.trans {k l m : Kept} (hkl : Leads fixed k l) (hlm : Leads fixed l m) : Leads fixed k m := by
  obtain ⟨hwf, hq, hrise, hset⟩ := hkl
  obtain ⟨hwf', hq', hrise', hset'⟩ := hlm
  refine ⟨fun h => hwf' (hwf h), hq'.trans hq, hrise.trans hrise', fun hf => ?_⟩
  obtain ⟨hfeat, hceil⟩ := hset hf
  obtain ⟨hfeat', hceil'⟩ := hset' hf
  exact ⟨hfeat'.trans hfeat, hceil'.trans hceil⟩

/-- What follows s follows u: in this form, an equivalence that needs no hypothesis, `simp` goes through chains of operations of any
length. -/
theorem leads_iff {k : Kept} {s u : State} (h : Leads fixed (kept s) (kept u)) :
    Leads fixed k (kept u) ↔ Leads fixed k (kept s) ∨ Anew fixed k u :=
  ⟨Or.inr, fun hk => hk.elim (fun hs => hs.trans h) id⟩

/-- A change of memory alone, regions and saves included. -/
theorem leads_of_wf {s u : State} (hwf : memWf s = true → memWf u = true) (hq : u.pending = s.pending) (hfl : u.sec.floor = s.sec.floor)
    (hfeat : u.feat = s.feat) (hceil : u.power.ceil = s.power.ceil) : Leads fixed (kept s) (kept u) :=
  ⟨fun h => (kept_canonical u).mpr (hwf ((kept_canonical s).mp h)), hq, by
    show FloorsRise s.sec.floor u.sec.floor
    rw [hfl]
    exact FloorsRise.refl _, fun _ => ⟨hfeat, hceil⟩⟩

/-- Every state that the row answers follows s. -/
abbrev Goes (fixed : Bool) (s : State) (o : Outcome) : Prop := EveryNext (fun u => Leads fixed (kept s) (kept u)) o

@[simp] theorem kept_ite (c : Prop) [Decidable c] (a b : State) :
    kept (if c then a else b) = if c then kept a else kept b := by split <;> rfl

@[simp] theorem leads_ite (k : Kept) (c : Prop) [Decidable c] (a b : Kept) :
    Leads fixed k (if c then a else b) ↔ if c then Leads fixed k a else Leads fixed k b := by split <;> rfl

/-- A fold of steps that change nothing of it. -/
@[simp] theorem kept_foldl {α : Type} {f : State → α → State} (h : ∀ s x, EveryNext (fun u => kept u = kept s) (.next (f s x)))
    (l : List α) (s : State) :
    kept (l.foldl f s) = kept s := by
  induction l generalizing s with
  | nil => rfl
  | cons x l ih => rw [List.foldl_cons, ih, (everyNext_next _ _).mp (h s x)]

@[simp] theorem leads_foldl {α : Type} {k : Kept} {f : State → α → State} (h : ∀ s x, Goes fixed s (.next (f s x))) (l : List α)
    (s : State) : Leads fixed k (kept (l.foldl f s)) ↔ Leads fixed k (kept s) ∨ Anew fixed k (l.foldl f s) := by
  refine leads_iff ?_
  induction l generalizing s with
  | nil => exact leads_refl _
  | cons x l ih => exact ((everyNext_next _ _).mp (h s x)).trans (ih (f s x))

/-- A fold of steps each of which follows what stood before it. -/
theorem Leads.foldl {α : Type} {k : Kept} {f : State → α → State} {s : State} (hs : Leads fixed k (kept s))
    (h : ∀ s x, Leads fixed (kept s) (kept (f s x))) (l : List α) : Leads fixed k (kept (l.foldl f s)) :=
  (leads_foldl (fun v x => (everyNext_next _ _).mpr (h v x)) l s).mpr (Or.inl hs)

@[simp] theorem sec_modSec (s : State) (f : Sec → Sec) : (modSec s f).sec = f s.sec := rfl

@[simp] theorem power_modPower (s : State) (f : Power → Power) : (modPower s f).power = f s.power := rfl

/-- A fold that carries a state as a part of its value. -/
theorem leads_foldl_acc {β α : Type} (part : β → State) {f : β → α → β}
    (h : ∀ b x, Leads fixed (kept (part b)) (kept (part (f b x)))) (l : List α) (b : β) :
    Leads fixed (kept (part b)) (kept (part (l.foldl f b))) := by
  induction l generalizing b with
  | nil => exact leads_refl _
  | cons x l ih => exact (h b x).trans (ih (f b x))

@[simp] theorem goes_withHead {s : State} (t k op : Nat) {f : Tile → QEntry → Outcome} (h : ∀ x e, Goes fixed s (f x e)) :
    Goes fixed s (withHead s t k op f) := by
  refine everyNext_withTile s t fun x => ?_
  split
  · simp
  · split <;> simp [h]

@[simp] theorem goes_withCmd {s : State} (k op : Nat) {f : Packet → Outcome} (h : ∀ x, Goes fixed s (f x)) :
    Goes fixed s (withCmd s k op f) :=
  everyNext_withCmd k op (leads_refl _) h

/-! ## Memory -/

@[simp] theorem memWrite_leads (k : Kept) (s : State) (a : Nat) (v : Byte) :
    Leads fixed k (keptOf (memWrite s a v).mem s.regions s.saves s.pending s.feat s.power.ceil s.sec.floor) ↔
   Leads fixed k (kept s) ∨ Anew fixed k (memWrite s a v) :=
  leads_iff (leads_of_wf (memWrite_wf s a v) rfl rfl rfl rfl)

@[simp] theorem memDrop_leads (z : Kept) (s : State) (lo hi : Nat) :
    Leads fixed z (keptOf (memDrop s lo hi).mem s.regions s.saves s.pending s.feat s.power.ceil s.sec.floor) ↔
      Leads fixed z (kept s) ∨ Anew fixed z (memDrop s lo hi) :=
  leads_iff (leads_of_wf (memDrop_wf s lo hi) rfl rfl rfl rfl)

/-- Which addresses read zero unlisted depends on the bases, sizes and contents of the regions alone. -/
theorem memWf_map_regions {s u : State} {f : Region → Region} (hr : u.regions = s.regions.map f)
    (hf : ∀ r, (f r).base = r.base ∧ visibleBytes (f r) = visibleBytes r ∧ (f r).zero = r.zero) (hm : u.mem = s.mem)
        (hv : u.saves = s.saves) :
    memWf u = memWf s := by
  have hz (a : Nat) : memZero u a = memZero s a := by
    have hat : regionAt u a = (regionAt s a).map f := by
      simp [regionAt, hr, List.find?_map, fun r => (hf r).1, fun r => (hf r).2.1]
    have hsave : saveAt u a = saveAt s a := by simp [saveAt, hv]
    rw [memZero, memZero, hat, hsave]
    cases regionAt s a with
    | none => rfl
    | some r => simp [(hf r).2.2]
  simp [memWf, hm, hz]

theorem leads_map_regions (s : State) {f : Region → Region}
    (hf : ∀ r, (f r).base = r.base ∧ visibleBytes (f r) = visibleBytes r ∧ (f r).zero = r.zero) :
    Leads fixed (kept s) (kept { s with regions := s.regions.map f }) :=
  leads_of_wf (fun h => (memWf_map_regions (s := s) (u := { s with regions := s.regions.map f }) rfl hf rfl rfl).trans h) rfl rfl rfl rfl

@[simp] theorem memPut_leads (k : Kept) (s : State) (a : Nat) (bs : List Byte) :
    Leads fixed k (kept (memPut s a bs)) ↔ Leads fixed k (kept s) ∨ Anew fixed k (memPut s a bs) := leads_iff (by simp [memPut])

@[simp] theorem signal_kept (s : State) (p pf vec : Nat) : kept (signal s p pf vec) = kept s := by simp [signal]

@[simp] theorem modCq_kept (s : State) (p c : Nat) (f : CompQueue → CompQueue) : kept (modCq s p c f) = kept s := by simp [modCq]
@[simp] theorem signalError_kept (s : State) (p : Nat) : kept (signalError s p) = kept s := by simp [signalError]

@[simp] theorem putRecord_kept (s : State) (status sev : Nat) (lasting summary : Bool) (src job loc0 loc1 : Nat) (detail : List Nat) :
    kept (putRecord s status sev lasting summary src job loc0 loc1 detail) = kept s := by simp [putRecord]
@[simp] theorem queueRecord_kept (s : State) (p q : Nat) (cq : Bool) : kept (queueRecord s p q cq) = kept s := by simp [queueRecord]

@[simp] theorem writeEntry_leads (k : Kept) (s : State) (p c : Nat) (r : Reply) :
    Leads fixed k (kept (writeEntry s p c r)) ↔
        Leads fixed k (kept s) ∨ Anew fixed k (writeEntry s p c r) := leads_iff (by simp [writeEntry])


/-! ### Links -/

@[simp] theorem putWire_kept (s : State) (p : Nat) (f : Frame) : kept (putWire s p f) = kept s := by simp [putWire]

@[simp] theorem linkFrame_kept (s : State) (p ftype v : Nat) : kept (linkFrame s p ftype v) = kept s := by
  simp [linkFrame]

@[simp] theorem payCredits_kept (p lvc : Nat) (k m : Nat) (s : State) : kept (payCredits p lvc k m s) = kept s := by
  induction k generalizing m s with
  | zero => rfl
  | succ k ih => simp [payCredits, ih]

@[simp] theorem enterIn_kept (s : State) (p lvc n : Nat) : kept (enterIn s p lvc n) = kept s := by simp [enterIn]

@[simp] theorem freeIn_kept (s : State) (p lvc n : Nat) : kept (freeIn s p lvc n) = kept s := by simp [freeIn]

@[simp] theorem pumpPort_kept (p : Nat) (k : Nat) (s : State) : kept (pumpPort p k s) = kept s := by
  induction k generalizing s with
  | zero => rfl
  | succ k ih =>
    simp only [pumpPort]
    (repeat' split) <;> simp [ih]

@[simp] theorem pump_kept (s : State) (p : Nat) : kept (pump s p) = kept s := by simp [pump]

@[simp] theorem queueFrame_kept (s : State) (p : Nat) (f : Frame) : kept (queueFrame s p f) = kept s := by
  simp [queueFrame]

@[simp] theorem sendTo_kept (s : State) (d h : Nat) (f : Frame) : kept (sendTo s d h f) = kept s := by
  fun_cases sendTo s d h f <;> simp

@[simp] theorem sendResp_kept (s : State) (h : RespHead) (bytes : List Byte) : kept (sendResp s h bytes) = kept s := by
  simp [sendResp]

@[simp] theorem sendControl_kept (s : State) (d k : Nat) (vs : List Nat) : kept (sendControl s d k vs) = kept s := by
  simp [sendControl]

@[simp] theorem resendFrom_kept (s : State) (p i : Nat) : kept (resendFrom s p i) = kept s := by simp [resendFrom]

@[simp] theorem holdFlows_kept (s : State) : kept (holdFlows s) = kept s := by simp [holdFlows]

@[simp] theorem tellPort_kept (s : State) (d p : Nat) (up : Bool) : kept (tellPort s d p up) = kept s := by
  simp [tellPort]

@[simp] theorem notePort_kept (s : State) (d p : Nat) (up : Bool) : kept (notePort s d p up) = kept s := by
  simp [notePort]

@[simp] theorem portDown_kept (s : State) (p : Nat) : kept (portDown s p) = kept s := by simp [portDown]

/-! ### Ops -/

@[simp] theorem setTile_kept (s : State) (t : Nat) (tl : Tile) : kept (setTile s t tl) = kept s := by simp [setTile]

@[simp] theorem modTile_kept (s : State) (t : Nat) (f : Tile → Tile) : kept (modTile s t f) = kept s := by simp [modTile]

@[simp] theorem progress_kept (s : State) (t : Nat) : kept (progress s t) = kept s := by simp [progress]

@[simp] theorem binRead_kept (s : State) (l : Nat) : kept (binRead s l) = kept s := by simp [binRead]

@[simp] theorem binReads_kept (s : State) (a n : Nat) : kept (binReads s a n) = kept s := by simp [binReads]

@[simp] theorem binsWithout_kept (s : State) (p : BinLine → Bool) : kept (binsWithout s p) = kept s := by
  simp [binsWithout]

@[simp] theorem flushEntry_leads (z : Kept) (t : Nat) (s : State) (w : WgbEntry) :
    Leads fixed z (kept (flushEntry t s w)) ↔ Leads fixed z (kept s) ∨ Anew fixed z (flushEntry t s w) := by
  refine leads_iff ?_
  simp [flushEntry]

@[simp] theorem flushWhere_leads (z : Kept) (s : State) (t : Nat) (p : WgbEntry → Bool) :
    Leads fixed z (kept (flushWhere s t p)) ↔ Leads fixed z (kept s) ∨ Anew fixed z (flushWhere s t p) := by
  refine leads_iff ?_
  simp [flushWhere]

@[simp] theorem flushPad_leads (z : Kept) (s : State) (t a n : Nat) :
    Leads fixed z (kept (flushPad s t a n)) ↔ Leads fixed z (kept s) ∨ Anew fixed z (flushPad s t a n) := leads_iff (by simp [flushPad])

@[simp] theorem padWrite_leads (z : Kept) (s : State) (t a : Nat) (bs : List Byte) :
    Leads fixed z (kept (padWrite s t a bs)) ↔ Leads fixed z (kept s) ∨ Anew fixed z (padWrite s t a bs) := by
  refine leads_iff ?_
  simp [padWrite]

@[simp] theorem wgbWrite_leads (z : Kept) (s : State) (t a : Nat) (bs : List Byte) (ofRun : Bool) :
    Leads fixed z (kept (wgbWrite s t a bs ofRun)) ↔ Leads fixed z (kept s) ∨ Anew fixed z (wgbWrite s t a bs ofRun) := by
  refine leads_iff ?_
  simp only [wgbWrite]
  (repeat' split) <;> simp

@[simp] theorem flushRunLines_leads (z : Kept) (s : State) (t : Nat) :
    Leads fixed z (kept (flushRunLines s t)) ↔
        Leads fixed z (kept s) ∨ Anew fixed z (flushRunLines s t) := leads_iff (by simp [flushRunLines])

@[simp] theorem flushWalked_leads (z : Kept) (s : State) (ks : List (Nat × Nat)) :
    Leads fixed z (kept (flushWalked s ks)) ↔ Leads fixed z (kept s) ∨ Anew fixed z (flushWalked s ks) := by
  refine leads_iff ?_
  simp [flushWalked]

@[simp] theorem setSlotTag_kept (s : State) (t k : Nat) (b : Bool) : kept (setSlotTag s t k b) = kept s := by
  simp [setSlotTag]

@[simp] theorem fillSlots_kept (s : State) (t : Nat) (ks : List Nat) : kept (fillSlots s t ks) = kept s := by
  simp [fillSlots]

@[simp] theorem tellGenerations_kept (s : State) (ts : List Nat) : kept (tellGenerations s ts) = kept s := by
  simp [tellGenerations]

@[simp] theorem signalBoth_kept (s : State) (vec : Nat) : kept (signalBoth s vec) = kept s := by simp [signalBoth]

@[simp] theorem modSq_kept (s : State) (p q : Nat) (f : SubQueue → SubQueue) : kept (modSq s p q f) = kept s := by
  simp [modSq]

@[simp] theorem postEntry_leads (z : Kept) (s : State) (p c : Nat) (r : Reply) :
    Leads fixed z (kept (postEntry s p c r)) ↔ Leads fixed z (kept s) ∨ Anew fixed z (postEntry s p c r) := by
  refine leads_iff ?_
  simp [postEntry]

@[simp] theorem drainHeld_leads (z : Kept) (p c : Nat) (k : Nat) (s : State) :
    Leads fixed z (kept (drainHeld p c k s)) ↔ Leads fixed z (kept s) ∨ Anew fixed z (drainHeld p c k s) := by
  refine leads_iff ?_
  induction k generalizing s with
  | zero => exact leads_refl _
  | succ k ih =>
    simp only [drainHeld]
    (repeat' split) <;> simp [leads_iff (ih _)]

@[simp] theorem replyPacket_leads (z : Kept) (s : State) (k : Packet) (status detail r0 r1 : Nat) :
    Leads fixed z (kept (replyPacket s k status detail r0 r1)) ↔
        Leads fixed z (kept s) ∨ Anew fixed z (replyPacket s k status detail r0 r1) := by
  refine leads_iff ?_
  simp [replyPacket]

@[simp] theorem sendForward_kept (s : State) (x : Packet) : kept (sendForward s x) = kept s := by simp [sendForward]

@[simp] theorem sendForwards_kept (s : State) : kept (sendForwards s) = kept s := by simp [sendForwards]

@[simp] theorem complete_leads (z : Kept) (s : State) (k status detail r0 r1 : Nat) :
    Leads fixed z (kept (complete s k status detail r0 r1)) ↔ Leads fixed z (kept s) ∨ Anew fixed z (complete s k status detail r0 r1) := by
  refine leads_iff ?_
  simp only [complete]
  (repeat' split) <;> simp

@[simp] theorem replyOk_leads (z : Kept) (s : State) (k r0 r1 : Nat) :
    Leads fixed z (kept (replyOk s k r0 r1)) ↔ Leads fixed z (kept s) ∨ Anew fixed z (replyOk s k r0 r1) := leads_iff (by simp [replyOk])

@[simp] theorem refuse_leads (z : Kept) (s : State) (k status detail : Nat) :
    Leads fixed z (kept (refuse s k status detail)) ↔ Leads fixed z (kept s) ∨ Anew fixed z (refuse s k status detail) := by
  refine leads_iff ?_
  simp [refuse]

@[simp] theorem accept_leads (z : Kept) (s : State) (k : Nat) (r0 : Nat) :
    Leads fixed z (kept (accept s k r0)) ↔ Leads fixed z (kept s) ∨ Anew fixed z (accept s k r0) := by
  refine leads_iff ?_
  fun_cases accept s k r0 <;> simp

@[simp] theorem satisfyTicket_leads (z : Kept) (s : State) (k : Nat) :
    Leads fixed z (kept (satisfyTicket s k)) ↔
        Leads fixed z (kept s) ∨ Anew fixed z (satisfyTicket s k) := leads_iff (by simp [satisfyTicket])

@[simp] theorem recordEvent_leads (z : Kept) (s : State) (r : ErrRec) :
    Leads fixed z (kept (recordEvent s r)) ↔ Leads fixed z (kept s) ∨ Anew fixed z (recordEvent s r) := by
  refine leads_iff ?_
  fun_cases recordEvent s r <;> simp

@[simp] theorem addRecord_leads (z : Kept) (s : State) (status sev : Nat) (lasting summary : Bool) (src job loc0 loc1 : Nat)
    (detail : List Nat) :
    Leads fixed z (kept (addRecord s status sev lasting summary src job loc0 loc1 detail)) ↔
        Leads fixed z (kept s) ∨ Anew fixed z (addRecord s status sev lasting summary src job loc0 loc1 detail) := by
  refine leads_iff ?_
  simp only [addRecord]
  (repeat' split) <;> simp

@[simp] theorem jobRecord_leads (z : Kept) (s : State) (src status sev loc0 loc1 : Nat) (detail : List Nat) :
    Leads fixed z (kept (jobRecord s src status sev loc0 loc1 detail)) ↔
        Leads fixed z (kept s) ∨ Anew fixed z (jobRecord s src status sev loc0 loc1 detail) := by
  refine leads_iff ?_
  simp [jobRecord]

@[simp] theorem plainRecord_leads (z : Kept) (s : State) (src status sev loc0 loc1 : Nat) (detail : List Nat) :
    Leads fixed z (kept (plainRecord s src status sev loc0 loc1 detail)) ↔
        Leads fixed z (kept s) ∨ Anew fixed z (plainRecord s src status sev loc0 loc1 detail) := by
  refine leads_iff ?_
  simp [plainRecord]

@[simp] theorem bumpFresh_kept (s : State) : kept (bumpFresh s) = kept s := by simp [bumpFresh]

/-! ### Crypto -/

@[simp] theorem wrongWord_leads (z : Kept) (s : State) (a : Nat) (e : BitVec 128) :
    Leads fixed z (kept (wrongWord s a e)) ↔ Leads fixed z (kept s) ∨ Anew fixed z (wrongWord s a e) := by
  refine leads_iff ?_
  simp [wrongWord]

/-! ### Boundary -/

@[simp] theorem finishMma_kept (s : State) (t : Nat) (tl : Tile) (r : MmaRun) : kept (finishMma s t tl r) = kept s := by
  simp [finishMma]

@[simp] theorem writeRecords_leads (z : Kept) (v : VxUnit) (t : Nat) (s : State) (rs : List (Nat × Nat)) :
    Leads fixed z (kept (writeRecords v t s rs).1) ↔ Leads fixed z (kept s) ∨ Anew fixed z (writeRecords v t s rs).1 := by
  refine leads_iff ?_
  induction rs generalizing s with
  | nil => exact leads_refl _
  | cons r rs ih =>
    unfold writeRecords
    split <;> simp [leads_iff (ih _)]

@[simp] theorem finishRun_leads (z : Kept) (s : State) (t : Nat) (tl : Tile) (r0 : VxRun) :
    Leads fixed z (kept (finishRun s t tl r0)) ↔ Leads fixed z (kept s) ∨ Anew fixed z (finishRun s t tl r0) := by
  refine leads_iff ?_
  simp [finishRun]

@[simp] theorem toBoundary_leads (z : Kept) (s : State) (t : Nat) :
    Leads fixed z (kept (toBoundary s t)) ↔ Leads fixed z (kept s) ∨ Anew fixed z (toBoundary s t) := by
  refine leads_iff ?_
  simp only [toBoundary]
  (repeat' split) <;> simp

/-! ### Lifecycle -/

@[simp] theorem onGrant_kept (s : State) (w : LeaveFor) : kept (onGrant s w) = kept s := by
  fun_cases onGrant s w <;> simp

@[simp] theorem serveLeave_kept (k : Nat) (s : State) : kept (serveLeave k s) = kept s := by
  induction k generalizing s with
  | zero => rfl
  | succ k ih =>
    simp only [serveLeave]
    (repeat' split) <;> simp [ih]

@[simp] theorem serveAll_kept (s : State) : kept (serveAll s) = kept s := by simp [serveAll]

@[simp] theorem askLeave_kept (s : State) (w : LeaveFor) (lc : Bool) (draw : List Nat) :
    kept (askLeave s w lc draw) = kept s := by
  simp [askLeave]

@[simp] theorem releaseLeave_kept (s : State) (w : LeaveFor) : kept (releaseLeave s w) = kept s := by simp [releaseLeave]

@[simp] theorem dropWaiters_kept (s : State) (p : Waiter → Bool) : kept (dropWaiters s p) = kept s := by
  simp [dropWaiters]

@[simp] theorem discardTile_leads (z : Kept) (s0 : State) (t : Nat) :
    Leads fixed z (kept (discardTile s0 t)) ↔ Leads fixed z (kept s0) ∨ Anew fixed z (discardTile s0 t) := leads_iff (by simp [discardTile])

@[simp] theorem resumeRecovery_leads (z : Kept) (s : State) (ticket : Nat) :
    Leads fixed z (kept (resumeRecovery s ticket)) ↔ Leads fixed z (kept s) ∨ Anew fixed z (resumeRecovery s ticket) := by
  refine leads_iff ?_
  unfold resumeRecovery
  split <;> simp

@[simp] theorem endLaunch_leads (z : Kept) (s : State) (l : Launch) :
    Leads fixed z (kept (endLaunch s l)) ↔ Leads fixed z (kept s) ∨ Anew fixed z (endLaunch s l) := leads_iff (by simp [endLaunch])

@[simp] theorem endSections_leads (z : Kept) (s : State) :
    Leads fixed z (kept (endSections s)) ↔ Leads fixed z (kept s) ∨ Anew fixed z (endSections s) := leads_iff (by simp [endSections])

@[simp] theorem stopTiles_leads (z : Kept) (s : State) (ts : List Nat) :
    Leads fixed z (kept (stopTiles s ts)) ↔ Leads fixed z (kept s) ∨ Anew fixed z (stopTiles s ts) := leads_iff (by simp [stopTiles])

@[simp] theorem resetTiles_kept (s : State) (f : Tile → Tile) : kept (resetTiles s f) = kept s := by simp [resetTiles]

@[simp] theorem jobReset_leads (z : Kept) (s : State) (j : Nat) :
    Leads fixed z (kept (jobReset s j)) ↔ Leads fixed z (kept s) ∨ Anew fixed z (jobReset s j) := leads_iff (by simp [jobReset])

@[simp] theorem modClient_kept (s : State) (p c : Nat) (f : Client → Client) : kept (modClient s p c f) = kept s := by
  simp [modClient]

@[simp] theorem tellCascade_kept (s : State) (j : Job) (code : Nat) (bytes : List Byte) :
    kept (tellCascade s j code bytes) = kept s := by
  simp [tellCascade]

@[simp] theorem tellSwitch_kept (s : State) (j : Job) (forced : Bool) : kept (tellSwitch s j forced) = kept s := by
  simp [tellSwitch]

@[simp] theorem giveDevice_kept (s : State) (j : Job) : kept (giveDevice s j) = kept s := by simp [giveDevice]

@[simp] theorem passDevice_kept (s : State) : kept (passDevice s) = kept s := by
  simp only [passDevice]
  (repeat' split) <;> simp

@[simp] theorem passIfFree_kept (s : State) : kept (passIfFree s) = kept s := by simp [passIfFree]

@[simp] theorem withdrawDecision_kept (s : State) : kept (withdrawDecision s) = kept s := by
  simp only [withdrawDecision]
  (repeat' split) <;> simp

@[simp] theorem decideSwitch_kept (s : State) (j c : Nat) : kept (decideSwitch s j c) = kept s := by
  simp only [decideSwitch]
  (repeat' split) <;> simp

@[simp] theorem enterQueue_kept (s : State) (j : Job) : kept (enterQueue s j) = kept s := by
  simp only [enterQueue]
  (repeat' split) <;> simp

@[simp] theorem releaseJobLeave_kept (s : State) (j : Nat) : kept (releaseJobLeave s j) = kept s := by
  simp [releaseJobLeave]

@[simp] theorem failJob_leads (z : Kept) (s : State) (j st : Nat) :
    Leads fixed z (kept (failJob s j st)) ↔ Leads fixed z (kept s) ∨ Anew fixed z (failJob s j st) := by
  refine leads_iff ?_
  unfold failJob
  split <;> simp

@[simp] theorem failComputing_leads (z : Kept) (s : State) (st : Nat) :
    Leads fixed z (kept (failComputing s st)) ↔ Leads fixed z (kept s) ∨ Anew fixed z (failComputing s st) := by
  refine leads_iff ?_
  fun_cases failComputing s st <;> simp

@[simp] theorem tileRecord_leads (z : Kept) (s : State) (t unit idx : Nat) (e : TErr) :
    Leads fixed z (kept (tileRecord s t unit idx e)) ↔ Leads fixed z (kept s) ∨ Anew fixed z (tileRecord s t unit idx e) := by
  refine leads_iff ?_
  simp [tileRecord]

@[simp] theorem tileFatal_leads (z : Kept) (s : State) (t unit idx : Nat) (e : TErr) :
    Leads fixed z (kept (tileFatal s t unit idx e)) ↔ Leads fixed z (kept s) ∨ Anew fixed z (tileFatal s t unit idx e) := by
  refine leads_iff ?_
  simp [tileFatal]

@[simp] theorem levelRecord_leads (z : Kept) (s : State) (st level loc1 : Nat) (detail : List Nat) :
    Leads fixed z (kept (levelRecord s st level loc1 detail)) ↔
        Leads fixed z (kept s) ∨ Anew fixed z (levelRecord s st level loc1 detail) := by
  refine leads_iff ?_
  simp [levelRecord]

@[simp] theorem levelFatal_leads (z : Kept) (s : State) (st level loc1 : Nat) (detail : List Nat) :
    Leads fixed z (kept (levelFatal s st level loc1 detail)) ↔
        Leads fixed z (kept s) ∨ Anew fixed z (levelFatal s st level loc1 detail) := by
  refine leads_iff ?_
  simp [levelFatal]

@[simp] theorem deviceFatal_leads (z : Kept) (s : State) (st src loc0 loc1 : Nat) (detail : List Nat) :
    Leads fixed z (kept (deviceFatal s st src loc0 loc1 detail)) ↔
        Leads fixed z (kept s) ∨ Anew fixed z (deviceFatal s st src loc0 loc1 detail) := by
  refine leads_iff ?_
  simp only [deviceFatal]
  (repeat' split) <;> simp

@[simp] theorem memFatal_leads (z : Kept) (s : State) (a : Nat) (lasting : Bool) :
    Leads fixed z (kept (memFatal s a lasting)) ↔ Leads fixed z (kept s) ∨ Anew fixed z (memFatal s a lasting) := by
  refine leads_iff ?_
  fun_cases memFatal s a lasting <;> simp

/-! ### Packets -/

@[simp] theorem goes_withJob {s : State} (k op : Nat) {f : Packet → Job → Outcome} (h : ∀ x j, Goes fixed s (f x j)) :
    Goes fixed s (withJob s k op f) :=
  everyNext_withJob k op (leads_refl _) (by simp) h

@[simp] theorem badField_leads (z : Kept) (s : State) (k off : Nat) :
    Leads fixed z (kept (badField s k off)) ↔ Leads fixed z (kept s) ∨ Anew fixed z (badField s k off) := leads_iff (by simp [badField])

@[simp] theorem early_leads (z : Kept) (s : State) (x : Packet) :
    Leads fixed z (kept (early s x)) ↔ Leads fixed z (kept s) ∨ Anew fixed z (early s x) := leads_iff (by simp [early])

@[simp] theorem pruneImages_kept (s : State) : kept (pruneImages s) = kept s := by simp [pruneImages]

/-! ### Regions -/

@[simp] theorem takeKey_kept (s : State) (slot : Option Nat) : kept (takeKey s slot) = kept s := by
  fun_cases takeKey s slot <;> simp

@[simp] theorem dropKey_kept (s : State) (slot : Option Nat) : kept (dropKey s slot) = kept s := by
  fun_cases dropKey s slot <;> simp

@[simp] theorem startTransfer_kept (s : State) (k : Nat) (lc : Bool) (rs : List (Nat × Nat)) :
    kept (startTransfer s k lc rs) = kept s := by
  simp [startTransfer]

@[simp] theorem orLater_leads (z : Kept) (s : State) (k count : Nat) {fin : State → State} (h : Goes fixed s (.next (fin s))) :
    Leads fixed z (kept (orLater s k count fin)) ↔ Leads fixed z (kept s) ∨ Anew fixed z (orLater s k count fin) := by
  refine leads_iff ?_
  unfold orLater
  split
  · simp
  · exact (everyNext_next _ _).mp h

@[simp] theorem endTransfer_leads (z : Kept) (s : State) (k r0 r1 : Nat) :
    Leads fixed z (kept (endTransfer s k r0 r1)) ↔ Leads fixed z (kept s) ∨ Anew fixed z (endTransfer s k r0 r1) := by
  refine leads_iff ?_
  simp [endTransfer]

@[simp] theorem execRegionProtect_goes (k : Nat) (s : State) : Goes fixed s (execRegionProtect k s) := by
  refine goes_withJob _ _ fun x j => ?_
  dsimp only
  split
  · simp
  next r _ =>
    have hmap (u : State) (tw hr hw : Bool) : Leads fixed (kept u) (kept { u with regions := u.regions.map fun y =>
        if y = r then { y with tw := tw, hr := hr, hw := hw } else y }) :=
      leads_map_regions u fun y => by split <;> simp [visibleBytes]
    split
    · simp
    · split
      · simp
      · refine (everyNext_next _ _).mpr ((replyOk_leads ..).mpr (Or.inl (Leads.trans ?_ (hmap ..))))
        simp

@[simp] theorem copyEnd_leads (z : Kept) (s : State) (x : Packet) (dma : List Byte) :
    Leads fixed z (kept (copyEnd s x dma)) ↔ Leads fixed z (kept s) ∨ Anew fixed z (copyEnd s x dma) := by
  refine leads_iff ?_
  simp only [copyEnd]
  (repeat' split) <;> simp

@[simp] theorem execCopy_goes (k : Nat) (dma : List Byte) (s : State) : Goes fixed s (execCopy k dma s) :=
  goes_withJob _ _ fun x j => by (repeat' split) <;> simp

@[simp] theorem fillEnd_leads (z : Kept) (s : State) (x : Packet) :
    Leads fixed z (kept (fillEnd s x)) ↔ Leads fixed z (kept s) ∨ Anew fixed z (fillEnd s x) := by
  refine leads_iff ?_
  fun_cases fillEnd s x <;> simp

@[simp] theorem execFill_goes (k : Nat) (s : State) : Goes fixed s (execFill k s) := by simp [execFill]

/-! ### Mesh -/

@[simp] theorem injectMsg_kept (s : State) (m : Msg) : kept (injectMsg s m) = kept s := by simp [injectMsg]

@[simp] theorem holdRoutes_kept (s0 s : State) : kept (holdRoutes s0 s) = kept s := by simp [holdRoutes]

/-! ### Sequencer -/

theorem settle_goes {s v : State} (h : Leads fixed (kept s) (kept v)) (t idx : Nat) (r : Except TErr Tile) :
    Goes fixed s (settle v t idx r) := by
  unfold settle
  split <;> simp [h]

@[simp] theorem flushPtr_leads (z : Kept) (s : State) (t : Nat) :
    Leads fixed z (kept (flushPtr s t)) ↔ Leads fixed z (kept s) ∨ Anew fixed z (flushPtr s t) := by
  refine leads_iff ?_
  fun_cases flushPtr s t <;> simp

@[simp] theorem dispatchStep_goes (s : State) (t : Nat) (tl0 : Tile) : Goes fixed s (dispatchStep s t tl0) := by
  simp only [dispatchStep]
  split
  · simp
  · split
    · simp
    · split
      · simp
      · exact settle_goes (by simp) _ _ _

@[simp] theorem execDispatch_goes (t : Nat) (s : State) : Goes fixed s (execDispatch t s) := by simp [execDispatch]

@[simp] theorem execPointerEntryRead_goes (t : Nat) (s : State) : Goes fixed s (execPointerEntryRead t s) :=
  everyNext_withTile _ _ fun tl0 => by dsimp only; (repeat' split) <;> simp

@[simp] theorem execMark_goes (t q : Nat) (s : State) : Goes fixed s (execMark t q s) := by simp [execMark]

@[simp] theorem execCset_goes (t q : Nat) (s : State) : Goes fixed s (execCset t q s) :=
  everyNext_withQueue _ _ <| goes_withHead _ _ _ (fun tl e => by dsimp only; (repeat' split) <;> simp)

@[simp] theorem execCget_goes (t q : Nat) (s : State) : Goes fixed s (execCget t q s) := by simp [execCget]

@[simp] theorem startProduct_goes (zero : Bool) (op t : Nat) (s : State) : Goes fixed s (startProduct zero op t s) :=
  goes_withHead _ _ _ fun tl e => by (repeat' split) <;> simp

@[simp] theorem execMma_goes (t : Nat) (s : State) : Goes fixed s (execMma t s) := by simp [execMma]

@[simp] theorem execMmaz_goes (t : Nat) (s : State) : Goes fixed s (execMmaz t s) := by simp [execMmaz]

@[simp] theorem execMmaComplete_goes (t : Nat) (s : State) : Goes fixed s (execMmaComplete t s) :=
  everyNext_withTile _ _ fun tl => by (repeat' split) <;> simp

@[simp] theorem execAccsw_goes (t : Nat) (s : State) : Goes fixed s (execAccsw t s) := by simp [execAccsw]

@[simp] theorem startRun_goes (scan : Bool) (op t : Nat) (s : State) : Goes fixed s (startRun scan op t s) :=
  goes_withHead _ _ _ fun tl e => by (repeat' split) <;> simp

@[simp] theorem execVrun_goes (t : Nat) (s : State) : Goes fixed s (execVrun t s) := by simp [execVrun]

@[simp] theorem execVscan_goes (t : Nat) (s : State) : Goes fixed s (execVscan t s) := by simp [execVscan]

/-! ### Streams -/

@[simp] theorem slotFatal_leads (z : Kept) (s : State) (t sl c addr : Nat) :
    Leads fixed z (kept (slotFatal s t sl c addr)) ↔ Leads fixed z (kept s) ∨ Anew fixed z (slotFatal s t sl c addr) := by
  refine leads_iff ?_
  simp [slotFatal]

@[simp] theorem fetchStep_leads (z : Kept) (s : State) (t sl : Nat) (tl : Tile) (c : Chain) :
    Leads fixed z (kept (fetchStep s t sl tl c)) ↔ Leads fixed z (kept s) ∨ Anew fixed z (fetchStep s t sl tl c) := by
  refine leads_iff ?_
  simp only [fetchStep]
  (repeat' split) <;> simp

@[simp] theorem execStrm_goes (t : Nat) (s : State) : Goes fixed s (execStrm t s) := by simp [execStrm]

@[simp] theorem execDescriptorFetch_goes (t sl : Nat) (s : State) : Goes fixed s (execDescriptorFetch t sl s) :=
  everyNext_withSlot _ _ <| everyNext_withTile _ _ (fun tl => by split <;> simp)

@[simp] theorem setLocalByte_leads (z : Kept) (s : State) (m : Move) (a : Nat) (b : Byte) :
    Leads fixed z (kept (setLocalByte s m a b)) ↔ Leads fixed z (kept s) ∨ Anew fixed z (setLocalByte s m a b) := by
  refine leads_iff ?_
  simp [setLocalByte]

@[simp] theorem putLocal_leads (z : Kept) (s : State) (m : Move) (f : Fmt) (an : Nat × Nat) (code : Nat) :
    Leads fixed z (kept (putLocal s m f an code)) ↔ Leads fixed z (kept s) ∨ Anew fixed z (putLocal s m f an code) := by
  refine leads_iff ?_
  simp [putLocal]

@[simp] theorem putWalked_leads (z : Kept) (s : State) (f : Fmt) (an : Nat × Nat) (code : Nat) :
    Leads fixed z (kept (putWalked s f an code)) ↔ Leads fixed z (kept s) ∨ Anew fixed z (putWalked s f an code) := by
  refine leads_iff ?_
  simp [putWalked]

@[simp] theorem tagsAfter_kept (s : State) (m : Move) : kept (tagsAfter s m) = kept s := by simp [tagsAfter]

@[simp] theorem finishDesc_kept (s : State) (t sl : Nat) (c : Chain) (m : Move) (nib : Nat) :
    kept (finishDesc s t sl c m nib) = kept s := by
  simp [finishDesc]

@[simp] theorem moveFatal_leads (z : Kept) (s : State) (t sl : Nat) (c : Chain) (e : Nat × Nat) :
    Leads fixed z (kept (moveFatal s t sl c e)) ↔ Leads fixed z (kept s) ∨ Anew fixed z (moveFatal s t sl c e) := by
  refine leads_iff ?_
  simp [moveFatal]

theorem readIngot_leads (m : Move) (l g : Nat) (acc : MoveAcc) : Leads fixed (kept acc.s) (kept (readIngot m l g acc).s) := by
  unfold readIngot
  extract_lets f lf n0 js base hasFine anyIn fa bad fine nbytes acc1
  split
  · exact leads_refl _
  · exact leads_refl _
  · have hacc : Leads fixed (kept acc.s) (kept acc1.s) := by
      refine leads_foldl_acc MoveAcc.s (fun b j => ?_) js acc
      dsimp only
      (repeat' split) <;> simp
    clear_value acc1
    split <;> simp [hacc]

theorem writeIngot_leads (m : Move) (l g : Nat) (acc : MoveAcc) : Leads fixed (kept acc.s) (kept (writeIngot m l g acc).s) := by
  unfold writeIngot
  extract_lets f lf n0 js base hasFine rm nbytes codes vals words vfl r rs enc acc1
  split
  · exact leads_refl _
  · have hacc : Leads fixed (kept acc.s) (kept acc1.s) := by
      refine leads_foldl_acc MoveAcc.s (fun b jc => ?_) (js.zip enc.2.1) { acc with fl := acc.fl ||| enc.2.2 }
      dsimp only
      (repeat' split) <;> simp
    clear_value acc1
    (repeat' split) <;> simp [hacc]

@[simp] theorem runMove_leads (z : Kept) (s : State) (m : Move) (hdr : Bool) :
    Leads fixed z (kept (runMove s m hdr).s) ↔ Leads fixed z (kept s) ∨ Anew fixed z (runMove s m hdr).s := by
  refine leads_iff ?_
  unfold runMove
  dsimp only
  refine Leads.trans ?_ (leads_foldl_acc MoveAcc.s (fun b lg => ?_) _ _)
  · simp
  · split
    · exact writeIngot_leads ..
    · exact readIngot_leads ..

@[simp] theorem completeStep_leads (z : Kept) (s : State) (t sl : Nat) (tl : Tile) (c0 : Chain) :
    Leads fixed z (kept (completeStep s t sl tl c0)) ↔ Leads fixed z (kept s) ∨ Anew fixed z (completeStep s t sl tl c0) := by
  refine leads_iff ?_
  simp only [completeStep]
  (repeat' split) <;> simp [-kept, runMove_leads]

@[simp] theorem execDescriptorComplete_goes (t sl : Nat) (s : State) : Goes fixed s (execDescriptorComplete t sl s) :=
  everyNext_withSlot _ _ <| everyNext_withTile _ _ (fun tl => by split <;> simp)

@[simp] theorem execTagWaitResume_goes (t sl : Nat) (s : State) : Goes fixed s (execTagWaitResume t sl s) :=
  everyNext_withSlot _ _ <| everyNext_withTile _ _ (fun tl => by split <;> simp)

@[simp] theorem execRunComplete_goes (t : Nat) (s : State) : Goes fixed s (execRunComplete t s) :=
  everyNext_withTile _ _ fun tl => by split <;> simp

@[simp] theorem execDeadlineMiss_goes (t sl : Nat) (s : State) : Goes fixed s (execDeadlineMiss t sl s) :=
  everyNext_withSlot _ _ <| everyNext_withTile _ _ (fun tl => by (repeat' split) <;> simp)

@[simp] theorem execStrw_goes (t : Nat) (s : State) : Goes fixed s (execStrw t s) := by simp [execStrw]

@[simp] theorem execWgbIdleFlush_goes (t line : Nat) (s : State) : Goes fixed s (execWgbIdleFlush t line s) := by simp [execWgbIdleFlush]

/-! ### Messages -/

@[simp] theorem storeMain_leads (z : Kept) (s : State) (t qn : Nat) (m : Msg) :
    Leads fixed z (kept (storeMain s t qn m)) ↔ Leads fixed z (kept s) ∨ Anew fixed z (storeMain s t qn m) := by
  refine leads_iff ?_
  simp [storeMain]

@[simp] theorem unspill_leads (z : Kept) (t qn : Nat) (k : Nat) (s : State) :
    Leads fixed z (kept (unspill t qn k s)) ↔ Leads fixed z (kept s) ∨ Anew fixed z (unspill t qn k s) := by
  refine leads_iff ?_
  induction k generalizing s with
  | zero => exact leads_refl _
  | succ k ih =>
    simp only [unspill]
    (repeat' split) <;> simp [leads_iff (ih _)]

@[simp] theorem sendMessage_goes (comb : Bool) (op t : Nat) (s : State) : Goes fixed s (sendMessage comb op t s) :=
  goes_withHead _ _ _ fun tl e => by split <;> simp

@[simp] theorem execSend_goes (t : Nat) (s : State) : Goes fixed s (execSend t s) := by simp [execSend]

@[simp] theorem execComb_goes (t : Nat) (s : State) : Goes fixed s (execComb t s) := by simp [execComb]

@[simp] theorem execRecv_goes (t : Nat) (s : State) : Goes fixed s (execRecv t s) :=
  goes_withHead _ _ _ fun tl e => by dsimp only; (repeat' split) <;> simp

@[simp] theorem execRecvPair_goes (t : Nat) (s : State) : Goes fixed s (execRecvPair t s) :=
  goes_withHead _ _ _ fun tl e => by dsimp only; (repeat' split) <;> simp

@[simp] theorem execRecvFree_goes (t : Nat) (s : State) : Goes fixed s (execRecvFree t s) := by simp [execRecvFree]

@[simp] theorem bumpSpoil_kept (s : State) (t i n : Nat) : kept (bumpSpoil s t i n) = kept s := by simp [bumpSpoil]

@[simp] theorem kindFatal_leads (z : Kept) (s : State) (t : Nat) (m : Msg) :
    Leads fixed z (kept (kindFatal s t m)) ↔ Leads fixed z (kept s) ∨ Anew fixed z (kindFatal s t m) := leads_iff (by simp [kindFatal])

@[simp] theorem acceptPlain_leads (z : Kept) (s : State) (i : Nat) (n : NetMsg) :
    Leads fixed z (kept (acceptPlain s i n)) ↔ Leads fixed z (kept s) ∨ Anew fixed z (acceptPlain s i n) := by
  refine leads_iff ?_
  simp [acceptPlain]

@[simp] theorem arrive_leads (z : Kept) (s : State) (i : Nat)
    (c : Bool) {f : State → NetMsg → State} (h : ∀ v n, Goes fixed v (.next (f v n))) :
    Leads fixed z (kept (arrive s i c f)) ↔ Leads fixed z (kept s) ∨ Anew fixed z (arrive s i c f) := by
  refine leads_iff ?_
  have hf := fun v n => (everyNext_next _ _).mp (h v n)
  simp only [arrive]
  (repeat' split) <;> simp [hf]

@[simp] theorem execDataMessage_goes (i : Nat) (s : State) : Goes fixed s (execDataMessage i s) := by simp [execDataMessage]

@[simp] theorem acceptContribution_leads (z : Kept) (s : State) (i : Nat) (n : NetMsg) :
    Leads fixed z (kept (acceptContribution s i n)) ↔ Leads fixed z (kept s) ∨ Anew fixed z (acceptContribution s i n) := by
  refine leads_iff ?_
  simp [acceptContribution]

@[simp] theorem execContribution_goes (i : Nat) (s : State) : Goes fixed s (execContribution i s) := by simp [execContribution]

@[simp] theorem execSendNotice_goes (i : Nat) (s : State) : Goes fixed s (execSendNotice i s) := by
  simp only [execSendNotice]
  (repeat' split) <;> simp

@[simp] theorem execSpill_goes (t qn : Nat) (s : State) : Goes fixed s (execSpill t qn s) := by simp [execSpill]

@[simp] theorem deadlockRecords_leads (z : Kept) (s0 s : State) (t : Nat) :
    Leads fixed z (kept (deadlockRecords s0 s t)) ↔ Leads fixed z (kept s) ∨ Anew fixed z (deadlockRecords s0 s t) := by
  refine leads_iff ?_
  unfold deadlockRecords
  split <;> simp

@[simp] theorem execNoProgressTimeout_goes (t : Nat) (s : State) :
    Goes fixed s (execNoProgressTimeout t s) := by simp [execNoProgressTimeout]

@[simp] theorem execRouteHoldRelease_goes (src dst : Nat) (s : State) : Goes fixed s (execRouteHoldRelease src dst s) := by
  simp [execRouteHoldRelease]

@[simp] theorem execMessageToRetiredTile_goes (i : Nat) (s : State) : Goes fixed s (execMessageToRetiredTile i s) := by
  fun_cases execMessageToRetiredTile i s <;> simp

/-! ### Tallies -/

@[simp] theorem setTally_kept (s : State) (l p : Nat) (v : Tally) : kept (setTally s l p v) = kept s := by simp [setTally]

@[simp] theorem sendTally_goes (op code t q : Nat) (s : State) : Goes fixed s (sendTally op code t q s) := by simp [sendTally]

@[simp] theorem execTadd_goes (t q : Nat) (s : State) : Goes fixed s (execTadd t q s) := by simp [execTadd]

@[simp] theorem execTdec_goes (t q : Nat) (s : State) : Goes fixed s (execTdec t q s) := by simp [execTdec]

@[simp] theorem execTwait_goes (t q : Nat) (s : State) : Goes fixed s (execTwait t q s) := by simp [execTwait]

@[simp] theorem setBarrier_kept (s : State) (bid : Nat) (b0 : Barrier) : kept (setBarrier s bid b0) = kept s := by
  simp [setBarrier]

@[simp] theorem driveOutputs_kept (s : State) : kept (driveOutputs s) = kept s := by simp [driveOutputs]

@[simp] theorem barFatal_leads (z : Kept) (s : State) (t q bid : Nat) :
    Leads fixed z (kept (barFatal s t q bid)) ↔ Leads fixed z (kept s) ∨ Anew fixed z (barFatal s t q bid) := leads_iff (by simp [barFatal])

@[simp] theorem execBarr_goes (t q : Nat) (s : State) : Goes fixed s (execBarr t q s) := by simp [execBarr]

@[simp] theorem execBwait_goes (t q : Nat) (s : State) : Goes fixed s (execBwait t q s) := by simp [execBwait]

@[simp] theorem completePhase_kept (s : State) (bid : Nat) : kept (completePhase s bid) = kept s := by
  simp [completePhase]

@[simp] theorem execBarrierArrival_goes (i : Nat) (s : State) : Goes fixed s (execBarrierArrival i s) := by
  simp only [execBarrierArrival]
  (repeat' split) <;> simp

@[simp] theorem execBarrierRelease_goes (i : Nat) (s : State) : Goes fixed s (execBarrierRelease i s) := by
  fun_cases execBarrierRelease i s <;> simp

@[simp] theorem execBarrierTimeout_goes (bid : Nat) (s : State) : Goes fixed s (execBarrierTimeout bid s) := by
  simp only [execBarrierTimeout]
  (repeat' split) <;> simp

@[simp] theorem replyWaiter_leads (z : Kept) (s : State) (w : Waiter) :
    Leads fixed z (kept (replyWaiter s w)) ↔ Leads fixed z (kept s) ∨ Anew fixed z (replyWaiter s w) := by
  refine leads_iff ?_
  fun_cases replyWaiter s w <;> simp

@[simp] theorem tallyFatal_leads (z : Kept) (s : State) (st l p vid n : Nat) (who : Nat) :
    Leads fixed z (kept (tallyFatal s st l p vid n who)) ↔ Leads fixed z (kept s) ∨ Anew fixed z (tallyFatal s st l p vid n who) := by
  refine leads_iff ?_
  simp [tallyFatal]

@[simp] theorem applyTally_leads (z : Kept) (s : State) (op vid n who : Nat) (w : Waiter) :
    Leads fixed z (kept (applyTally s op vid n who w)) ↔ Leads fixed z (kept s) ∨ Anew fixed z (applyTally s op vid n who w) := by
  refine leads_iff ?_
  fun_cases applyTally s op vid n who w <;> simp

@[simp] theorem execTallyOperation_goes (i : Nat) (s : State) : Goes fixed s (execTallyOperation i s) := by
  simp only [execTallyOperation]
  (repeat' split) <;> simp

@[simp] theorem execTwaitSatisfied_goes (i : Nat) (s : State) : Goes fixed s (execTwaitSatisfied i s) := by
  simp only [execTwaitSatisfied]
  (repeat' split) <;> simp

@[simp] theorem setCtr_kept (s : State) (l c : Nat) (v : WorkCtr) : kept (setCtr s l c v) = kept s := by simp [setCtr]

@[simp] theorem execWfetch_goes (t : Nat) (s : State) : Goes fixed s (execWfetch t s) := by simp [execWfetch]

@[simp] theorem execWorkFetch_goes (i : Nat) (s : State) : Goes fixed s (execWorkFetch i s) := by
  simp only [execWorkFetch]
  (repeat' split) <;> simp

@[simp] theorem execWorkFetchReply_goes (i : Nat) (s : State) : Goes fixed s (execWorkFetchReply i s) := by
  simp only [execWorkFetchReply]
  (repeat' split) <;> simp

@[simp] theorem afterOr_leads (z : Kept) (s : State) {o : Outcome} (h : Goes fixed s o) :
    Leads fixed z (kept (afterOr s o)) ↔ Leads fixed z (kept s) ∨ Anew fixed z (afterOr s o) := by
  refine leads_iff ?_
  unfold afterOr
  split
  · exact h _ rfl
  · exact leads_refl _

@[simp] theorem settleOne_leads (z : Kept) (i : Nat) (s : State) :
    Leads fixed z (kept (settleOne i s)) ↔ Leads fixed z (kept s) ∨ Anew fixed z (settleOne i s) := by
  refine leads_iff ?_
  fun_cases settleOne i s <;> simp

@[simp] theorem settleCtl_leads (z : Kept) (k : Nat) (s : State) :
    Leads fixed z (kept (settleCtl k s)) ↔ Leads fixed z (kept s) ∨ Anew fixed z (settleCtl k s) := by
  refine leads_iff ?_
  induction k generalizing s with
  | zero => exact leads_refl _
  | succ k ih =>
    simp only [settleCtl]
    (repeat' split) <;> simp [leads_iff (ih _)]

@[simp] theorem settleUnits_leads (z : Kept) (s : State) :
    Leads fixed z (kept (settleUnits s)) ↔ Leads fixed z (kept s) ∨ Anew fixed z (settleUnits s) := leads_iff (by simp [settleUnits])

@[simp] theorem settleAt_leads (z : Kept) (s : State) (ts : List Nat) :
    Leads fixed z (kept (settleAt s ts)) ↔ Leads fixed z (kept s) ∨ Anew fixed z (settleAt s ts) := leads_iff (by simp [settleAt])

@[simp] theorem deliverNet_leads (z : Kept) (k i : Nat) (s : State) :
    Leads fixed z (kept (deliverNet k i s)) ↔ Leads fixed z (kept s) ∨ Anew fixed z (deliverNet k i s) := by
  refine leads_iff ?_
  induction k generalizing i s with
  | zero => exact leads_refl _
  | succ k ih =>
    simp only [deliverNet]
    (repeat' split) <;> simp [leads_iff (ih _ _)]

@[simp] theorem deliverAll_leads (z : Kept) (s : State) :
    Leads fixed z (kept (deliverAll s)) ↔ Leads fixed z (kept s) ∨ Anew fixed z (deliverAll s) := leads_iff (by simp [deliverAll])

/-! ### LevelUnits -/

@[simp] theorem writeMap_kept (s : State) (v : Nat) (w : W64) : kept (writeMap s v w) = kept s := by simp [writeMap]

@[simp] theorem counterWrite_kept (s : State) (n c : Nat) (hi : Bool) (v m : W64) :
    kept (counterWrite s n c hi v m) = kept s := by
  simp [counterWrite]

@[simp] theorem hostMap_kept (s : State) (v : Nat) (w : W64) : kept (hostMap s v w) = kept s := by simp [hostMap]

@[simp] theorem barrierPut_kept (s : State) (record : Bool) (bid o : Nat) (v : W64) :
    kept (barrierPut s record bid o v) = kept s := by
  simp [barrierPut]

@[simp] theorem luWrite64_kept (s : State) (record : Bool) (n o : Nat) (v m : W64) :
    kept (luWrite64 s record n o v m) = kept s := by
  simp [luWrite64]

@[simp] theorem cbarWrite64_kept (s : State) (record : Bool) (o : Nat) (v m : W64) :
    kept (cbarWrite64 s record o v m) = kept s := by
  simp [cbarWrite64]

/-! ### Images -/

@[simp] theorem beginWrite_kept (s : State) (l : Load) : kept (beginWrite s l) = kept s := by simp [beginWrite]

@[simp] theorem finishLoad_leads (z : Kept) (s : State) (l : Load) :
    Leads fixed z (kept (finishLoad s l)) ↔ Leads fixed z (kept s) ∨ Anew fixed z (finishLoad s l) := leads_iff (by simp [finishLoad])

@[simp] theorem abortLoad_leads (z : Kept) (s : State) (l : Load) (st : Nat) :
    Leads fixed z (kept (abortLoad s l st)) ↔ Leads fixed z (kept s) ∨ Anew fixed z (abortLoad s l st) := leads_iff (by simp [abortLoad])

@[simp] theorem stepRecord_leads (z : Kept) (s : State) (l : Load) (r : Rec) :
    Leads fixed z (kept (stepRecord s l r)) ↔ Leads fixed z (kept s) ∨ Anew fixed z (stepRecord s l r) := by
  refine leads_iff ?_
  simp [stepRecord]

@[simp] theorem goes_withRecord {s : State} (p : Rec → Bool) {f : Load → Rec → State} (h : ∀ l r, Goes fixed s (.next (f l r))) :
    Goes fixed s (withRecord s p f) := by
  have hf := fun l r => (everyNext_next _ _).mp (h l r)
  unfold withRecord
  (repeat' split) <;> simp [hf]

@[simp] theorem applyFrame_leads (z : Kept) (s : State) (r : Rec) :
    Leads fixed z (kept (applyFrame s r)) ↔ Leads fixed z (kept s) ∨ Anew fixed z (applyFrame s r) := leads_iff (by simp [applyFrame])

@[simp] theorem execFrameRecord_goes (s : State) : Goes fixed s (execFrameRecord s) := by simp [execFrameRecord]

@[simp] theorem recordWrite_kept (s : State) (r : Rec) : kept (recordWrite s r) = kept s := by simp [recordWrite]

@[simp] theorem recordStep_leads (z : Kept) (s : State) (l : Load) (r : Rec) (ts : List Nat)
    (off : Nat) {u : State} (h : Goes fixed s (.next u)) :
    Leads fixed z (kept (recordStep s l r ts off u)) ↔ Leads fixed z (kept s) ∨ Anew fixed z (recordStep s l r ts off u) := by
  refine leads_iff ?_
  have hu := (everyNext_next _ _).mp h
  unfold recordStep
  (repeat' split) <;> simp [hu]

@[simp] theorem execCommandRecordWrite_goes (s : State) : Goes fixed s (execCommandRecordWrite s) := by simp [execCommandRecordWrite]

@[simp] theorem execCommandRecordBcast_goes (s : State) : Goes fixed s (execCommandRecordBcast s) :=
  goes_withRecord _ fun l r => by simp

@[simp] theorem execCommandRecordWait_goes (s : State) : Goes fixed s (execCommandRecordWait s) := by simp [execCommandRecordWait]

@[simp] theorem execLoadWaitTimeout_goes (s : State) : Goes fixed s (execLoadWaitTimeout s) := by simp [execLoadWaitTimeout]

@[simp] theorem startWrite_leads (z : Kept) (s : State) (l : Load) :
    Leads fixed z (kept (startWrite s l)) ↔ Leads fixed z (kept s) ∨ Anew fixed z (startWrite s l) := by
  refine leads_iff ?_
  simp only [startWrite]
  (repeat' split) <;> simp

@[simp] theorem discardRegion_leads (z : Kept) (s : State) (r : Rect) :
    Leads fixed z (kept (discardRegion s r).1) ↔ Leads fixed z (kept s) ∨ Anew fixed z (discardRegion s r).1 := by
  refine leads_iff ?_
  simp only [discardRegion]
  (repeat' split) <;> simp

@[simp] theorem modePhase_leads (z : Kept) (s : State) (l : Load) (mode : Nat) :
    Leads fixed z (kept (modePhase s l mode)) ↔ Leads fixed z (kept s) ∨ Anew fixed z (modePhase s l mode) := by
  refine leads_iff ?_
  simp only [modePhase]
  (repeat' split) <;> simp

@[simp] theorem imageRead_kept (s : State) (img : Image) (room : Nat) : kept (imageRead s img room) = kept s := by
  simp [imageRead]

@[simp] theorem execSectionLoad_goes (k : Nat) (sigOk : Bool) (s : State) : Goes fixed s (execSectionLoad k sigOk s) :=
  goes_withJob _ _ fun x j => by dsimp only; (repeat' split) <;> simp

@[simp] theorem execLoadDrainDone_goes (s : State) : Goes fixed s (execLoadDrainDone s) := by
  fun_cases execLoadDrainDone s <;> simp

@[simp] theorem execLoadDrainTimeout_goes (s : State) : Goes fixed s (execLoadDrainTimeout s) := by
  simp only [execLoadDrainTimeout]
  (repeat' split) <;> simp

/-! ### Sections -/

@[simp] theorem execTileFinished_goes (t : Nat) (s : State) : Goes fixed s (execTileFinished t s) := by simp [execTileFinished]

@[simp] theorem modLaunch_kept (s : State) (k : Nat) (f : Launch → Launch) : kept (modLaunch s k f) = kept s := by
  simp [modLaunch]

@[simp] theorem beginSection_leads (z : Kept) (s : State) (l : Launch) :
    Leads fixed z (kept (beginSection s l)) ↔ Leads fixed z (kept s) ∨ Anew fixed z (beginSection s l) := by
  refine leads_iff ?_
  simp only [beginSection]
  (repeat' split) <;> simp

@[simp] theorem refuseLaunch_leads (z : Kept) (s : State) (k st detail : Nat) :
    Leads fixed z (kept (refuseLaunch s k st detail)) ↔ Leads fixed z (kept s) ∨ Anew fixed z (refuseLaunch s k st detail) := by
  refine leads_iff ?_
  simp [refuseLaunch]

@[simp] theorem tryStart_leads (z : Kept) (s : State) (k : Nat) :
    Leads fixed z (kept (tryStart s k)) ↔ Leads fixed z (kept s) ∨ Anew fixed z (tryStart s k) := by
  refine leads_iff ?_
  simp only [tryStart]
  (repeat' split) <;> simp

@[simp] theorem holdLaunch_kept (s : State) (x : Packet) (j : Nat) (r : Rect) : kept (holdLaunch s x j r) = kept s := by
  simp [holdLaunch]

@[simp] theorem checkLaunch_leads (z : Kept) (s : State) (x : Packet) (j : Job) (r : Rect) :
    Leads fixed z (kept (checkLaunch s x j r)) ↔ Leads fixed z (kept s) ∨ Anew fixed z (checkLaunch s x j r) := by
  refine leads_iff ?_
  unfold checkLaunch
  dsimp only
  split
  · simp
  · simp

@[simp] theorem execSectionLaunch_goes (k : Nat) (s : State) : Goes fixed s (execSectionLaunch k s) :=
  goes_withJob _ _ fun x j => by dsimp only; (repeat' split) <;> simp

@[simp] theorem execSectionStart_goes (k : Nat) (s : State) : Goes fixed s (execSectionStart k s) := by simp [execSectionStart]

@[simp] theorem execLeaveTimeout_goes (k : Nat) (s : State) : Goes fixed s (execLeaveTimeout k s) := by
  fun_cases execLeaveTimeout k s <;> simp

@[simp] theorem execSectionStop_goes (k : Nat) (s : State) : Goes fixed s (execSectionStop k s) :=
  goes_withJob _ _ fun x j => by dsimp only; (repeat' split) <;> simp

@[simp] theorem flushAllOf_leads (z : Kept) (s : State) (ts : List Nat) :
    Leads fixed z (kept (flushAllOf s ts)) ↔ Leads fixed z (kept s) ∨ Anew fixed z (flushAllOf s ts) := leads_iff (by simp [flushAllOf])

@[simp] theorem scanState_leads (z : Kept) (s : State) (we : BitVec 16) :
    Leads fixed z (kept (scanState s we).1) ↔ Leads fixed z (kept s) ∨ Anew fixed z (scanState s we).1 := leads_iff (by simp [scanState])

@[simp] theorem clearDevice_leads (z : Kept) (s : State) :
    Leads fixed z (kept (clearDevice s)) ↔ Leads fixed z (kept s) ∨ Anew fixed z (clearDevice s) := leads_iff (by simp [clearDevice])

@[simp] theorem putTiles_leads (z : Kept) (s : State) (v : Saved) (ts : List Nat) (f : Nat → Tile → Tile → Tile) :
    Leads fixed z (kept (putTiles s v ts f)) ↔ Leads fixed z (kept s) ∨ Anew fixed z (putTiles s v ts f) := by
  refine leads_iff ?_
  unfold putTiles
  dsimp only
  refine ((leads_refl _).foldl (fun a t => ?_) _).foldl (fun a c => ?_) _
  · split <;> simp
  · split <;> simp

@[simp] theorem loadSaved_leads (z : Kept) (s : State) (j : Nat) (v : Saved) :
    Leads fixed z (kept (loadSaved s j v)) ↔ Leads fixed z (kept s) ∨ Anew fixed z (loadSaved s j v) := leads_iff (by simp [loadSaved])

@[simp] theorem dropSnapshot_kept (s : State) (j : Nat) : kept (dropSnapshot s j) = kept s := by simp [dropSnapshot]

@[simp] theorem execSectionCommit_goes (k : Nat) (s : State) : Goes fixed s (execSectionCommit k s) :=
  goes_withJob _ _ fun x j => by dsimp only; (repeat' split) <;> simp

/-- A save that is added takes its block out of the addresses that read zero. -/
theorem memWf_cons_save {s u : State} (v : SecSave) (hv : u.saves = v :: s.saves) (hr : u.regions = s.regions) (hm : u.mem = s.mem)
    (h : memWf s = true) : memWf u = true := by
  obtain ⟨hsorted, hcells⟩ := (memWf_iff s).mp h
  refine (memWf_iff u).mpr ⟨hm ▸ hsorted, fun c hc hz => hcells c (hm ▸ hc) ?_⟩
  have hregion : regionAt u c.1 = regionAt s c.1 := by simp [regionAt, hr]
  simp only [memZero, saveAt, hv, hregion, List.find?_cons] at hz ⊢
  split at hz <;> simp_all

@[simp] theorem saveSection_leads (z : Kept) (s view : State) (x : Packet) (j : Job) (r : Rect) (ts : List Nat) :
    Leads fixed z (kept (saveSection s view x j r ts)) ↔ Leads fixed z (kept s) ∨ Anew fixed z (saveSection s view x j r ts) := by
  refine leads_iff ?_
  unfold saveSection
  extract_lets dst size live h v s1
  have hadded : Leads fixed (kept s1) (kept { bumpFresh s1 with saves := v :: s1.saves }) :=
    leads_of_wf (memWf_cons_save v rfl rfl rfl) rfl rfl rfl rfl
  have h1 : Leads fixed (kept s) (kept s1) := by simp [s1]
  clear_value s1
  split
  · simp
  · refine (replyOk_leads ..).mpr (Or.inl ((memPut_leads ..).mpr (Or.inl (h1.trans hadded))))

@[simp] theorem execSectionSave_goes (k : Nat) (s0 : State) : Goes fixed s0 (execSectionSave k s0) :=
  goes_withJob _ _ fun x j => by dsimp only; (repeat' split) <;> simp

@[simp] theorem restoreSection_leads (z : Kept) (view : State) (j : Nat) (v : Saved) (ts lv : List Nat) :
    Leads fixed z (kept (restoreSection view j v ts lv)) ↔ Leads fixed z (kept view) ∨ Anew fixed z (restoreSection view j v ts lv) := by
  refine leads_iff ?_
  simp [restoreSection]

/-- The lemmas are rewritten with as a whole: the projections' own lemmas hold by `rfl`, and would have the kernel evaluate the
reads of thousands of bytes. -/
@[simp] theorem execSectionRestore_goes (k : Nat) (s0 : State) : Goes fixed s0 (execSectionRestore k s0) := by
  have hepoch (u : State) (j : Nat) (w : BitVec 16) : kept (modJob u j fun y => { y with wepoch := w }) = kept u := by simp
  have hsaved (u : State) (j : Nat) (w : Option Saved) : kept (modJob u j fun y => { y with saved := w }) = kept u := by simp
  refine goes_withJob _ _ fun x j => ?_
  dsimp only
  (repeat' split) <;> simp only [everyNext_next, badField_leads, memFatal_leads, refuse_leads, replyOk_leads,
    tellGenerations_kept, restoreSection_leads, settleUnits_leads, bumpFresh_kept, binReads_kept,
    early_leads, hepoch, hsaved, leads_refl, true_or]

/-! ### Faults -/

@[simp] theorem setWin_kept (s : State) (w : Window) : kept (setWin s w) = kept s := by simp [setWin]

@[simp] theorem countEvent_kept (s : State) (u : CountUnit) : kept (countEvent s u) = kept s := by simp [countEvent]

@[simp] theorem writeFlash_kept (s : State) : kept (writeFlash s) = kept s := by simp [writeFlash]

@[simp] theorem correctedEvent_leads (z : Kept) (s : State) (u : CountUnit) (loc1 addr : Nat) :
    Leads fixed z (kept (correctedEvent s u loc1 addr)) ↔ Leads fixed z (kept s) ∨ Anew fixed z (correctedEvent s u loc1 addr) := by
  refine leads_iff ?_
  simp [correctedEvent]

@[simp] theorem rewriteDetours_kept (s : State) (near : List Nat) : kept (rewriteDetours s near) = kept s := by
  simp [rewriteDetours]

@[simp] theorem mendBarriers_kept (s : State) (t : Nat) (gone : Bool) : kept (mendBarriers s t gone) = kept s := by
  simp [mendBarriers]

@[simp] theorem retireTile_kept (s : State) (t : Nat) (spare : Option Nat) : kept (retireTile s t spare) = kept s := by
  simp only [retireTile]
  (repeat' split) <;> simp

@[simp] theorem disableLink_kept (s : State) (t k : Nat) : kept (disableLink s t k) = kept s := by simp [disableLink]

@[simp] theorem abandonRecovery_leads (z : Kept) (s : State) (unit spare seq : Nat) :
    Leads fixed z (kept (abandonRecovery s unit spare seq)) ↔ Leads fixed z (kept s) ∨ Anew fixed z (abandonRecovery s unit spare seq) := by
  refine leads_iff ?_
  simp [abandonRecovery]

@[simp] theorem rewriteRecord_leads (z : Kept) (s : State) (r : Rec) :
    Leads fixed z (kept (rewriteRecord s r)) ↔
        Leads fixed z (kept s) ∨ Anew fixed z (rewriteRecord s r) := leads_iff (by simp [rewriteRecord])

@[simp] theorem rewriteImage_leads (z : Kept) (s : State) (i : Image) :
    Leads fixed z (kept (rewriteImage s i)) ↔ Leads fixed z (kept s) ∨ Anew fixed z (rewriteImage s i) := leads_iff (by simp [rewriteImage])

@[simp] theorem reloadRegisters_kept (s : State) (i : Image) : kept (reloadRegisters s i) = kept s := by
  simp [reloadRegisters]

@[simp] theorem restoreSnapshot_kept (s : State) (n : Snapshot) : kept (restoreSnapshot s n) = kept s := by
  unfold restoreSnapshot
  dsimp only
  rw [kept_foldl fun a c => by simp, kept_foldl fun a t => by simp, kept_foldl fun a t => by split <;> simp]

@[simp] theorem reinject_kept (s : State) (log : List Msg) : kept (reinject s log) = kept s := by simp [reinject]

@[simp] theorem replaySection_kept (s : State) (l : Launch) : kept (replaySection s l) = kept s := by
  unfold replaySection
  split <;> simp

@[simp] theorem containRegion_leads (z : Kept) (s : State) (l : Launch) (r : Rect) :
    Leads fixed z (kept (containRegion s l r)) ↔ Leads fixed z (kept s) ∨ Anew fixed z (containRegion s l r) := by
  refine leads_iff ?_
  simp [containRegion]

theorem stepTwo_kept {s : State} {b : Broken} {r : State × Option Nat} (h : stepTwo s b = some r) :
    kept r.1 = kept s := by
  cases b with
  | tile t =>
    obtain ⟨r, _, rfl⟩ := Option.map_eq_some_iff.mp h
    simp
  | link t k => cases h; simp
  | queue q => cases h; rfl

@[simp] theorem recover_leads (z : Kept) (s : State) (l : Launch) (b : Broken) (q : Nat) :
    Leads fixed z (kept (recover s l b q)) ↔ Leads fixed z (kept s) ∨ Anew fixed z (recover s l b q) := by
  refine leads_iff ?_
  unfold recover
  split
  · simp
  · dsimp only
    split
    · simp
    · split
      · split <;> simp
      next s2 spare htwo =>
        have h2 : Leads fixed (kept s) (kept s2) := by
          rw [stepTwo_kept htwo]
          simp
        (repeat' split) <;> simp [h2]

@[simp] theorem dropUnit_kept (s : State) (b : Broken) : kept (dropUnit s b) = kept s := by
  fun_cases dropUnit s b <;> simp

@[simp] theorem hardRecord_leads (z : Kept) (s : State) (src loc0 loc1 : Nat) (detail : List Nat) :
    Leads fixed z (kept (hardRecord s src loc0 loc1 detail)) ↔
        Leads fixed z (kept s) ∨ Anew fixed z (hardRecord s src loc0 loc1 detail) := by
  refine leads_iff ?_
  fun_cases hardRecord s src loc0 loc1 detail <;> simp

@[simp] theorem hardAct_leads (z : Kept) (s : State) (l : Option Launch) (b : Broken) (seq : Nat) :
    Leads fixed z (kept (hardAct s l b seq)) ↔ Leads fixed z (kept s) ∨ Anew fixed z (hardAct s l b seq) := by
  refine leads_iff ?_
  fun_cases hardAct s l b seq <;> simp

@[simp] theorem hardFault_leads (z : Kept) (s : State) (l : Option Launch) (b : Broken) (src loc0 loc1 : Nat) (detail : List Nat) :
    Leads fixed z (kept (hardFault s l b src loc0 loc1 detail)) ↔
        Leads fixed z (kept s) ∨ Anew fixed z (hardFault s l b src loc0 loc1 detail) := by
  refine leads_iff ?_
  simp [hardFault]

@[simp] theorem lastingTile_leads (z : Kept) (s : State) (t loc1 : Nat) (detail : List Nat) :
    Leads fixed z (kept (lastingTile s t loc1 detail)) ↔ Leads fixed z (kept s) ∨ Anew fixed z (lastingTile s t loc1 detail) := by
  refine leads_iff ?_
  simp [lastingTile]

@[simp] theorem retireStack_leads (z : Kept) (s : State) (k : Nat) :
    Leads fixed z (kept (retireStack s k)) ↔ Leads fixed z (kept s) ∨ Anew fixed z (retireStack s k) := leads_iff (by simp [retireStack])

@[simp] theorem retireChannel_leads (z : Kept) (s : State) (k c : Nat) (told : Bool) (detail : List Nat) :
    Leads fixed z (kept (retireChannel s k c told detail)) ↔ Leads fixed z (kept s) ∨ Anew fixed z (retireChannel s k c told detail) := by
  refine leads_iff ?_
  simp [retireChannel]

@[simp] theorem secondFault_leads (z : Kept) (s : State) :
    Leads fixed z (kept (secondFault s)) ↔ Leads fixed z (kept s) ∨ Anew fixed z (secondFault s) := by
  refine leads_iff ?_
  fun_cases secondFault s <;> simp

@[simp] theorem lossFate_leads (z : Kept) (s : State) (k : Nat) (c : Option Nat) :
    Leads fixed z (kept (lossFate s k c)) ↔ Leads fixed z (kept s) ∨ Anew fixed z (lossFate s k c) := by
  refine leads_iff ?_
  simp [lossFate]

@[simp] theorem loseChannel_leads (z : Kept) (s : State) (k c : Nat) (detail : List Nat) :
    Leads fixed z (kept (loseChannel s k c detail)) ↔ Leads fixed z (kept s) ∨ Anew fixed z (loseChannel s k c detail) := by
  refine leads_iff ?_
  simp [loseChannel]

@[simp] theorem loseStack_leads (z : Kept) (s : State) (k : Nat) :
    Leads fixed z (kept (loseStack s k)) ↔ Leads fixed z (kept s) ∨ Anew fixed z (loseStack s k) := leads_iff (by simp [loseStack])

@[simp] theorem hbmFault_leads (z : Kept) (s : State) (a : Nat) :
    Leads fixed z (kept (hbmFault s a)) ↔ Leads fixed z (kept s) ∨ Anew fixed z (hbmFault s a) := leads_iff (by simp [hbmFault])

@[simp] theorem dropLane_leads (z : Kept) (s : State) (p l : Nat) (detail : List Nat) :
    Leads fixed z (kept (dropLane s p l detail)) ↔ Leads fixed z (kept s) ∨ Anew fixed z (dropLane s p l detail) := by
  refine leads_iff ?_
  simp [dropLane]

@[simp] theorem thresholdAction_leads (z : Kept) (s : State) (u : CountUnit) (loc1 : Nat) :
    Leads fixed z (kept (thresholdAction s u loc1)) ↔ Leads fixed z (kept s) ∨ Anew fixed z (thresholdAction s u loc1) := by
  refine leads_iff ?_
  fun_cases thresholdAction s u loc1 <;> simp

@[simp] theorem deferFault_kept (s : State) (d : Due) : kept (deferFault s d) = kept s := by simp [deferFault]

@[simp] theorem corruptMessage_kept (s : State) (i : Nat) : kept (corruptMessage s i) = kept s := by
  unfold corruptMessage
  split <;> simp

@[simp] theorem corruptCtl_kept (s : State) (i : Nat) : kept (corruptCtl s i) = kept s := by
  simp only [corruptCtl]
  (repeat' split) <;> simp

@[simp] theorem faultEffect_kept (s : State) (e : FaultEvent) : kept (faultEffect s e) = kept s := by
  fun_cases faultEffect s e <;> simp

theorem detect_leads {s v : State} {e : FaultEvent} {r : State × Due} (h : detect v s e = some r) : Leads fixed (kept s) (kept r.1) := by
  unfold detect at h
  repeat' split at h
  all_goals cases h <;> simp

@[simp] theorem faultAction_leads (z : Kept) (s : State) (e : FaultEvent) :
    Leads fixed z (kept (faultAction s e)) ↔ Leads fixed z (kept s) ∨ Anew fixed z (faultAction s e) := by
  refine leads_iff ?_
  fun_cases faultAction s e <;> simp

@[simp] theorem takeDue_leads (z : Kept) (s : State) (d : Due) :
    Leads fixed z (kept (takeDue s d)) ↔ Leads fixed z (kept s) ∨ Anew fixed z (takeDue s d) := by
  refine leads_iff ?_
  fun_cases takeDue s d <;> simp

@[simp] theorem meetFault_leads (z : Kept) (s : State) (e : FaultEvent) :
    Leads fixed z (kept (meetFault s e)) ↔ Leads fixed z (kept s) ∨ Anew fixed z (meetFault s e) := by
  refine leads_iff ?_
  have hr : Leads fixed (kept s) (kept ((detect s (faultEffect s e) e).getD (faultEffect s e, .event e)).1) := by
    cases hd : detect s (faultEffect s e) e with
    | none => simp
    | some r => simpa using (detect_leads hd)
  simp only [meetFault]
  split
  · rw [deferFault_kept]
    exact hr
  · exact (takeDue_leads ..).mpr (Or.inl hr)

@[simp] theorem execErrorEvent_goes (e : FaultEvent) (s : State) : Goes fixed s (execErrorEvent e s) := by
  fun_cases execErrorEvent e s <;> simp

@[simp] theorem runDeferred_leads (z : Kept) (s : State) :
    Leads fixed z (kept (runDeferred s)) ↔ Leads fixed z (kept s) ∨ Anew fixed z (runDeferred s) := leads_iff (by simp [runDeferred])

@[simp] theorem resetRecord_leads (z : Kept) (s : State) (u : CountUnit) (src job loc0 loc1 count : Nat) :
    Leads fixed z (kept (resetRecord s u src job loc0 loc1 count)) ↔
        Leads fixed z (kept s) ∨ Anew fixed z (resetRecord s u src job loc0 loc1 count) := by
  refine leads_iff ?_
  simp [resetRecord]

@[simp] theorem hubReset_kept (s : State) (k lost : Nat) : kept (hubReset s k lost) = kept s := by simp [hubReset]

@[simp] theorem hubQueueReset_leads (z : Kept) (s : State) (k kind n lost : Nat) :
    Leads fixed z (kept (hubQueueReset s k kind n lost)) ↔ Leads fixed z (kept s) ∨ Anew fixed z (hubQueueReset s k kind n lost) := by
  refine leads_iff ?_
  simp [hubQueueReset]

@[simp] theorem execQueuePointerReset_goes (u : QueueRef) (s : State) : Goes fixed s (execQueuePointerReset u s) := by
  cases u with
  | tileQ t qn =>
    refine everyNext_withQ16 qn s (everyNext_withTile s t fun tl => ?_)
    dsimp only
    (repeat' split) <;> simp
  | hostFifo p => simp [execQueuePointerReset]
  | jorzinIn p lvc => simp [execQueuePointerReset]
  | combiner n => simp [execQueuePointerReset]

@[simp] theorem execSummaryRecord_goes (u : CountUnit) (s : State) : Goes fixed s (execSummaryRecord u s) := by simp [execSummaryRecord]

@[simp] theorem execFlashCountWrite_goes (s : State) : Goes fixed s (execFlashCountWrite s) := by simp [execFlashCountWrite]

@[simp] theorem execConfigScrub_goes (t off : Nat) (r : ScrubResult) (s : State) : Goes fixed s (execConfigScrub t off r s) :=
  everyNext_withTile _ _ fun _ => by (repeat' split) <;> simp

@[simp] theorem execScrubberCrcCheck_goes (n : Nat) (ok : Bool) (s : State) : Goes fixed s (execScrubberCrcCheck n ok s) := by
  simp [execScrubberCrcCheck]

@[simp] theorem controllerFault_leads (z : Kept) (s : State) (n : Nat) :
    Leads fixed z (kept (controllerFault s n)) ↔ Leads fixed z (kept s) ∨ Anew fixed z (controllerFault s n) := by
  refine leads_iff ?_
  simp only [controllerFault]
  (repeat' split) <;> simp

@[simp] theorem execLockstepMismatch_goes (n : Nat) (s : State) : Goes fixed s (execLockstepMismatch n s) := by simp [execLockstepMismatch]

@[simp] theorem execLcHeartbeat_goes (n : Nat) (seen : Bool) (s : State) :
    Goes fixed s (execLcHeartbeat n seen s) := by simp [execLcHeartbeat]

@[simp] theorem execHubWatchdogExpiry_goes (s : State) : Goes fixed s (execHubWatchdogExpiry s) := by simp [execHubWatchdogExpiry]

@[simp] theorem execReplayTimeout_goes (s : State) : Goes fixed s (execReplayTimeout s) := by
  fun_cases execReplayTimeout s <;> simp

@[simp] theorem execTileRetire_goes (k : Nat) (s : State) : Goes fixed s (execTileRetire k s) := by simp [execTileRetire]

/-! ### HostIf -/

@[simp] theorem sqError_kept (s : State) (p q : Nat) : kept (sqError s p q) = kept s := by simp [sqError]

@[simp] theorem cqError_kept (s : State) (p q : Nat) : kept (cqError s p q) = kept s := by simp [cqError]

@[simp] theorem execSqTailDoorbell_goes (p q v : Nat) (s : State) :
    Goes fixed s (execSqTailDoorbell p q v s) := by simp [execSqTailDoorbell]

@[simp] theorem execCqHeadDoorbell_goes (p q v : Nat) (s : State) :
    Goes fixed s (execCqHeadDoorbell p q v s) := by simp [execCqHeadDoorbell]

@[simp] theorem execSqCfgWrite_goes (p q : Nat) (v : BitVec 64) (be : BitVec 8) (s : State) : Goes fixed s (execSqCfgWrite p q v be s) := by
  simp [execSqCfgWrite]

@[simp] theorem execCqCfgWrite_goes (p q : Nat) (v : BitVec 64) (be : BitVec 8) (s : State) : Goes fixed s (execCqCfgWrite p q v be s) := by
  simp [execCqCfgWrite]

@[simp] theorem execCqReplyWrite_goes (p q : Nat) (s : State) : Goes fixed s (execCqReplyWrite p q s) := by simp [execCqReplyWrite]

@[simp] theorem execCqCoalesceTimeout_goes (p q : Nat) (s : State) : Goes fixed s (execCqCoalesceTimeout p q s) := by
  simp [execCqCoalesceTimeout]

@[simp] theorem takePacket_leads (z : Kept) (s : State) (x : Packet) :
    Leads fixed z (kept (takePacket s x)) ↔ Leads fixed z (kept s) ∨ Anew fixed z (takePacket s x) := by
  refine leads_iff ?_
  fun_cases takePacket s x <;> simp

@[simp] theorem slotReads_kept (s : State) (x : SubQueue) (n : Nat) : kept (slotReads s x n) = kept s := by
  simp [slotReads]

@[simp] theorem execPacketTake_goes (p q : Nat) (bytes : List Byte) (s : State) : Goes fixed s (execPacketTake p q bytes s) := by
  simp [execPacketTake]

@[simp] theorem bar0Write64_kept (s : State) (p pf o : Nat) (v m : W64) : kept (bar0Write64 s p pf o v m) = kept s := by
  simp [bar0Write64]

@[simp] theorem msixWrite_kept (s : State) (p pf d : Nat) (v : W32) : kept (msixWrite s p pf d v) = kept s := by
  simp [msixWrite]

@[simp] theorem execRegisterWrite_goes (p pf off : Nat) (v : BitVec 64) (be : BitVec 8) (s : State) :
    Goes fixed s (execRegisterWrite p pf off v be s) := by
  simp [execRegisterWrite]

@[simp] theorem barAnswer_kept (s : State) (p : Nat) (bs : List Byte) : kept (barAnswer s p bs) = kept s := by
  simp [barAnswer]

@[simp] theorem barNothing_kept (s : State) (p : Nat) (a : BusAccess) : kept (barNothing s p a) = kept s := by
  fun_cases barNothing s p a <;> simp

@[simp] theorem barRefused_leads (z : Kept) (s : State) (p addr : Nat) (a : BusAccess) :
    Leads fixed z (kept (barRefused s p addr a)) ↔ Leads fixed z (kept s) ∨ Anew fixed z (barRefused s p addr a) := by
  refine leads_iff ?_
  simp [barRefused]

@[simp] theorem touchTile_kept (s : State) (t : Nat) : kept (touchTile s t) = kept s := by simp [touchTile]

@[simp] theorem ctlAccess_kept (s : State) (p addr : Nat) (a : BusAccess) : kept (ctlAccess s p addr a) = kept s := by
  unfold ctlAccess
  split <;> simp

@[simp] theorem memAccess_leads (z : Kept) (s : State) (p addr : Nat) (a : BusAccess) :
    Leads fixed z (kept (memAccess s p addr a)) ↔ Leads fixed z (kept s) ∨ Anew fixed z (memAccess s p addr a) := by
  refine leads_iff ?_
  simp only [memAccess]
  split
  · simp
  · simp
  · simp
  · exact Leads.foldl (by simp) (fun v e => by split <;> simp) _

@[simp] theorem execBar2Access_goes (p off : Nat) (a : BusAccess) (s : State) : Goes fixed s (execBar2Access p off a s) := by
  simp [execBar2Access]

@[simp] theorem execBar0LevelUnitAccess_goes (p off : Nat) (a : BusAccess) (s : State) :
    Goes fixed s (execBar0LevelUnitAccess p off a s) := by
  simp only [execBar0LevelUnitAccess]
  (repeat' split) <;> simp

@[simp] theorem fifoMark_kept (s : State) (p : Nat) : kept (fifoMark s p) = kept s := by simp [fifoMark]

@[simp] theorem execHostFifoWrite_goes (p : Nat) (bytes : List Byte) (s : State) : Goes fixed s (execHostFifoWrite p bytes s) := by
  simp [execHostFifoWrite]

@[simp] theorem execConfigurationRequest_goes (p pf reg : Nat) (w : Option (BitVec 32)) (s : State) :
    Goes fixed s (execConfigurationRequest p pf reg w s) := by
  simp only [execConfigurationRequest]
  (repeat' split) <;> simp

@[simp] theorem execAlertStatusRead_goes (s : State) : Goes fixed s (execAlertStatusRead s) := by simp [execAlertStatusRead]

/-! ### Cascade -/

@[simp] theorem logInput_leads (z : Kept) (s : State) (m : Msg) :
    Leads fixed z (kept (logInput s m)) ↔ Leads fixed z (kept s) ∨ Anew fixed z (logInput s m) := by
  refine leads_iff ?_
  simp only [logInput]
  (repeat' split) <;> simp

@[simp] theorem hubDeliver_leads (z : Kept) (s : State) (m : Msg) :
    Leads fixed z (kept (hubDeliver s m)) ↔ Leads fixed z (kept s) ∨ Anew fixed z (hubDeliver s m) := leads_iff (by simp [hubDeliver])

@[simp] theorem hubInject_leads (z : Kept) (s : State) (m : Msg) :
    Leads fixed z (kept (hubInject s m)) ↔ Leads fixed z (kept s) ∨ Anew fixed z (hubInject s m) := leads_iff (by simp [hubInject])

@[simp] theorem inputFor_leads (z : Kept) (s : State) (j : Nat) (m : Msg) :
    Leads fixed z (kept (inputFor s j m)) ↔ Leads fixed z (kept s) ∨ Anew fixed z (inputFor s j m) := by
  refine leads_iff ?_
  fun_cases inputFor s j m <;> simp

@[simp] theorem inbound_leads (z : Kept) (s : State) (m : Msg) :
    Leads fixed z (kept (inbound s m)) ↔ Leads fixed z (kept s) ∨ Anew fixed z (inbound s m) := by
  refine leads_iff ?_
  fun_cases inbound s m <;> simp

@[simp] theorem countOutbound_kept (s : State) (m : Msg) : kept (countOutbound s m).1 = kept s := by
  fun_cases countOutbound s m <;> simp

@[simp] theorem execGatePortMessage_goes (i : Nat) (s : State) : Goes fixed s (execGatePortMessage i s) := by
  simp only [execGatePortMessage]
  (repeat' split) <;> simp

@[simp] theorem execJorzinAck_goes (p aseq : Nat) (s : State) : Goes fixed s (execJorzinAck p aseq s) := by
  simp only [execJorzinAck]
  (repeat' split) <;> simp

@[simp] theorem execJorzinNack_goes (p aseq : Nat) (s : State) : Goes fixed s (execJorzinNack p aseq s) := by
  simp only [execJorzinNack]
  (repeat' split) <;> simp

@[simp] theorem execJorzinCredit_goes (p c0 c1 c2 : Nat) (s : State) : Goes fixed s (execJorzinCredit p c0 c1 c2 s) := by
  simp [execJorzinCredit]

@[simp] theorem execJorzinAckTimeout_goes (p : Nat) (s : State) : Goes fixed s (execJorzinAckTimeout p s) := by simp [execJorzinAckTimeout]

@[simp] theorem execPortRetrainEnd_goes (p : Nat) (ok : Bool) (s : State) : Goes fixed s (execPortRetrainEnd p ok s) := by
  simp only [execPortRetrainEnd]
  (repeat' split) <;> simp

@[simp] theorem execJorzinRouteHoldRelease_goes (d : Nat) (s : State) : Goes fixed s (execJorzinRouteHoldRelease d s) := by
  simp [execJorzinRouteHoldRelease]

@[simp] theorem clashFound_leads (z : Kept) (s : State) (p q : Nat) :
    Leads fixed z (kept (clashFound s p q)) ↔ Leads fixed z (kept s) ∨ Anew fixed z (clashFound s p q) := leads_iff (by simp [clashFound])

@[simp] theorem noteFarEnd_leads (z : Kept) (s : State) (d p far : Nat) :
    Leads fixed z (kept (noteFarEnd s d p far)) ↔
        Leads fixed z (kept s) ∨ Anew fixed z (noteFarEnd s d p far) := leads_iff (by simp [noteFarEnd])

@[simp] theorem execJorzinPortTrained_goes (p dev fport : Nat) (pith : Bool) (s : State) :
    Goes fixed s (execJorzinPortTrained p dev fport pith s) := by
  simp [execJorzinPortTrained]

@[simp] theorem execCascadeConfig_goes (k : Nat) (s : State) : Goes fixed s (execCascadeConfig k s) :=
  goes_withCmd _ _ fun x => by dsimp only; (repeat' split) <;> simp

@[simp] theorem startForward_leads (z : Kept) (s : State) (x : Packet) (own : Bool) (ds : List Nat) :
    Leads fixed z (kept (startForward s x own ds)) ↔ Leads fixed z (kept s) ∨ Anew fixed z (startForward s x own ds) := by
  refine leads_iff ?_
  simp only [startForward]
  (repeat' split) <;> simp

@[simp] theorem execCascadeForward_goes (k : Nat) (replies : List (Nat × Nat)) (s : State) :
    Goes fixed s (execCascadeForward k replies s) :=
  goes_withCmd _ _ fun x => by dsimp only; (repeat' split) <;> simp

@[simp] theorem collectiveDeliver_leads (z : Kept) (s : State) (x : Packet) (sum : List Byte) :
    Leads fixed z (kept (collectiveDeliver s x sum)) ↔ Leads fixed z (kept s) ∨ Anew fixed z (collectiveDeliver s x sum) := by
  refine leads_iff ?_
  simp [collectiveDeliver]

@[simp] theorem execCollective_goes (k : Nat) (others : List (Nat × List Byte)) (s : State) : Goes fixed s (execCollective k others s) := by
  refine goes_withJob _ _ fun x j => ?_
  extract_lets me src dst len ds inMem mineOk cs ends draw early s1 s2 s3 part listed order sum s4
  have h1 : Leads fixed (kept s) (kept s1) := by simp [s1, early]
  have h2 : Leads fixed (kept s) (kept s2) := by simp [s2, h1]
  have h3 : Leads fixed (kept s) (kept s3) := h2
  have h4 : Leads fixed (kept s) (kept s4) := by simp [s4, h3]
  clear_value s2 s1 s3 s4
  (repeat' split) <;> simp [h2, h3, h4]

@[simp] theorem readySignal_kept (s : State) (was : Bool) : kept (readySignal s was) = kept s := by simp [readySignal]

@[simp] theorem stageDevice_kept (s : State) (d : Nat) : kept (stageDevice s d) = kept s := by simp [stageDevice]

@[simp] theorem execCascadeReady_goes (s : State) : Goes fixed s (execCascadeReady s) := by simp [execCascadeReady]

@[simp] theorem failAway_leads (z : Kept) (s : State) (d : Nat) :
    Leads fixed z (kept (failAway s d)) ↔ Leads fixed z (kept s) ∨ Anew fixed z (failAway s d) := leads_iff (by simp [failAway])

@[simp] theorem execDeviceLoss_goes (d : Nat) (s : State) : Goes fixed s (execDeviceLoss d s) := by simp [execDeviceLoss]

@[simp] theorem execDeviceJoin_goes (d : Nat) (s : State) : Goes fixed s (execDeviceJoin d s) := by simp [execDeviceJoin]

@[simp] theorem driven_kept (s : State) (c : ShCmd) (acking : Bool) : kept (driven s c acking) = kept s := by
  simp [driven]

@[simp] theorem makeDue_kept (s : State) (c : ShCmd) : kept (makeDue s c) = kept s := by simp [makeDue]

@[simp] theorem execShfltAsserted_goes (s : State) : Goes fixed s (execShfltAsserted s) := by simp [execShfltAsserted]

@[simp] theorem execShfltReleased_goes (s : State) : Goes fixed s (execShfltReleased s) := by simp [execShfltReleased]

@[simp] theorem execFreezeLog_goes (s : State) : Goes fixed s (execFreezeLog s) := by simp [execFreezeLog]

@[simp] theorem execShcmdHalt_goes (s : State) : Goes fixed s (execShcmdHalt s) := by
  simp only [execShcmdHalt]
  (repeat' split) <;> simp

@[simp] theorem execShbarReleased_goes (line : Nat) (s : State) : Goes fixed s (execShbarReleased line s) := by simp [execShbarReleased]

@[simp] theorem execShcmdBarrierRelease_goes (lines : BitVec 4) (s : State) : Goes fixed s (execShcmdBarrierRelease lines s) := by
  simp [execShcmdBarrierRelease]

@[simp] theorem execShcmdMark_goes (s : State) : Goes fixed s (execShcmdMark s) := by
  simp only [execShcmdMark]
  (repeat' split) <;> simp

@[simp] theorem execShackReleased_goes (s : State) : Goes fixed s (execShackReleased s) := by
  unfold execShackReleased
  split
  · simp
  · refine (everyNext_next _ _).mpr ?_
    exact Leads.foldl (Leads.foldl (by simp) (fun a k => by (repeat' split) <;> simp) _) (fun a e => by simp) _

@[simp] theorem execShaftTick_goes (s : State) : Goes fixed s (execShaftTick s) := by simp [execShaftTick]

@[simp] theorem owedRecord_leads (z : Kept) (s : State) :
    Leads fixed z (kept (owedRecord s)) ↔ Leads fixed z (kept s) ∨ Anew fixed z (owedRecord s) := leads_iff (by simp [owedRecord])

@[simp] theorem execShaftRefEdge_goes (interval : Nat) (s : State) : Goes fixed s (execShaftRefEdge interval s) := by
  simp only [execShaftRefEdge]
  (repeat' split) <;> simp

@[simp] theorem execShaftRefTimeout_goes (s : State) : Goes fixed s (execShaftRefTimeout s) := by simp [execShaftRefTimeout]

@[simp] theorem execShclkLoss_goes (s : State) : Goes fixed s (execShclkLoss s) := by
  simp only [execShclkLoss]
  (repeat' split) <;> simp

@[simp] theorem execShclkReturn_goes (s : State) : Goes fixed s (execShclkReturn s) := by simp [execShclkReturn]

/-! ### Jobs -/

@[simp] theorem unbindQueues_kept (s : State) (j : Nat) : kept (unbindQueues s j) = kept s := by simp [unbindQueues]

@[simp] theorem dropReplies_kept (s : State) (j : Nat) : kept (dropReplies s j) = kept s := by simp [dropReplies]

@[simp] theorem finishCommands_leads (z : Kept) (s : State) (j k : Nat) :
    Leads fixed z (kept (finishCommands s j k)) ↔ Leads fixed z (kept s) ∨ Anew fixed z (finishCommands s j k) := by
  refine leads_iff ?_
  simp [finishCommands]

@[simp] theorem dropPads_leads (z : Kept) (s : State) (n : Nat) :
    Leads fixed z (kept (dropPads s n)) ↔ Leads fixed z (kept s) ∨ Anew fixed z (dropPads s n) :=
  leads_iff (leads_of_wf (dropPads_wf s n) rfl rfl rfl rfl)

@[simp] theorem execJobPreempt_goes (k : Nat) (s : State) : Goes fixed s (execJobPreempt k s) :=
  goes_withJob _ _ fun x j => by (repeat' split) <;> simp

@[simp] theorem execJobQuery_goes (k : Nat) (s : State) : Goes fixed s (execJobQuery k s) :=
  goes_withCmd _ _ fun x => by split <;> simp

@[simp] theorem execForcedSwitch_goes (s : State) : Goes fixed s (execForcedSwitch s) := by
  fun_cases execForcedSwitch s <;> simp

@[simp] theorem execPreemptWaitTimeout_goes (s : State) : Goes fixed s (execPreemptWaitTimeout s) := by
  fun_cases execPreemptWaitTimeout s <;> simp

@[simp] theorem stopForScan_leads (z : Kept) (s : State) (w : Switch) :
    Leads fixed z (kept (stopForScan s w)) ↔ Leads fixed z (kept s) ∨ Anew fixed z (stopForScan s w) := leads_iff (by simp [stopForScan])

@[simp] theorem execSwitchDrainEnd_goes (s : State) : Goes fixed s (execSwitchDrainEnd s) := by
  fun_cases execSwitchDrainEnd s <;> simp

@[simp] theorem execSwitchDrainTimeout_goes (s : State) : Goes fixed s (execSwitchDrainTimeout s) := by
  fun_cases execSwitchDrainTimeout s <;> simp

@[simp] theorem execBoundarySwitch_goes (s : State) : Goes fixed s (execBoundarySwitch s) := by
  fun_cases execBoundarySwitch s <;> simp

@[simp] theorem suspendLaunches_kept (s : State) (j : Nat) : kept (suspendLaunches s j) = kept s := by
  simp [suspendLaunches]

@[simp] theorem areaFatal_leads (z : Kept) (s : State) (j : Job) :
    Leads fixed z (kept (areaFatal s j)) ↔ Leads fixed z (kept s) ∨ Anew fixed z (areaFatal s j) := leads_iff (by simp [areaFatal])

@[simp] theorem handOver_leads (z : Kept) (s : State) (w : Switch) (j : Job) :
    Leads fixed z (kept (handOver s w j)) ↔ Leads fixed z (kept s) ∨ Anew fixed z (handOver s w j) := leads_iff (by simp [handOver])

@[simp] theorem tellDone_kept (s : State) (j : Job) : kept (tellDone s j) = kept s := by simp [tellDone]

@[simp] theorem beginRestore_kept (s : State) (j : Job) : kept (beginRestore s j) = kept s := by simp [beginRestore]

@[simp] theorem execJobRestore_goes (s : State) : Goes fixed s (execJobRestore s) := by
  fun_cases execJobRestore s <;> simp

@[simp] theorem resumeLaunch_leads (z : Kept) (lc : Bool) (s : State) (l : Launch) :
    Leads fixed z (kept (resumeLaunch lc s l)) ↔ Leads fixed z (kept s) ∨ Anew fixed z (resumeLaunch lc s l) := by
  refine leads_iff ?_
  simp [resumeLaunch]

@[simp] theorem waitAgain_kept (s : State) (j : Nat) : kept (waitAgain s j) = kept s := by simp [waitAgain]

@[simp] theorem resumed_leads (z : Kept) (s : State) (j : Job) (v : Saved) :
    Leads fixed z (kept (resumed s j v)) ↔ Leads fixed z (kept s) ∨ Anew fixed z (resumed s j v) := leads_iff (by simp [resumed])

/-! ### Arrivals -/

@[simp] theorem memberReply_leads (z : Kept) (s : State) (h : RespHead) (b : List Byte) :
    Leads fixed z (kept (memberReply s h b)) ↔ Leads fixed z (kept s) ∨ Anew fixed z (memberReply s h b) := by
  refine leads_iff ?_
  unfold memberReply
  split <;> simp

@[simp] theorem memberEvent_leads (z : Kept) (s : State) (h : RespHead) (b : List Byte) :
    Leads fixed z (kept (memberEvent s h b)) ↔ Leads fixed z (kept s) ∨ Anew fixed z (memberEvent s h b) := by
  refine leads_iff ?_
  simp [memberEvent]

@[simp] theorem forwardedPacket_leads (z : Kept) (s : State) (h : RespHead) (b : List Byte) :
    Leads fixed z (kept (forwardedPacket s h b)) ↔ Leads fixed z (kept s) ∨ Anew fixed z (forwardedPacket s h b) := by
  refine leads_iff ?_
  simp [forwardedPacket]

@[simp] theorem packetPiece_leads (z : Kept) (s : State) (h : RespHead) (b : List Byte) :
    Leads fixed z (kept (packetPiece s h b)) ↔ Leads fixed z (kept s) ∨ Anew fixed z (packetPiece s h b) := by
  refine leads_iff ?_
  simp [packetPiece]

@[simp] theorem giveMember_kept (s : State) (j : Job) : kept (giveMember s j) = kept s := by simp [giveMember]

@[simp] theorem switchMember_kept (s : State) (j : Job) (forced : Bool) : kept (switchMember s j forced) = kept s := by
  simp [switchMember]

@[simp] theorem configTaken_kept (s : State) (v : Nat → Nat) : kept (configTaken s v) = kept s := by simp [configTaken]

@[simp] theorem controlTaken_leads (z : Kept) (s : State) (b : List Byte) :
    Leads fixed z (kept (controlTaken s b)) ↔ Leads fixed z (kept s) ∨ Anew fixed z (controlTaken s b) := by
  refine leads_iff ?_
  fun_cases controlTaken s b <;> simp

/-! ### AssayOffice -/

@[simp] theorem closeAccounts_kept (s : State) : kept (closeAccounts s) = kept s := by simp [closeAccounts]

@[simp] theorem execAssaySample_goes (uj mv : Nat) (s : State) : Goes fixed s (execAssaySample uj mv s) := by simp [execAssaySample]

theorem goes_withNotice {s : State} {f : State → Notice → Option State}
    (h : ∀ v n u, f v n = some u → kept u = kept v) :
    Goes fixed s (withNotice s f) := by
  unfold withNotice
  split
  · split
    · split
      · rename_i hf
        simp [h _ _ _ hf]
      · simp
    · simp
  · simp

@[simp] theorem execOwn_goes (s : State) : Goes fixed s (execOwn s) :=
  goes_withNotice fun s n => by split <;> simp

@[simp] theorem execSwitch_goes (s : State) : Goes fixed s (execSwitch s) :=
  goes_withNotice fun s n => by split <;> simp

@[simp] theorem execRestore_goes (s : State) : Goes fixed s (execRestore s) :=
  goes_withNotice fun s n => by split <;> simp

@[simp] theorem execFree_goes (s : State) : Goes fixed s (execFree s) :=
  goes_withNotice fun s n => by split <;> simp

@[simp] theorem execClose_goes (s : State) : Goes fixed s (execClose s) :=
  goes_withNotice fun s n => by split <;> simp

@[simp] theorem execInterval_goes (s : State) : Goes fixed s (execInterval s) :=
  goes_withNotice fun s n => by split <;> simp

@[simp] theorem execBrown_goes (s : State) : Goes fixed s (execBrown s) :=
  goes_withNotice fun s n => by split <;> simp

@[simp] theorem execRead_goes (first count : Nat) (s : State) : Goes fixed s (execRead first count s) := by simp [execRead]

@[simp] theorem execBeat_goes (s : State) : Goes fixed s (execBeat s) := by
  fun_cases execBeat s <;> simp

@[simp] theorem execAssayLinkLost_goes (s : State) : Goes fixed s (execAssayLinkLost s) := by simp [execAssayLinkLost]

@[simp] theorem execAssayPowerLoss_goes (s : State) : Goes fixed s (execAssayPowerLoss s) := by simp [execAssayPowerLoss]

@[simp] theorem execAssayDieStarted_goes (s : State) : Goes fixed s (execAssayDieStarted s) := by simp [execAssayDieStarted]

@[simp] theorem execSealOpen_goes (s : State) : Goes fixed s (execSealOpen s) := by simp [execSealOpen]

@[simp] theorem execSealSwitchClosed_goes (s : State) : Goes fixed s (execSealSwitchClosed s) := by simp [execSealSwitchClosed]

@[simp] theorem calibrate_goes (s : State) (ok : Bool) (f : Assay → Assay) (code datum : Nat) :
    Goes fixed s (calibrate s ok f code datum) := by
  simp [calibrate]

@[simp] theorem execCalibrationConstantWrite_goes (n v : Nat) (authOk : Bool) (s : State) :
    Goes fixed s (execCalibrationConstantWrite n v authOk s) := by
  simp [execCalibrationConstantWrite]

@[simp] theorem execAfReplace_goes (digest : BitVec 384) (authOk : Bool) (s : State) : Goes fixed s (execAfReplace digest authOk s) := by
  simp [execAfReplace]

@[simp] theorem execReseal_goes (authOk : Bool) (s : State) : Goes fixed s (execReseal authOk s) := by simp [execReseal]

@[simp] theorem execMeterRead_goes (k : Nat) (s : State) : Goes fixed s (execMeterRead k s) := by simp [execMeterRead]

@[simp] theorem execMeterRecords_goes (k : Nat) (s : State) : Goes fixed s (execMeterRecords k s) := by simp [execMeterRecords]

/-! ### Power -/

theorem heatSteps_ceil (room : Nat) (ns : List Nat) (a : Power × Nat) : (ns.foldl (heatStep room) a).1.ceil = a.1.ceil := by
  induction ns generalizing a with
  | nil => rfl
  | cons n ns ih =>
    rw [List.foldl_cons, ih, heatStep]
    split <;> rfl

@[simp] theorem heatNow_kept (s : State) : kept (heatNow s) = kept s := by simp [heatNow, heatSteps_ceil]

theorem restoreSteps_ceil (room k acc : Nat) (p : Power) : (restoreSteps room k acc p).ceil = p.ceil := by
  induction k generalizing acc p with
  | zero => rfl
  | succ k ih =>
    unfold restoreSteps
    split
    · rw [ih, stepUp]
    · rfl

@[simp] theorem restoreNow_kept (s : State) : kept (restoreNow s) = kept s := by simp [restoreNow, restoreSteps_ceil]

@[simp] theorem execRampWindow_goes (s : State) : Goes fixed s (execRampWindow s) := by simp [execRampWindow]

@[simp] theorem afterCeiling_kept (s : State) (f : Power → Power) : kept (afterCeiling s f) = kept (modPower s f) := by
  unfold afterCeiling
  dsimp only
  rw [restoreNow_kept]
  split <;> simp

theorem execPowerCeiling_goes (k : Nat) (s : State) : Goes false s (execPowerCeiling k s) := by
  have hceil (v : State) (c : Nat) : Leads false (kept v) (kept (modPower v fun p => { p with ceil := c })) :=
    ⟨id, rfl, FloorsRise.refl _, nofun⟩
  refine goes_withCmd _ _ fun x => ?_
  dsimp only
  split
  · simp
  · split
    · simp
    · split
      · split
        · simp
        · refine (everyNext_next _ _).mpr ((replyOk_leads ..).mpr (Or.inl ?_))
          rw [afterCeiling_kept]
          exact Leads.trans (by simp) (hceil _ _)
      · (repeat' split) <;> simp

@[simp] theorem execCoolantInletTemperature_goes (above30 : Bool) (s : State) : Goes fixed s (execCoolantInletTemperature above30 s) := by
  simp [execCoolantInletTemperature]

@[simp] theorem execPowerQuery_goes (k watts : Nat) (s : State) : Goes fixed s (execPowerQuery k watts s) := by simp [execPowerQuery]

@[simp] theorem execCascadeDemand_goes (d w : Nat) (s : State) : Goes fixed s (execCascadeDemand d w s) := by simp [execCascadeDemand]

@[simp] theorem execCascadeShare_goes (w : Nat) (s : State) : Goes fixed s (execCascadeShare w s) := by
  simp only [execCascadeShare]
  (repeat' split) <;> simp

@[simp] theorem execShareTimeout_goes (s : State) : Goes fixed s (execShareTimeout s) := by simp [execShareTimeout]

@[simp] theorem execThrottle_goes (s : State) : Goes fixed s (execThrottle s) := by simp [execThrottle]

@[simp] theorem execResume_goes (s : State) : Goes fixed s (execResume s) := by simp [execResume]

@[simp] theorem moduleDown_kept (s : State) (m : Module) : kept (moduleDown s m) = kept s := by simp [moduleDown]

@[simp] theorem powerFail_kept (s : State) : kept (powerFail s) = kept s := by simp [powerFail]

@[simp] theorem enterHold_leads (z : Kept) (s : State) (v : Nat) :
    Leads fixed z (kept (enterHold s v)) ↔ Leads fixed z (kept s) ∨ Anew fixed z (enterHold s v) := leads_iff (by simp [enterHold])

@[simp] theorem convertersAt_kept (v : Nat) (s : State) : kept (convertersAt v s) = kept s := by simp [convertersAt]

@[simp] theorem execSupplySample_goes (v : Nat) (s : State) : Goes fixed s (execSupplySample v s) := by
  simp only [execSupplySample]
  (repeat' split) <;> simp

@[simp] theorem execBrownoutEnd_goes (s : State) : Goes fixed s (execBrownoutEnd s) := by simp [execBrownoutEnd]

@[simp] theorem execThermalSample_goes (die temp : Nat) (s : State) : Goes fixed s (execThermalSample die temp s) := by
  simp [execThermalSample, loseStep]

@[simp] theorem execThermalRestoreStep_goes (s : State) : Goes fixed s (execThermalRestoreStep s) := by simp [execThermalRestoreStep]

@[simp] theorem execSelftest_goes (k : Nat) (failed : List Nat) (s : State) :
    Goes fixed s (execSelftest k failed s) := by simp [execSelftest]

/-! ### Resets -/

theorem memWf_filter {s u : State} (p : Nat × Byte → Bool) (hm : u.mem = s.mem.filter p) (hr : u.regions = s.regions)
    (hv : u.saves = s.saves)
    (h : memWf s = true) : memWf u = true := by
  rw [memWf_congr (s := { s with mem := s.mem.filter p }) hm hr hv]
  exact memFilter_wf s p h

@[simp] theorem resetSet_leads (z : Kept) (s : State) (on : Nat → Bool) :
    Leads fixed z (kept (resetSet s on)) ↔ Leads fixed z (kept s) ∨ Anew fixed z (resetSet s on) := by
  refine leads_iff ?_
  unfold resetSet
  extract_lets s1
  have h1 : Leads fixed (kept s) (kept s1) := leads_of_wf (memWf_filter _ rfl rfl rfl) rfl rfl rfl rfl
  clear_value s1
  simp [h1]

@[simp] theorem failForReset_leads (z : Kept) (s : State) (r : Reset) (cause port : Nat) :
    Leads fixed z (kept (failForReset s r cause port)) ↔ Leads fixed z (kept s) ∨ Anew fixed z (failForReset s r cause port) := by
  refine leads_iff ?_
  unfold failForReset
  split <;> simp

@[simp] theorem startReset_leads (z : Kept) (s : State) (r : Reset) (cause port : Nat) :
    Leads fixed z (kept (startReset s r cause port)) ↔ Leads fixed z (kept s) ∨ Anew fixed z (startReset s r cause port) := by
  refine leads_iff ?_
  simp [startReset]

@[simp] theorem execReset_goes (k : Nat) (s : State) : Goes fixed s (execReset k s) := by simp [execReset]

@[simp] theorem execResetCascade_goes (s : State) : Goes fixed s (execResetCascade s) := by simp [execResetCascade]

@[simp] theorem execLcReloadWatchdog_goes (n : Nat) (s : State) : Goes fixed s (execLcReloadWatchdog n s) := by simp [execLcReloadWatchdog]

@[simp] theorem emptyBins_kept (s : State) (ns : List Nat) : kept (emptyBins s ns) = kept s := by simp [emptyBins]

@[simp] theorem applyReset_leads (z : Kept) (s : State) (r : Reset) :
    Leads fixed z (kept (applyReset s r)) ↔ Leads fixed z (kept s) ∨ Anew fixed z (applyReset s r) := by
  refine leads_iff ?_
  simp only [applyReset]
  (repeat' split) <;> simp

@[simp] theorem resetReplies_leads (z : Kept) (s : State) (ks : List Nat) :
    Leads fixed z (kept (resetReplies s ks)) ↔ Leads fixed z (kept s) ∨ Anew fixed z (resetReplies s ks) := by
  refine leads_iff ?_
  unfold resetReplies
  refine (leads_refl _).foldl (fun v k => ?_) ks
  split <;> simp

@[simp] theorem execResetRelease_goes (i : Nat) (s : State) : Goes fixed s (execResetRelease i s) := by
  simp only [execResetRelease]
  (repeat' split) <;> simp

@[simp] theorem execEnterA1_goes (u : PowerUnit) (s : State) : Goes fixed s (execEnterA1 u s) := by
  fun_cases execEnterA1 u s <;> simp

@[simp] theorem execEnterS1_goes (t : Nat) (s : State) : Goes fixed s (execEnterS1 t s) := by simp [execEnterS1]

@[simp] theorem execEnterS2_goes (n : Nat) (s : State) : Goes fixed s (execEnterS2 n s) := by simp [execEnterS2]

@[simp] theorem execEnterS3_goes (s : State) : Goes fixed s (execEnterS3 s) := by simp [execEnterS3]

/-- Bytes that are put back where nothing is listed are put back listed only when they are not zero. -/
theorem putBack_wf (s : State) (a : Nat) (b : Byte) (h : memWf s = true) : memWf { s with mem := arrPut s.mem a b (b == 0) } = true := by
  obtain ⟨hsorted, hcells⟩ := (memWf_iff s).mp h
  refine (memWf_iff _).mpr ⟨arrSorted_arrPut _ _ _ _ hsorted, fun c hc hz => ?_⟩
  rcases mem_arrPut hc with hold | ⟨rfl, hb⟩
  · exact hcells c hold hz
  · simpa using hb

@[simp] theorem wakeLevels_leads (z : Kept) (s : State) (ns : List Nat) (pads : Bool) :
    Leads fixed z (kept (wakeLevels s ns pads)) ↔ Leads fixed z (kept s) ∨ Anew fixed z (wakeLevels s ns pads) := by
  refine leads_iff ?_
  unfold wakeLevels
  extract_lets on keep s1 s2
  have h1 : Leads fixed (kept s) (kept s1) := by simp [s1]
  have h2 : Leads fixed (kept s) (kept s2) :=
    h1.foldl (fun v c => leads_of_wf (putBack_wf v c.1 c.2) rfl rfl rfl rfl) keep
  exact h2

@[simp] theorem execWakeComplete_goes (u : PowerUnit) (s : State) : Goes fixed s (execWakeComplete u s) := by
  fun_cases execWakeComplete u s <;> simp

theorem leads_of_floor {s u : State} (hm : u.mem = s.mem) (hr : u.regions = s.regions) (hv : u.saves = s.saves) (hq : u.pending = s.pending)
    (hfeat : u.feat = s.feat) (hceil : u.power.ceil = s.power.ceil) (hfl : FloorsRise s.sec.floor u.sec.floor) :
    Leads fixed (kept s) (kept u) :=
  ⟨fun h => (kept_canonical u).mpr ((memWf_congr hm hr hv).trans ((kept_canonical s).mp h)), hq, hfl, fun _ => ⟨hfeat, hceil⟩⟩

theorem putFloor_floor (e : Sec) (f : FloorRec) : (putFloor e f).floor = some { f with counter := e.monotonic + 1 } := rfl

/-- A floor record that is written with floors none of which is lower. -/
theorem floorsRise_put {e : Sec} {f : FloorRec} (h : ∀ g, e.floor = some g → g.floors.length = 11 →
    f.floors.length = 11 ∧ ∀ i < 11, g.floors.getD i 0 ≤ f.floors.getD i 0) : FloorsRise e.floor (putFloor e f).floor :=
  fun g hg hlen => ⟨_, putFloor_floor e f, h g hg hlen⟩

theorem length_modAt {α : Type} (l : List α) (c : Nat) (f : α → α) : (modAt l c f).length = l.length := by
  induction l generalizing c with
  | nil => rfl
  | cons x l ih => cases c <;> simp [modAt, ih]

theorem getD_modAt {α : Type} (l : List α) (c i : Nat) (f : α → α) (d : α) (hi : i < l.length) :
    (modAt l c f).getD i d = if i = c then f (l.getD i d) else l.getD i d := by
  induction l generalizing c i with
  | nil => cases hi
  | cons x l ih =>
    cases c with
    | zero => cases i <;> simp [modAt]
    | succ c =>
      cases i with
      | zero => simp [modAt]
      | succ i => simpa [modAt] using ih c i (by simpa using hi)

/-- The floors that the components cs of a header raise (20 R467). -/
def raisedBy (h : List Byte) (cs fs : List Nat) : List Nat :=
  cs.foldl (fun l c => if entryFloor h c then modAt l c fun v => max v (entrySvn h c) else l) fs

theorem raisedBy_spec (h : List Byte) (cs fs : List Nat) :
    (raisedBy h cs fs).length = fs.length ∧ ∀ i < fs.length, fs.getD i 0 ≤ (raisedBy h cs fs).getD i 0 := by
  induction cs generalizing fs with
  | nil => exact ⟨rfl, fun _ _ => Nat.le_refl _⟩
  | cons c cs ih =>
    have hstep : ∀ l : List Nat, l = (if entryFloor h c then modAt fs c fun v => max v (entrySvn h c) else fs) →
        l.length = fs.length ∧ ∀ i < fs.length, fs.getD i 0 ≤ l.getD i 0 := by
      rintro l rfl
      split
      · refine ⟨length_modAt .., fun i hi => ?_⟩
        rw [getD_modAt _ _ _ _ _ hi]
        split
        · exact Nat.le_max_left ..
        · exact Nat.le_refl _
      · exact ⟨rfl, fun _ _ => Nat.le_refl _⟩
    obtain ⟨hlen, hle⟩ := hstep _ rfl
    obtain ⟨hlen', hle'⟩ := ih (if entryFloor h c then modAt fs c fun v => max v (entrySvn h c) else fs)
    exact ⟨hlen'.trans hlen, fun i hi => (hle i hi).trans (hle' i (hlen ▸ hi))⟩

theorem raiseFloors_floor (e : Sec) (h : List Byte) (cs : List Nat) :
    (raiseFloors e h cs).floor = e.floor.map fun f => if raisedBy h cs f.floors = f.floors then f
      else { f with floors := raisedBy h cs f.floors, counter := e.monotonic + 1 } := by
  unfold raiseFloors
  cases hf : e.floor with
  | none => simp [hf]
  | some f =>
    show (if raisedBy h cs f.floors = f.floors then e else putFloor e { f with floors := raisedBy h cs f.floors }).floor = _
    split
    next heq => simp [hf, heq]
    next hne => simp [putFloor_floor, hne]

theorem raiseFloors_rises (e : Sec) (h : List Byte) (cs : List Nat) : FloorsRise e.floor (raiseFloors e h cs).floor := by
  intro f hf hlen
  obtain ⟨hlen', hle⟩ := raisedBy_spec h cs f.floors
  rw [raiseFloors_floor, hf, Option.map_some]
  refine ⟨_, rfl, ?_⟩
  split
  · exact ⟨hlen, fun _ _ => Nat.le_refl _⟩
  · exact ⟨hlen'.trans hlen, fun i hi => hle i (by omega)⟩

@[simp] theorem applyUpdate_leads (z : Kept) (s : State) (u : Update) :
    Leads fixed z (kept (applyUpdate s u)) ↔ Leads fixed z (kept s) ∨ Anew fixed z (applyUpdate s u) :=
  leads_iff (leads_of_floor rfl rfl rfl rfl rfl rfl (raiseFloors_rises
    { s.sec with
      running := runningManifest s, header := u.header, bodies := arrPut s.sec.bodies u.comp u.body false, psig := true, osig := u.osig }
    u.header [u.comp]))

@[simp] theorem rebuildRing_kept (s : State) : kept (rebuildRing s) = kept s := by simp [rebuildRing]

@[simp] theorem retireFailed_leads (z : Kept) (s : State) (b : Boot) :
    Leads fixed z (kept (retireFailed s b)) ↔ Leads fixed z (kept s) ∨ Anew fixed z (retireFailed s b) := leads_iff (by simp [retireFailed])

theorem initialRecord_leads {img : Image} {s u : State} {r : Rec} (h : initialRecord img (some s) r = some u) :
    Leads fixed (kept s) (kept u) := by
  unfold initialRecord at h
  rw [Option.bind_some] at h
  split at h
  · cases h
  · split at h
    · rw [← Option.some.inj h]
      simp
    · split at h
      · rw [← Option.some.inj h]
        simp
      · rw [← Option.some.inj h]
        simp
      · split at h
        · rw [Option.some.inj h]
          exact leads_refl _
        · cases h

@[simp] theorem bootFailed_kept (s : State) (c : Nat) : kept (bootFailed s c) = kept s := by simp [bootFailed]

@[simp] theorem execMrst_goes (ns : Nat) (s : State) : Goes fixed s (execMrst ns s) := by
  fun_cases execMrst ns s <;> simp

@[simp] theorem execPowerOff_goes (c : OffCause) (s : State) : Goes fixed s (execPowerOff c s) := by
  simp only [execPowerOff]
  (repeat' split) <;> simp

@[simp] theorem execPowerOn_goes (s : State) : Goes fixed s (execPowerOn s) := by simp [execPowerOn]

@[simp] theorem moveClient_kept (s : State) (p o c : Nat) : kept (moveClient s p o c) = kept s := by simp [moveClient]

@[simp] theorem adoptJob_leads (z : Kept) (s : State) (j : Job) (o : Nat) :
    Leads fixed z (kept (adoptJob s j o)) ↔ Leads fixed z (kept s) ∨ Anew fixed z (adoptJob s j o) := by
  refine leads_iff ?_
  unfold adoptJob
  extract_lets evs s1 s2
  have h1 : Leads fixed (kept s) (kept s1) := by simp [s1]
  have h2 : Leads fixed (kept s1) (kept s2) := leads_map_regions s1 (f := fun r => if r.job = j.id then { r with port := o } else r)
    fun y => by split <;> simp [visibleBytes]
  clear_value s1 s2
  simp [h1.trans h2]

@[simp] theorem peerSignal_kept (s : State) (p : Nat) (was : Bool) : kept (peerSignal s p was) = kept s := by
  simp [peerSignal]

@[simp] theorem execLinkDown_goes (p : Nat) (s : State) : Goes fixed s (execLinkDown p s) := by simp [execLinkDown]

@[simp] theorem execLinkUp_goes (p : Nat) (s : State) : Goes fixed s (execLinkUp p s) := by simp [execLinkUp]

@[simp] theorem execPerstRelease_goes (p : Nat) (refclk : Bool) (s : State) : Goes fixed s (execPerstRelease p refclk s) := by
  simp [execPerstRelease]

@[simp] theorem execFlrPf1_goes (p : Nat) (s : State) : Goes fixed s (execFlrPf1 p s) := by simp [execFlrPf1]

/-! ### Commands -/

@[simp] theorem execNop_goes (k : Nat) (s : State) : Goes fixed s (execNop k s) := by simp [execNop]

@[simp] theorem execIdentify_goes (k : Nat) (s : State) : Goes fixed s (execIdentify k s) := by simp [execIdentify]

@[simp] theorem execGetStatus_goes (k : Nat) (s : State) : Goes fixed s (execGetStatus k s) := by simp [execGetStatus]

theorem execSetFeature_goes (k : Nat) (s : State) : Goes false s (execSetFeature k s) := by
  have hfeat (v : State) (f : Arr Nat) : Leads false (kept v) (kept { v with feat := f }) := ⟨id, rfl, FloorsRise.refl _, nofun⟩
  refine goes_withCmd _ _ fun x => ?_
  dsimp only
  split
  · simp
  · split
    · simp
    · exact (everyNext_next _ _).mpr ((replyOk_leads ..).mpr (Or.inl (Leads.trans (by simp) (hfeat _ _))))

@[simp] theorem execGetFeature_goes (k : Nat) (s : State) : Goes fixed s (execGetFeature k s) :=
  goes_withCmd _ _ fun x => by split <;> simp

@[simp] theorem execTallyMap_goes (k : Nat) (s : State) : Goes fixed s (execTallyMap k s) :=
  goes_withJob _ _ fun x j => by (repeat' split) <;> simp

@[simp] theorem hostTally_leads (z : Kept) (s : State) (k op vid n : Nat) (x : Packet) :
    Leads fixed z (kept (hostTally s k op vid n x)) ↔ Leads fixed z (kept s) ∨ Anew fixed z (hostTally s k op vid n x) := by
  refine leads_iff ?_
  simp [hostTally]

@[simp] theorem execTallySignal_goes (k : Nat) (s : State) : Goes fixed s (execTallySignal k s) :=
  goes_withJob _ _ fun x j => by split <;> simp

@[simp] theorem execTallyWait_goes (k : Nat) (s : State) : Goes fixed s (execTallyWait k s) :=
  goes_withJob _ _ fun x j => by split <;> simp

@[simp] theorem execBarrierDefine_goes (k : Nat) (s : State) : Goes fixed s (execBarrierDefine k s) := by simp [execBarrierDefine]

@[simp] theorem streamInject_leads (z : Kept) (s : State) (dest epoch : Nat) (payload : List Byte) :
    Leads fixed z (kept (streamInject s dest epoch payload)) ↔
        Leads fixed z (kept s) ∨ Anew fixed z (streamInject s dest epoch payload) := by
  refine leads_iff ?_
  simp [streamInject]

@[simp] theorem streamSend_leads (z : Kept) (dest epoch msg p k left n : Nat) (s : State) :
    Leads fixed z (kept (streamSend dest epoch msg p k left n s).1) ↔
        Leads fixed z (kept s) ∨ Anew fixed z (streamSend dest epoch msg p k left n s).1 := by
  refine leads_iff ?_
  induction k generalizing left n s with
  | zero => exact leads_refl _
  | succ k ih =>
    simp only [streamSend]
    split <;> simp [leads_iff (ih _ _ _)]

@[simp] theorem execStreamSubmit_goes (k : Nat) (s : State) : Goes fixed s (execStreamSubmit k s) := by simp [execStreamSubmit]

@[simp] theorem execHostfifoConfig_goes (k : Nat) (s : State) : Goes fixed s (execHostfifoConfig k s) := by simp [execHostfifoConfig]

@[simp] theorem execTelemetry_goes (k : Nat) (s : State) : Goes fixed s (execTelemetry k s) := by simp [execTelemetry]

@[simp] theorem execErrlogRead_goes (k : Nat) (s : State) : Goes fixed s (execErrlogRead k s) := by simp [execErrlogRead]

@[simp] theorem execRetrain_goes (k : Nat) (s : State) : Goes fixed s (execRetrain k s) := by simp [execRetrain]

/-! ### Security -/

@[simp] theorem drawn_kept (s : State) (n : Nat) : kept (drawn s n) = kept s := by simp [drawn]

@[simp] theorem execUpdateComponent_goes (k : Nat) (pkg : List Byte) (psigOk osigOk : Bool) (s : State) :
    Goes fixed s (execUpdateComponent k pkg psigOk osigOk s) := by
  simp [execUpdateComponent]

@[simp] theorem execComponentSwap_goes (s : State) : Goes fixed s (execComponentSwap s) := by
  fun_cases execComponentSwap s
  · simp
  next u _ _ =>
    have hceil (p : Power) : (if u.comp = 8 then { p with quiet := 2 } else p).ceil = p.ceil := by split <;> rfl
    simp [hceil]
  · simp

@[simp] theorem execFlashRewriteDone_goes (s : State) : Goes fixed s (execFlashRewriteDone s) := by
  simp only [execFlashRewriteDone]
  (repeat' split) <;> simp

@[simp] theorem execAttest_goes (k : Nat) (s : State) : Goes fixed s (execAttest k s) := by simp [execAttest]

@[simp] theorem mgmtAnswer_kept (s : State) (code : Nat) (bs : List Byte) : kept (mgmtAnswer s code bs) = kept s := by
  simp [mgmtAnswer]

@[simp] theorem execGetChallenge_goes (s : State) : Goes fixed s (execGetChallenge s) := by simp [execGetChallenge]

theorem signedMessage_goes (s : State) (m : SignedMsg) (permitted : Bool) {f : State → State}
    (h : Leads fixed (kept s) (kept (f (modSec s fun e => { e with mctpNonce := none })))) :
    Goes fixed s (signedMessage s m permitted f) := by
  unfold signedMessage
  (repeat' split) <;> simp [h]

theorem writeFloor_leads {s : State} {f : FloorRec} (h : ∀ g, s.sec.floor = some g → g.floors.length = 11 →
    f.floors.length = 11 ∧ ∀ i < 11, g.floors.getD i 0 ≤ f.floors.getD i 0) : Leads fixed (kept s) (kept (writeFloor s f)) :=
  leads_of_floor rfl rfl rfl rfl rfl rfl (floorsRise_put h)

@[simp] theorem execTakeOwnership_goes (m : SignedMsg) (owner : List Byte) (s : State) : Goes fixed s (execTakeOwnership m owner s) := by
  refine signedMessage_goes _ _ _ (Leads.trans (by simp) (writeFloor_leads fun g hg hlen => ?_))
  replace hg : s.sec.floor = some g := hg
  simp [hg, hlen]

theorem ownerChange_goes (s : State) (m : SignedMsg) (permitted : Bool) {f : FloorRec → FloorRec}
    (h : ∀ g, g.floors.length = 11 → (f g).floors.length = 11 ∧ ∀ i < 11, g.floors.getD i 0 ≤ (f g).floors.getD i 0) :
    Goes fixed s (ownerChange s m permitted f) := by
  refine signedMessage_goes _ _ _ ?_
  split
  next r hr => exact Leads.trans (by simp) (writeFloor_leads fun g hg => by cases hr.symm.trans hg; exact h r)
  · simp

@[simp] theorem execSetPolicy_goes (m : SignedMsg) (cosign : Bool) (keys : List (Nat × List Byte)) (s : State) :
    Goes fixed s (execSetPolicy m cosign keys s) := ownerChange_goes _ _ _ fun _ hg => ⟨hg, fun _ _ => Nat.le_refl _⟩

@[simp] theorem execSetFloor_goes (m : SignedMsg) (floors : List Nat) (s : State) : Goes fixed s (execSetFloor m floors s) := by
  refine ownerChange_goes _ _ _ fun g _ => ⟨by simp, fun i hi => ?_⟩
  simp only [List.getD_eq_getElem?_getD, List.getElem?_map, List.getElem?_range hi, Option.map_some, Option.getD_some]
  exact (Nat.le_max_left _ _).trans (Nat.le_max_left _ _)

@[simp] theorem execReleaseOwnership_goes (m : SignedMsg) (s : State) : Goes fixed s (execReleaseOwnership m s) :=
  ownerChange_goes _ _ _ fun _ hg => ⟨hg, fun _ _ => Nat.le_refl _⟩

@[simp] theorem writeImage_leads (z : Kept) (s : State) (img : List Byte) (psigOk osigOk ok : Bool) :
    Leads fixed z (kept (writeImage s img psigOk osigOk ok)) ↔
        Leads fixed z (kept s) ∨ Anew fixed z (writeImage s img psigOk osigOk ok) := by
  refine leads_iff (leads_of_floor rfl rfl rfl rfl rfl rfl ?_)
  cases ok with
  | true => exact raiseFloors_rises { s.sec with
      header := slice img 0 4096
      bodies := (List.range 11).map fun c => (c, if entryAbsent (slice img 0 4096) c then [] else
        slice img (entryOffset (slice img 0 4096) c) (entryLen (slice img 0 4096) c))
      psig := psigOk, osig := osigOk } (slice img 0 4096) (List.range 11)
  | false => exact FloorsRise.refl _

@[simp] theorem execDeliverImage_goes (img : List Byte) (psigOk osigOk : Bool) (s : State) :
    Goes fixed s (execDeliverImage img psigOk osigOk s) := by
  fun_cases execDeliverImage img psigOk osigOk s <;> simp

@[simp] theorem spdmAnswer_kept (s : State) (tr code : Nat) (bs : List Byte) :
    kept (spdmAnswer s tr code bs) = kept s := by
  simp [spdmAnswer]

@[simp] theorem goes_withSpdm {s : State} (tr : Nat) (ready : Bool) {o : Outcome} (h : Goes fixed s o) :
    Goes fixed s (withSpdm s tr ready o) := by
  simp [withSpdm, h]

@[simp] theorem execGetVersion_goes (tr : Nat) (s : State) : Goes fixed s (execGetVersion tr s) := by simp [execGetVersion]

@[simp] theorem execGetCapabilities_goes (tr : Nat) (s : State) : Goes fixed s (execGetCapabilities tr s) := by simp [execGetCapabilities]

@[simp] theorem execNegotiateAlgorithms_goes (tr : Nat) (offered : List Nat) (s : State) :
    Goes fixed s (execNegotiateAlgorithms tr offered s) := by
  simp [execNegotiateAlgorithms]

@[simp] theorem execGetDigests_goes (tr : Nat) (s : State) : Goes fixed s (execGetDigests tr s) := by simp [execGetDigests]

@[simp] theorem execGetCertificate_goes (tr slot : Nat) (s : State) : Goes fixed s (execGetCertificate tr slot s) := by
  simp [execGetCertificate]

@[simp] theorem execChallenge_goes (tr slot : Nat) (nonce : List Byte) (s : State) : Goes fixed s (execChallenge tr slot nonce s) := by
  simp [execChallenge]

@[simp] theorem execGetMeasurements_goes (tr index : Nat) (s : State) : Goes fixed s (execGetMeasurements tr index s) := by
  simp [execGetMeasurements]

@[simp] theorem execKeyExchange_goes (tr : Nat) (s : State) : Goes fixed s (execKeyExchange tr s) := by
  simp only [execKeyExchange]
  (repeat' split) <;> simp

@[simp] theorem modSession_kept (s : State) (tr i : Nat) (f : Session → Session) :
    kept (modSession s tr i f) = kept s := by
  simp [modSession]

@[simp] theorem endSession_kept (s : State) (tr i : Nat) : kept (endSession s tr i) = kept s := by simp [endSession]

@[simp] theorem goes_withSession {s : State} (tr i : Nat) (finished : Bool) {o : Outcome} (h : Goes fixed s o) :
    Goes fixed s (withSession s tr i finished o) :=
  goes_withSpdm _ _ h

@[simp] theorem execFinish_goes (tr sess : Nat) (macOk : Bool) (s : State) :
    Goes fixed s (execFinish tr sess macOk s) := by simp [execFinish]

@[simp] theorem execHeartbeat_goes (tr sess : Nat) (s : State) : Goes fixed s (execHeartbeat tr sess s) := by simp [execHeartbeat]

@[simp] theorem execKeyUpdate_goes (tr sess : Nat) (s : State) : Goes fixed s (execKeyUpdate tr sess s) := by simp [execKeyUpdate]

@[simp] theorem execEndSession_goes (tr sess : Nat) (s : State) : Goes fixed s (execEndSession tr sess s) := by simp [execEndSession]

@[simp] theorem execUnsupportedRequest_goes (tr code : Nat) (s : State) : Goes fixed s (execUnsupportedRequest tr code s) := by
  simp [execUnsupportedRequest]

@[simp] theorem execIdeKm_goes (p sess stream : Nat) (key : List Byte) (s : State) : Goes fixed s (execIdeKm p sess stream key s) := by
  simp [execIdeKm]

@[simp] theorem execRngReseed_goes (s : State) : Goes fixed s (execRngReseed s) := by simp [execRngReseed]

@[simp] theorem execRngHealthFailure_goes (s : State) : Goes fixed s (execRngHealthFailure s) := by simp [execRngHealthFailure]

/-! ### Tick -/

@[simp] theorem ageNet_kept (s : State) : kept (ageNet s) = kept s := by simp [ageNet]

@[simp] theorem countHub_kept (s : State) : kept (countHub s) = kept s := by simp [countHub]

@[simp] theorem countReplay_kept (s : State) : kept (countReplay s) = kept s := by
  fun_cases countReplay s <;> simp


/-! ## Operations that change which addresses read zero -/

/-- Regions and saves have changed, and memory is put into its canonical form. -/
theorem memCanon_leads {s u : State} (hm : arrSorted s.mem = true → arrSorted u.mem = true) (hq : u.pending = s.pending)
    (hfl : u.sec.floor = s.sec.floor) (hfeat : u.feat = s.feat) (hceil : u.power.ceil = s.power.ceil) :
    Leads fixed (kept s) (kept (memCanon u)) :=
  leads_of_wf (fun h => memCanon_wf u (hm (memWf_sorted h))) hq hfl hfeat hceil

@[simp] theorem destroyRegion_leads (z : Kept) (s : State) (r : Region) :
    Leads fixed z (kept (destroyRegion s r)) ↔ Leads fixed z (kept s) ∨ Anew fixed z (destroyRegion s r) := by
  refine leads_iff ?_
  unfold destroyRegion
  extract_lets e v s1 s2
  have h2 : Leads fixed (kept v) (kept s2) := memCanon_leads (fun h => arrSorted_filter _ _ h) rfl rfl rfl rfl
  have hv : Leads fixed (kept s) (kept s2) := Leads.trans (by simp [v]) h2
  clear_value s2
  (repeat' split) <;> simp [hv]

@[simp] theorem closeJob_leads (z : Kept) (s : State) (j : Job) (k : Nat) :
    Leads fixed z (kept (closeJob s j k).1) ↔ Leads fixed z (kept s) ∨ Anew fixed z (closeJob s j k).1 := by
  refine leads_iff ?_
  unfold closeJob
  extract_lets computes failed s0 ts sa still s1 bad s2 s3 s4 s5 s6 s7 s8
  have h1 : Leads fixed (kept s) (kept s1) := by simp [s1, sa, s0]
  clear_value s1
  have h2 : Leads fixed (kept s) (kept s2) := by simp [s2, h1]
  clear_value s2
  have h4 : Leads fixed (kept s) (kept s4) := by simp [s4, s3, h2]
  clear_value s4
  have h5 : Leads fixed (kept s) (kept s5) := by simp [s5, h4]
  clear_value s5
  simp [s8, s7, s6, h5]

@[simp] theorem closeDoomed_leads (z : Kept) (s : State) :
    Leads fixed z (kept (closeDoomed s)) ↔ Leads fixed z (kept s) ∨ Anew fixed z (closeDoomed s) := by
  refine leads_iff ((leads_refl _).foldl (fun v j => ?_) _)
  (repeat' split) <;> simp

@[simp] theorem abortJob_leads (z : Kept) (s : State) (j : Job) :
    Leads fixed z (kept (abortJob s j)) ↔ Leads fixed z (kept s) ∨ Anew fixed z (abortJob s j) := leads_iff (by simp [abortJob])

@[simp] theorem failover_leads (z : Kept) (s : State) (p : Nat) (up : Bool) :
    Leads fixed z (kept (failover s p up)) ↔ Leads fixed z (kept s) ∨ Anew fixed z (failover s p up) := leads_iff (by simp [failover])

@[simp] theorem actFailover_leads (z : Kept) (s : State) (p : Nat) :
    Leads fixed z (kept (actFailover s p)) ↔ Leads fixed z (kept s) ∨ Anew fixed z (actFailover s p) := by
  refine leads_iff ?_
  unfold actFailover
  (repeat' split) <;> simp

@[simp] theorem expire_leads (z : Kept) (s : State) (p : Nat) (fault : Bool) :
    Leads fixed z (kept (expire s p fault)) ↔ Leads fixed z (kept s) ∨ Anew fixed z (expire s p fault) := leads_iff (by simp [expire])

@[simp] theorem portGoes_leads (z : Kept) (s : State) (p : Nat) :
    Leads fixed z (kept (portGoes s p)) ↔ Leads fixed z (kept s) ∨ Anew fixed z (portGoes s p) := leads_iff (by simp [portGoes])

@[simp] theorem portWiped_leads (z : Kept) (s : State) (p : Nat) (link perst : Bool) :
    Leads fixed z (kept (portWiped s p link perst)) ↔ Leads fixed z (kept s) ∨ Anew fixed z (portWiped s p link perst) :=
  leads_iff (by simp [portWiped])

@[simp] theorem unlockDevice_leads (z : Kept) (s : State) :
    Leads fixed z (kept (unlockDevice s)) ↔ Leads fixed z (kept s) ∨ Anew fixed z (unlockDevice s) := by
  refine leads_iff ?_
  unfold unlockDevice
  extract_lets js s1 s2 s3 errs s4 ring s5
  have h3 : Leads fixed (kept s) (kept s3) := by simp [s3, s2, s1]
  clear_value s3
  have h4 : Leads fixed (kept s) (kept s4) := h3.trans (memCanon_leads (fun h => arrSorted_filter _ _ h) rfl rfl rfl rfl)
  clear_value s4
  simp [s5, ring, h4]

@[simp] theorem openMember_kept (s : State) (h : RespHead) (b : List Byte) : kept (openMember s h b) = kept s := by
  simp [openMember]

@[simp] theorem decisionTaken_leads (z : Kept) (s : State) (h : RespHead) (b : List Byte) :
    Leads fixed z (kept (decisionTaken s h b)) ↔ Leads fixed z (kept s) ∨ Anew fixed z (decisionTaken s h b) := by
  refine leads_iff ?_
  unfold decisionTaken
  (repeat' split) <;> simp

@[simp] theorem respTaken_leads (z : Kept) (s : State) (b : List Byte) :
    Leads fixed z (kept (respTaken s b)) ↔ Leads fixed z (kept s) ∨ Anew fixed z (respTaken s b) := by
  refine leads_iff ?_
  unfold respTaken
  dsimp only
  (repeat' split) <;> simp

@[simp] theorem frameTaken_leads (z : Kept) (s : State) (p : Nat) (f : Frame) :
    Leads fixed z (kept (frameTaken s p f)) ↔ Leads fixed z (kept s) ∨ Anew fixed z (frameTaken s p f) := by
  refine leads_iff ?_
  unfold frameTaken
  dsimp only
  (repeat' split) <;> simp

/-! ## Starting up -/

theorem loadInitial_leads {s u : State} (h : loadInitial s = some u) : Leads fixed (kept s) (kept u) := by
  have hrecs (img : Image) (rs : List Rec) : ∀ v w : State,
      rs.foldl (initialRecord img) (some v) = some w → Leads fixed (kept v) (kept w) := by
    induction rs with
    | nil => exact fun v w hvw => Option.some.inj hvw ▸ leads_refl _
    | cons r rs ih =>
      intro v w hvw
      rw [List.foldl_cons] at hvw
      cases hr : initialRecord img (some v) r with
      | none => rw [hr, initialRecord_foldl_none] at hvw; cases hvw
      | some x => exact (initialRecord_leads hr).trans (ih x w (hr ▸ hvw))
  unfold loadInitial at h
  dsimp only at h
  split at h
  · rw [Option.some.inj h]
    exact leads_refl _
  · split at h
    · cases h
    · obtain ⟨v, hv, rfl⟩ := Option.map_eq_some_iff.mp h
      have hbody : Leads fixed (kept s) (kept v) := Leads.trans (by simp) (hrecs _ _ _ _ hv)
      simp [hbody]

/-- The state before a start-up: a journal that is complete has been applied (20 R476). -/
def journalled (s : State) : State :=
  match s.sec.update with
  | some u => bumpFresh (if journalDone s u then applyUpdate s u else s)
  | none => s

theorem journalled_leads (s : State) : Leads fixed (kept s) (kept (journalled s)) := by
  unfold journalled
  split <;> simp

/-- A cold state has empty memory and the defaults of the ceiling and the features. -/
theorem coldState_leads (s : State) : Leads false (kept s) (kept (coldState s)) :=
  ⟨fun _ => rfl, rfl, FloorsRise.refl _, nofun⟩

/-- A start-up changes nothing of the cold state that it begins with. -/
theorem startUp_of_cold (s : State) (b : Boot) : Leads fixed (kept (coldState (journalled s))) (kept (startUp s b)) := by
  unfold startUp
  extract_lets s0 s1 s2 s3 s4 s5
  have h1 : s1 = coldState (journalled s) := rfl
  have h0 : coldState s0 = coldState (journalled s) := rfl
  have h5 : Leads fixed (kept s1) (kept s5) := by simp [s5, s4, s3, s2]
  rw [h1] at h5
  clear_value s5
  split
  · rw [bootFailed_kept, h1]
    exact leads_refl _
  · split
    · rw [bootFailed_kept, h0]
      exact leads_refl _
    next s6 hload => exact h5.trans (loadInitial_leads (u := s6) hload)

theorem startUp_leads (s : State) (b : Boot) : Leads false (kept s) (kept (startUp s b)) :=
  (journalled_leads s).trans ((coldState_leads _).trans (startUp_of_cold s b))

/-! ## The commands -/

@[simp] theorem execRegionCreate_goes (k : Nat) (s : State) : Goes fixed s (execRegionCreate k s) := by
  refine goes_withJob k _ fun x j => ?_
  split
  · simp
  split
  · simp
  split
  · simp
  split
  · simp
  split
  · simp
  split
  · simp
  next base hbase _ =>
    extract_lets gran zero slot s1 r s2 fin
    have hdrop (v : State) (lo hi : Nat) : Leads fixed (kept v) (kept (memDrop v lo hi)) := leads_of_wf (memDrop_wf v lo hi) rfl rfl rfl rfl
    have h1 : Leads fixed (kept s) (kept s1) := by
      rw [takeKey_kept]
      exact Leads.trans (by simp) (hdrop _ _ _)
    have hcanon : Leads fixed (kept s1) (kept (memCanon { s1 with regions := s1.regions ++ [r], rng := s1.rng + 4 })) :=
      memCanon_leads id rfl rfl rfl rfl
    have h2 : Leads fixed (kept s) (kept s2) := (h1.trans hcanon).trans (by simp [s2])
    have hfin (u : State) : Leads fixed (kept u) (kept (fin u)) := by simp [fin]
    clear_value s2 fin
    split
    · refine (everyNext_next _ _).mpr ((orLater_leads _ _ _ _ ((everyNext_next _ _).mpr (hfin _))).mpr (Or.inl ?_))
      simp [h2]
    · exact (everyNext_next _ _).mpr (h2.trans (hfin s2))

@[simp] theorem execRegionDestroy_goes (k : Nat) (s : State) : Goes fixed s (execRegionDestroy k s) := by
  refine goes_withJob k _ fun x j => ?_
  (repeat' split) <;> simp

@[simp] theorem execJobOpen_goes (k : Nat) (s : State) : Goes fixed s (execJobOpen k s) := by
  refine goes_withCmd k _ fun x => ?_
  dsimp only
  (repeat' split) <;> simp

@[simp] theorem execJobClose_goes (k : Nat) (s : State) : Goes fixed s (execJobClose k s) := by
  refine goes_withJob k _ fun x j => ?_
  dsimp only
  (repeat' split) <;> simp

@[simp] theorem execDebugUnlock_goes (k : Nat) (token : List Byte) (sigOk : Bool) (s : State) :
    Goes fixed s (execDebugUnlock k token sigOk s) := by
  refine goes_withCmd k _ fun x => ?_
  dsimp only
  (repeat' split) <;> simp

@[simp] theorem execSwitchScanEnd_goes (s : State) : Goes fixed s (execSwitchScanEnd s) := by
  unfold execSwitchScanEnd
  (repeat' split) <;> simp

@[simp] theorem execRestoreEnd_goes (s : State) : Goes fixed s (execRestoreEnd s) := by
  unfold execRestoreEnd
  dsimp only
  (repeat' split) <;> simp

@[simp] theorem execJorzinFrame_goes (p : Nat) (f : Frame) (crcOk : Bool) (s : State) : Goes fixed s (execJorzinFrame p f crcOk s) := by
  refine everyNext_withJPort p ?_
  dsimp only
  (repeat' split) <;> simp

@[simp] theorem execPerstAssert_goes (p : Nat) (s : State) : Goes fixed s (execPerstAssert p s) := by
  refine everyNext_withPort p ?_
  (repeat' split) <;> simp

@[simp] theorem execHotReset_goes (p : Nat) (s : State) : Goes fixed s (execHotReset p s) := by
  refine everyNext_withPort p ?_
  (repeat' split) <;> simp

@[simp] theorem execFlrPf0_goes (p : Nat) (s : State) : Goes fixed s (execFlrPf0 p s) := by
  refine everyNext_withPort p ?_
  (repeat' split) <;> simp

@[simp] theorem execFailoverTimeout_goes (p : Nat) (s : State) : Goes fixed s (execFailoverTimeout p s) := by
  refine everyNext_withPort p ?_
  dsimp only
  (repeat' split) <;> simp

theorem execPor_goes (b : Boot) (s : State) : Goes false s (execPor b s) := by
  unfold execPor
  split
  · simp
  · exact (everyNext_next _ _).mpr (startUp_leads s b)

theorem execMrstRelease_goes (b : Boot) (s : State) : Goes false s (execMrstRelease b s) := by
  unfold execMrstRelease
  split
  · exact (everyNext_next _ _).mpr (startUp_leads s b)
  · simp

/-- The four commands that may change the ceiling or the features. -/
def Resettles (c : Instr) : Prop := (∃ k, c = .powerCeiling k) ∨ (∃ k, c = .setFeature k) ∨ (∃ b, c = .por b) ∨ ∃ b, c = .mrstRelease b

theorem goes_false_of {s : State} {o : Outcome} (h : Goes true s o) : Goes false s o := by
  intro u hu
  obtain ⟨hwf, hq, hrise, _⟩ := h u hu
  exact ⟨hwf, hq, hrise, nofun⟩

theorem exec_goes_true {c : Instr} (hc : ¬ Resettles c) (s : State) : Goes true s (exec c s) := by
  cases c with
  | powerCeiling k => exact absurd (Or.inl ⟨k, rfl⟩) hc
  | setFeature k => exact absurd (Or.inr (Or.inl ⟨k, rfl⟩)) hc
  | por b => exact absurd (Or.inr (Or.inr (Or.inl ⟨b, rfl⟩))) hc
  | mrstRelease b => exact absurd (Or.inr (Or.inr (Or.inr ⟨b, rfl⟩))) hc
  | _ =>
    dsimp only [exec]
    simp

/-- Every command keeps the queue, the canonical form and the floors. -/
theorem exec_goes (c : Instr) (s : State) : Goes false s (exec c s) := by
  by_cases hc : Resettles c
  · rcases hc with ⟨k, rfl⟩ | ⟨k, rfl⟩ | ⟨b, rfl⟩ | ⟨b, rfl⟩
    · exact execPowerCeiling_goes k s
    · exact execSetFeature_goes k s
    · exact execPor_goes b s
    · exact execMrstRelease_goes b s
  · exact goes_false_of (exec_goes_true hc s)

theorem tick_leads (s : State) : Leads fixed (kept s) (kept (tick s)) := by
  unfold tick
  dsimp only
  split
  · simp
  · simp

/-! ## The statements -/

/-- Settles O2: the queue is a part of what every command keeps. -/
theorem commandsLeaveTheQueueAlone : Obligations.CommandsLeaveTheQueueAlone := by
  intro c s u hu
  obtain ⟨_, hqueue, _⟩ := exec_goes c s u hu
  exact hqueue

/-- Settles O4: a step is an A-cycle or a command, and each leads from canonical memory to canonical memory. -/
theorem memoryStaysCanonical : Obligations.MemoryStaysCanonical := by
  intro s u hs hstep
  unfold step at hstep
  split at hstep
  · cases hstep
    obtain ⟨hwf, _⟩ := tick_leads (fixed := false) s
    exact (kept_canonical _).mp (hwf ((kept_canonical s).mpr hs))
  next c rest _ =>
    obtain ⟨hwf, _⟩ := exec_goes c { s with pending := rest } u hstep
    exact (kept_canonical u).mp (hwf ((kept_canonical { s with pending := rest }).mpr hs))

/-- A feature that nothing has set reads its default. -/
theorem feature_of_empty {s : State} (h : s.feat = []) (f : Nat) : feature s f = featDefault f := by rw [feature, h]; rfl

/-- After a start-up the ceiling and the features are those of the cold state. -/
theorem startUp_defaults (s : State) (b : Boot) : (startUp s b).power.ceil = 3000 ∧ ∀ f, feature (startUp s b) f = featDefault f := by
  obtain ⟨_, _, _, hset⟩ := startUp_of_cold (fixed := true) s b
  obtain ⟨hfeat, hceil⟩ := hset rfl
  exact ⟨hceil, feature_of_empty hfeat⟩

/-- Settles O59: all but four commands keep both, and a start-up keeps those of the cold state. -/
theorem ceilingAndFeaturesSurvive : Obligations.CeilingAndFeaturesSurvive := by
  refine ⟨fun c s u hu hceiling hfeature hpor hmrst => ?_, fun s u b h => ?_⟩
  · have hc : ¬ Resettles c := by
      rintro (⟨k, rfl⟩ | ⟨k, rfl⟩ | ⟨b, rfl⟩ | ⟨b, rfl⟩)
      exacts [hceiling k rfl, hfeature k rfl, hpor b rfl, hmrst b rfl]
    obtain ⟨_, _, _, hset⟩ := exec_goes_true hc s u hu
    obtain ⟨hfeat, hceil⟩ := hset rfl
    exact ⟨hceil, hfeat⟩
  · rcases h with ⟨hon, hu⟩ | ⟨hmrst, hu⟩
    · simp only [exec, execPor, hon, if_false, Host.Outcome.next.injEq] at hu
      exact hu ▸ startUp_defaults s b
    · simp only [exec, execMrstRelease, hmrst, if_true, Host.Outcome.next.injEq] at hu
      exact hu ▸ startUp_defaults s b

theorem complete_sec (s : State) (k status detail r0 r1 : Nat) : (complete s k status detail r0 r1).sec = s.sec := by
  rw [complete_frame]

theorem signalBoth_sec (s : State) (vec : Nat) : (signalBoth s vec).sec = s.sec := by
  obtain ⟨m, hm⟩ := signalBoth_frame s vec
  rw [hm]

/-- The floor of one component that raises it (20 R467). -/
theorem raiseFloors_one {e : Sec} {f : FloorRec} {h : List Byte} {c : Nat} (hf : e.floor = some f) (hc : c < f.floors.length)
    (hraise : entryFloor h c = true) :
    ∃ g, (raiseFloors e h [c]).floor = some g ∧ g.floors.getD c 0 = max (f.floors.getD c 0) (entrySvn h c) := by
  have hmax : (raisedBy h [c] f.floors).getD c 0 = max (f.floors.getD c 0) (entrySvn h c) := by
    simp only [raisedBy, List.foldl_cons, List.foldl_nil, hraise, if_true]
    rw [getD_modAt _ _ _ _ _ hc, if_pos rfl]
  rw [raiseFloors_floor, hf, Option.map_some]
  refine ⟨_, rfl, ?_⟩
  split
  next hsame => rw [← hmax, hsame]
  · exact hmax

/-- Settles O58: what every command leads to has no floor that is lower, and a component written raises its own. -/
theorem floorsNeverFall : Obligations.FloorsNeverFall := by
  refine ⟨fun c s u f hu hf hlen => ?_, fun s p f hon hp hready hcomp hf hlen hraise => ?_⟩
  · obtain ⟨_, _, hrise, _⟩ := exec_goes c s u hu
    exact hrise f hf hlen
  · have hidle : ¬ ((!p.swapped ∧ p.comp ≠ 0) ∨ s.module ≠ .on) := by
      rcases hready with h | h <;> simp [hon, h]
    obtain ⟨g, hg, hmax⟩ := raiseFloors_one (h := p.header) (c := p.comp)
      (e := { s.sec with
        running := runningManifest s, header := p.header, bodies := arrPut s.sec.bodies p.comp p.body false, psig := true, osig := p.osig })
      hf (by omega) hraise
    refine ⟨_, g, by rw [exec, execFlashRewriteDone, hp]; exact if_neg hidle, ?_, hmax⟩
    rw [signalBoth_sec, replyOk, complete_sec, sec_modSec]
    exact hg

end Sys2Proof.Machine

/-! PROOF. Every command that names units which exist is answered by a next state, every other one by a fault. -/

namespace Sys2Proof.Machine

open Sys2Proof.WellFormed

/-- The row is answered by a next state. -/
def Answers (o : Outcome) : Prop := ∃ u, o = .next u

/-- The row is answered by a next state if the units that its command names exist, else by a fault. -/
def AnswersIf (wf : Bool) (o : Outcome) : Prop := (wf = true → Answers o) ∧ (wf = false → ∃ f, o = .fault f)

@[simp] theorem answers_next (u : State) : Answers (.next u) := ⟨u, rfl⟩

@[simp] theorem answers_ite (c : Prop) [Decidable c] (a b : Outcome) : Answers (if c then a else b) ↔
    if c then Answers a else Answers b := by
  split <;> rfl

@[simp] theorem answersIf_true (o : Outcome) : AnswersIf true o ↔ Answers o := ⟨fun h => h.1 rfl, fun h => ⟨fun _ => h, nofun⟩⟩

/-- The check of one unit, before those of the others. -/
theorem answersIf_guard {c : Prop} [Decidable c] {b : Bool} {o : Outcome} (f : Fault) (h : AnswersIf b o) :
    AnswersIf (decide c && b) (if c then o else .fault f) := by
  obtain ⟨hnext, hfault⟩ := h
  by_cases hc : c <;> simp [AnswersIf, hc]
  · exact ⟨hnext, hfault⟩

/-- The only check of a row. -/
theorem answersIf_check {c : Prop} [Decidable c] {o : Outcome} (f : Fault) (h : Answers o) :
    AnswersIf (decide c) (if c then o else .fault f) := by
  simpa using answersIf_guard (c := c) f ((answersIf_true o).mpr h)

theorem answersIf_unless {c d : Prop} [Decidable c] [Decidable d] {o : Outcome} (hcd : c ↔ ¬ d) (f : Fault) (h : Answers o) :
    AnswersIf (decide d) (if c then .fault f else o) := by
  by_cases hd : d <;> simp [AnswersIf, hcd, hd, h]

section
variable {s : State} {o : Outcome} {b : Bool}

@[simp] theorem answersIf_withTile (t : Nat) {f : Tile → Outcome} (h : ∀ x, Answers (f x)) : AnswersIf (isTile t) (withTile s t f) :=
  answersIf_check _ (h _)

@[simp] theorem answersIf_withQueue (q : Nat) (h : AnswersIf b o) : AnswersIf (isUnitQueue q && b) (withQueue q s o) := answersIf_guard _ h

@[simp] theorem answersIf_withSlot (q : Nat) (h : AnswersIf b o) : AnswersIf (isSlot q && b) (withSlot q s o) := answersIf_guard _ h

@[simp] theorem answersIf_withQ16 (q : Nat) (h : AnswersIf b o) : AnswersIf (isRecvQueue q && b) (withQ16 q s o) := answersIf_guard _ h

@[simp] theorem answersIf_withPort (p : Nat) (h : Answers o) : AnswersIf (isPort p) (withPort p o) := answersIf_check _ h

@[simp] theorem answersIf_withLevel (n : Nat) (h : Answers o) : AnswersIf (isLevel n) (withLevel n o) := answersIf_check _ h

@[simp] theorem answersIf_withJPort (p : Nat) (h : Answers o) : AnswersIf (isJorzinPort p) (withJPort p o) := answersIf_check _ h

@[simp] theorem answersIf_withPq (p q : Nat) (h : Answers o) : AnswersIf (isPort p && isPortQueue q) (withPq p q o) := by
  by_cases hp : p ≤ 1 <;> by_cases hq : q ≤ 16 <;>
      simp [AnswersIf, withPq, isPort, isPortQueue, hp, hq, h, Nat.not_lt.mpr, Nat.lt_of_not_le]

@[simp] theorem answersIf_withHead (t k op : Nat) {f : Tile → QEntry → Outcome} (h : ∀ x e, Answers (f x e)) :
    AnswersIf (isTile t) (withHead s t k op f) := by
  refine answersIf_withTile t fun x => ?_
  (repeat' split) <;> simp [h]

@[simp] theorem answers_withCmd (k op : Nat) {f : Packet → Outcome} (h : ∀ x, Answers (f x)) : Answers (withCmd s k op f) := by
  unfold withCmd
  (repeat' split) <;> simp [h]

@[simp] theorem answers_withJob (k op : Nat) {f : Packet → Job → Outcome} (h : ∀ x j, Answers (f x j)) : Answers (withJob s k op f) :=
  answers_withCmd k op fun x => by split <;> simp [h]

@[simp] theorem answers_withRecord (p : Rec → Bool) (f : Load → Rec → State) : Answers (withRecord s p f) := by
  unfold withRecord
  (repeat' split) <;> simp

@[simp] theorem answers_withNotice (f : State → Notice → Option State) : Answers (withNotice s f) := by
  unfold withNotice
  (repeat' split) <;> simp

@[simp] theorem answers_signedMessage (m : SignedMsg) (permitted : Bool) (f : State → State) : Answers (signedMessage s m permitted f) := by
  unfold signedMessage
  (repeat' split) <;> simp

@[simp] theorem answersIf_withSpdm (tr : Nat) (ready : Bool) (h : Answers o) : AnswersIf (isTransport tr) (withSpdm s tr ready o) :=
  answersIf_unless (by omega) _ (by (repeat' split) <;> simp [h])

@[simp] theorem answersIf_withSession (tr i : Nat) (finished : Bool) (h : Answers o) :
    AnswersIf (isTransport tr) (withSession s tr i finished o) := answersIf_withSpdm _ _ h

@[simp] theorem answers_settle (t idx : Nat) (r : Except TErr Tile) : Answers (settle s t idx r) := by
  unfold settle
  split <;> simp

end


/-! ## Rows that go through a function of their own -/

@[simp] theorem answers_dispatchStep (s : State) (t : Nat) (x : Tile) : Answers (dispatchStep s t x) := by
  unfold dispatchStep
  dsimp only
  (repeat' split) <;> simp

@[simp] theorem answersIf_startProduct (zero : Bool) (op t : Nat) (s : State) : AnswersIf (isTile t) (startProduct zero op t s) :=
  answersIf_withHead _ _ _ fun x e => by (repeat' split) <;> simp

@[simp] theorem answersIf_startRun (scan : Bool) (op t : Nat) (s : State) : AnswersIf (isTile t) (startRun scan op t s) :=
  answersIf_withHead _ _ _ fun x e => by (repeat' split) <;> simp

@[simp] theorem answersIf_sendMessage (comb : Bool) (op t : Nat) (s : State) : AnswersIf (isTile t) (sendMessage comb op t s) :=
  answersIf_withHead _ _ _ fun x e => by (repeat' split) <;> simp

@[simp] theorem answersIf_sendTally (op code t q : Nat) (s : State) : AnswersIf (isUnitQueue q && isTile t) (sendTally op code t q s) := by
  simp [sendTally]

@[simp] theorem answers_ownerChange (s : State) (m : SignedMsg) (permitted : Bool) (f : FloorRec → FloorRec) :
    Answers (ownerChange s m permitted f) := by simp [ownerChange]

@[simp] theorem answers_calibrate (s : State) (ok : Bool) (f : Assay → Assay) (code datum : Nat) :
    Answers (calibrate s ok f code datum) := by
  simp [calibrate]

/-! ## Rows with checks of their own -/

theorem execQueuePointerReset_answersIf (u : QueueRef) (s : State) : AnswersIf (isQueueRef u) (execQueuePointerReset u s) := by
  cases u with
  | tileQ t q =>
    rw [isQueueRef, Bool.and_comm]
    refine answersIf_withQ16 (s := s) q (answersIf_withTile t fun x => ?_)
    dsimp only
    (repeat' split) <;> simp
  | hostFifo p => exact answersIf_withPort p (answers_next _)
  | jorzinIn p lvc => exact answersIf_guard _ (answersIf_unless (by omega) _ (answers_next _))
  | combiner n => simp [isQueueRef, execQueuePointerReset]

theorem execRouteHoldRelease_answersIf (src dst : Nat) (s : State) :
    AnswersIf (isTile src && isTile dst) (execRouteHoldRelease src dst s) := by
  rw [isTile, isTile, ← Bool.decide_and]
  exact answersIf_unless (by omega) _ (by simp)

theorem execBarrierTimeout_answersIf (bid : Nat) (s : State) : AnswersIf (isBarrier bid) (execBarrierTimeout bid s) := by
  refine answersIf_unless (by omega) _ ?_
  dsimp only
  (repeat' split) <;> simp

theorem execRegisterWrite_answersIf (p pf off : Nat) (v : BitVec 64) (be : BitVec 8) (s : State) :
    AnswersIf (isPort p && decide (pf ≤ 3)) (execRegisterWrite p pf off v be s) :=
  answersIf_guard _ (answersIf_unless (by omega) _ (by simp))

theorem execThermalSample_answersIf (die temp : Nat) (s : State) : AnswersIf (isDie die) (execThermalSample die temp s) :=
  answersIf_unless (by omega) _ (by simp)

theorem execShbarReleased_answersIf (line : Nat) (s : State) : AnswersIf (decide (line ≤ 3)) (execShbarReleased line s) :=
  answersIf_unless (by omega) _ (by simp)

theorem execErrorEvent_answersIf (e : FaultEvent) (s : State) : AnswersIf (eventExists e) (execErrorEvent e s) := by
  unfold execErrorEvent
  cases he : eventExists e with
  | false => exact ⟨nofun, fun _ => ⟨.noUnit, rfl⟩⟩
  | true =>
    refine (answersIf_true _).mpr ?_
    (repeat' split) <;> simp_all

theorem execSummaryRecord_answersIf (u : CountUnit) (s : State) : AnswersIf (unitExists u) (execSummaryRecord u s) := by
  unfold execSummaryRecord
  cases hu : unitExists u with
  | false => exact ⟨nofun, fun _ => ⟨.noUnit, rfl⟩⟩
  | true => simp

theorem execConfigScrub_answersIf (t off : Nat) (r : ScrubResult) (s : State) : AnswersIf (isTile t) (execConfigScrub t off r s) := by
  by_cases ht : t < 2304
  · have hcounted (l a : Nat) : Answers (execErrorEvent (.counted (.tile t) l a) s) :=
      (execErrorEvent_answersIf _ s).1 (by simp [eventExists, unitExists, ht])
    have hunit (u i : Nat) : Answers (execErrorEvent (.tileUnit t u i) s) := (execErrorEvent_answersIf _ s).1 (by simp [eventExists, ht])
    refine answersIf_check _ ?_
    (repeat' split) <;> simp [hcounted, hunit]
  · simp [AnswersIf, isTile, execConfigScrub, withTile, ht]

theorem execEnterA1_answersIf (u : PowerUnit) (s : State) : AnswersIf (isPowerUnit u) (execEnterA1 u s) := by
  cases u with
  | tile t =>
    simp only [isPowerUnit, execEnterA1]
    refine answersIf_withTile t fun x => ?_
    split <;> simp
  | level n => exact answersIf_withLevel n (answers_next _)
  | device => simp [isPowerUnit, execEnterA1]

theorem execWakeComplete_answersIf (u : PowerUnit) (s : State) : AnswersIf (isPowerUnit u) (execWakeComplete u s) := by
  cases u with
  | tile t =>
    simp only [isPowerUnit, execWakeComplete]
    refine answersIf_withTile t fun x => ?_
    split <;> simp
  | level n => exact answersIf_withLevel n (by simp)
  | device => simp [isPowerUnit, execWakeComplete]

/-- The transports of the two ports exist. -/
theorem execIdeKm_answersIf (p sess stream : Nat) (key : List Byte) (s : State) : AnswersIf (isPort p) (execIdeKm p sess stream key s) := by
  by_cases hp : p ≤ 1
  · have htr : isTransport (2 * p) = true := decide_eq_true (by omega)
    exact answersIf_withPort p ((answersIf_withSession (2 * p) sess true (by simp)).1 htr)
  · simp [AnswersIf, isPort, execIdeKm, withPort, hp]

theorem execConfigurationRequest_answersIf (p pf reg : Nat) (w : Option (BitVec 32)) (s : State) :
    AnswersIf (isPort p && decide (pf ≤ 1) && decide (reg ≤ 1023)) (execConfigurationRequest p pf reg w s) := by
  rw [Bool.and_assoc, ← Bool.decide_and]
  refine answersIf_guard _ (answersIf_unless (by omega) _ ?_)
  dsimp only
  (repeat' split) <;> simp

theorem execCollective_answers (k : Nat) (others : List (Nat × List Byte)) (s : State) : Answers (execCollective k others s) := by
  refine answers_withJob _ _ fun x j => ?_
  extract_lets
  (repeat' split) <;> exact answers_next _

/-! ## Rows of the tile whose branches are split -/

theorem execMmaComplete_answersIf (t : Nat) (s : State) : AnswersIf (isTile t) (execMmaComplete t s) := by
  simp only [execMmaComplete]
  refine answersIf_withTile t fun x => ?_
  (repeat' split) <;> simp

theorem execRunComplete_answersIf (t : Nat) (s : State) : AnswersIf (isTile t) (execRunComplete t s) := by
  simp only [execRunComplete]
  refine answersIf_withTile t fun x => ?_
  (repeat' split) <;> simp

theorem execDescriptorFetch_answersIf (t sl : Nat) (s : State) : AnswersIf (isSlot sl && isTile t) (execDescriptorFetch t sl s) := by
  simp only [execDescriptorFetch]
  refine answersIf_withSlot sl (answersIf_withTile t fun x => ?_)
  (repeat' split) <;> simp

theorem execDescriptorComplete_answersIf (t sl : Nat) (s : State) : AnswersIf (isSlot sl && isTile t) (execDescriptorComplete t sl s) := by
  simp only [execDescriptorComplete]
  refine answersIf_withSlot sl (answersIf_withTile t fun x => ?_)
  (repeat' split) <;> simp

theorem execTagWaitResume_answersIf (t sl : Nat) (s : State) : AnswersIf (isSlot sl && isTile t) (execTagWaitResume t sl s) := by
  simp only [execTagWaitResume]
  refine answersIf_withSlot sl (answersIf_withTile t fun x => ?_)
  (repeat' split) <;> simp

theorem execDeadlineMiss_answersIf (t sl : Nat) (s : State) : AnswersIf (isSlot sl && isTile t) (execDeadlineMiss t sl s) := by
  simp only [execDeadlineMiss]
  refine answersIf_withSlot sl (answersIf_withTile t fun x => ?_)
  (repeat' split) <;> simp

theorem execRecv_answersIf (t : Nat) (s : State) : AnswersIf (isTile t) (execRecv t s) := by
  simp only [execRecv]
  refine answersIf_withHead t _ _ fun x e => ?_
  (repeat' split) <;> simp

theorem execRecvPair_answersIf (t : Nat) (s : State) : AnswersIf (isTile t) (execRecvPair t s) := by
  simp only [execRecvPair]
  refine answersIf_withHead t _ _ fun x e => ?_
  (repeat' split) <;> simp

theorem execCset_answersIf (t q : Nat) (s : State) : AnswersIf (isUnitQueue q && isTile t) (execCset t q s) := by
  simp only [execCset]
  refine answersIf_withQueue q (answersIf_withHead t _ _ fun x e => ?_)
  (repeat' split) <;> simp

/-! ## Longer commands of the host -/

theorem execCopy_answers (k : Nat) (dma : List Byte) (s : State) : Answers (execCopy k dma s) := by
  simp only [execCopy]
  refine answers_withJob _ _ fun x j => ?_
  (repeat' split) <;> simp

theorem execSectionLoad_answers (k : Nat) (sigOk : Bool) (s : State) : Answers (execSectionLoad k sigOk s) := by
  simp only [execSectionLoad]
  refine answers_withJob _ _ fun x j => ?_
  (repeat' split) <;> simp

theorem execSectionLaunch_answers (k : Nat) (s : State) : Answers (execSectionLaunch k s) := by
  simp only [execSectionLaunch]
  refine answers_withJob _ _ fun x j => ?_
  (repeat' split) <;> simp

theorem execTallyMap_answers (k : Nat) (s : State) : Answers (execTallyMap k s) := by
  simp only [execTallyMap]
  refine answers_withJob _ _ fun x j => ?_
  (repeat' split) <;> simp

theorem execTallyWait_answers (k : Nat) (s : State) : Answers (execTallyWait k s) := by
  simp only [execTallyWait]
  refine answers_withJob _ _ fun x j => ?_
  (repeat' split) <;> simp

theorem execRegionProtect_answers (k : Nat) (s : State) : Answers (execRegionProtect k s) := by
  simp only [execRegionProtect]
  refine answers_withJob _ _ fun x j => ?_
  (repeat' split) <;> simp

theorem execJobOpen_answers (k : Nat) (s : State) : Answers (execJobOpen k s) := by
  simp only [execJobOpen]
  refine answers_withCmd _ _ fun x => ?_
  (repeat' split) <;> simp

theorem execJobQuery_answers (k : Nat) (s : State) : Answers (execJobQuery k s) := by
  simp only [execJobQuery]
  refine answers_withCmd _ _ fun x => ?_
  (repeat' split) <;> simp

theorem execCascadeConfig_answers (k : Nat) (s : State) : Answers (execCascadeConfig k s) := by
  simp only [execCascadeConfig]
  refine answers_withCmd _ _ fun x => ?_
  (repeat' split) <;> simp

theorem execCascadeForward_answers (k : Nat) (replies : List (Nat × Nat)) (s : State) : Answers (execCascadeForward k replies s) := by
  simp only [execCascadeForward]
  refine answers_withCmd _ _ fun x => ?_
  (repeat' split) <;> simp

/-! ## All commands -/

/-- Each command is answered as the check of its units says. -/
theorem exec_answersIf (c : Instr) (s : State) : AnswersIf c.wf (exec c s) := by
  cases c with
  | queuePointerReset u => exact execQueuePointerReset_answersIf u s
  | routeHoldRelease src dst => exact execRouteHoldRelease_answersIf src dst s
  | barrierTimeout bid => exact execBarrierTimeout_answersIf bid s
  | registerWrite p pf off v be => exact execRegisterWrite_answersIf p pf off v be s
  | thermalSample die temp => exact execThermalSample_answersIf die temp s
  | shbarReleased line => exact execShbarReleased_answersIf line s
  | errorEvent e => exact execErrorEvent_answersIf e s
  | summaryRecord u => exact execSummaryRecord_answersIf u s
  | configScrub t off r => exact execConfigScrub_answersIf t off r s
  | enterA1 u => exact execEnterA1_answersIf u s
  | wakeComplete u => exact execWakeComplete_answersIf u s
  | ideKm p sess stream key => exact execIdeKm_answersIf p sess stream key s
  | collective k others => exact (answersIf_true _).mpr (execCollective_answers k others s)
  | configurationRequest p pf reg w => exact execConfigurationRequest_answersIf p pf reg w s
  | mmaComplete t => exact execMmaComplete_answersIf t s
  | runComplete t => exact execRunComplete_answersIf t s
  | descriptorFetch t sl => exact execDescriptorFetch_answersIf t sl s
  | descriptorComplete t sl => exact execDescriptorComplete_answersIf t sl s
  | tagWaitResume t sl => exact execTagWaitResume_answersIf t sl s
  | deadlineMiss t sl => exact execDeadlineMiss_answersIf t sl s
  | recv t => exact execRecv_answersIf t s
  | recvPair t => exact execRecvPair_answersIf t s
  | cset t q => exact execCset_answersIf t q s
  | copy k dma => exact (answersIf_true _).mpr (execCopy_answers k dma s)
  | sectionLoad k sigOk => exact (answersIf_true _).mpr (execSectionLoad_answers k sigOk s)
  | sectionLaunch k => exact (answersIf_true _).mpr (execSectionLaunch_answers k s)
  | tallyMap k => exact (answersIf_true _).mpr (execTallyMap_answers k s)
  | tallyWait k => exact (answersIf_true _).mpr (execTallyWait_answers k s)
  | regionProtect k => exact (answersIf_true _).mpr (execRegionProtect_answers k s)
  | jobOpen k => exact (answersIf_true _).mpr (execJobOpen_answers k s)
  | jobQuery k => exact (answersIf_true _).mpr (execJobQuery_answers k s)
  | cascadeConfig k => exact (answersIf_true _).mpr (execCascadeConfig_answers k s)
  | cascadeForward k replies => exact (answersIf_true _).mpr (execCascadeForward_answers k replies s)
  | setFeature k | getFeature k =>
    simp only [exec, Instr.wf, execSetFeature, execGetFeature]
    refine (answersIf_true _).mpr (answers_withCmd _ _ fun x => ?_)
    (repeat' split) <;> simp
  | regionCreate k | regionDestroy k | jobClose k
  | sectionStop k | sectionCommit k | sectionSave k | sectionRestore k | tallySignal k =>
    simp only [exec, Instr.wf, execRegionCreate, execRegionDestroy, execJobClose,
      execSectionStop,
      execSectionCommit, execSectionSave, execSectionRestore, execTallySignal]
    refine (answersIf_true _).mpr (answers_withJob _ _ fun x j => ?_)
    (repeat' split) <;> simp
  | pointerEntryRead t | sendNotice n | tallyOperation n | twaitSatisfied n | barrierArrival n | barrierRelease n | workFetch n
  | workFetchReply n | bar0LevelUnitAccess p off a | resetRelease n | jobPreempt k | loadDrainDone | loadDrainTimeout | componentSwap
  | flashRewriteDone | forcedSwitch | switchDrainEnd | switchDrainTimeout | switchScanEnd | boundarySwitch | preemptWaitTimeout
  | jobRestore | restoreEnd | leaveTimeout k | supplySample v | cascadeShare w | shcmdMark | shaftRefEdge interval | jorzinAck p aseq
  | jorzinNack p aseq | replayTimeout | mrst ns | powerOff c | deliverImage img psigOk osigOk | keyExchange tr | beat
  | messageToRetiredTile n | gatePortMessage n =>
    simp only [exec, Instr.wf, execPointerEntryRead, execSendNotice, execTallyOperation, execTwaitSatisfied, execBarrierArrival,
      execBarrierRelease, execWorkFetch,
      execWorkFetchReply, execBar0LevelUnitAccess, execResetRelease, execJobPreempt, execLoadDrainDone, execLoadDrainTimeout,
      execComponentSwap, execFlashRewriteDone, execForcedSwitch, execSwitchDrainEnd, execSwitchDrainTimeout, execSwitchScanEnd,
      execBoundarySwitch, execPreemptWaitTimeout, execJobRestore, execRestoreEnd, execLeaveTimeout, execSupplySample, execCascadeShare,
      execShcmdMark, execShaftRefEdge, execJorzinAck, execJorzinNack, execReplayTimeout, execMrst, execPowerOff, execDeliverImage,
      execKeyExchange, execBeat, execMessageToRetiredTile, execGatePortMessage]
    (repeat' split) <;> simp
  | mark t q | cget t q | accsw t | strm t | strw t | wgbIdleFlush t line | recvFree t | twait t q | barr t q | bwait t q | wfetch t
  | tileFinished t =>
    simp [exec, Instr.wf, execMark, execCget, execAccsw, execStrm, execStrw, execWgbIdleFlush, execRecvFree, execTwait, execBarr,
      execBwait, execWfetch,
      execTileFinished]
  | dataMessage n | contribution n | spill t q | noProgressTimeout t | sqTailDoorbell p q v | cqHeadDoorbell p q v
  | sqCfgWrite p q v be | cqCfgWrite p q v be | packetTake p q bytes | cqReplyWrite p q | cqCoalesceTimeout p q | bar2Access p off a =>
    simp [exec, Instr.wf, execDataMessage, execContribution, execSpill, execNoProgressTimeout, execSqTailDoorbell, execCqHeadDoorbell,
      execSqCfgWrite,
      execCqCfgWrite, execPacketTake, execCqReplyWrite, execCqCoalesceTimeout, execBar2Access]
  | hostFifoWrite p bytes | nop k | identify k | getStatus k | reset k | fill k | frameRecord | commandRecordWrite
  | commandRecordBcast | commandRecordWait | loadWaitTimeout | sectionStart k =>
    simp [exec, Instr.wf, execHostFifoWrite, execNop, execIdentify, execGetStatus, execReset, execFill, execFrameRecord,
      execCommandRecordWrite,
      execCommandRecordBcast, execCommandRecordWait, execLoadWaitTimeout, execSectionStart]
  | barrierDefine k | streamSubmit k | hostfifoConfig k | powerCeiling k | powerQuery k watts | meterRead k | meterRecords k
  | updateComponent k pkg psigOk osigOk | attest k | debugUnlock k token sigOk | telemetry k | errlogRead k =>
    simp [exec, Instr.wf, execBarrierDefine, execStreamSubmit, execHostfifoConfig, execPowerCeiling, execPowerQuery, execMeterRead,
      execMeterRecords,
      execUpdateComponent, execAttest, execDebugUnlock, execTelemetry, execErrlogRead]
  | selftest k failed | tileRetire k | retrain k | rampWindow | brownoutEnd | thermalRestoreStep | cascadeDemand d w | shareTimeout
  | resetCascade | shcmdHalt | throttle | freezeLog =>
    simp [exec, Instr.wf, execSelftest, execTileRetire, execRetrain, execRampWindow, execBrownoutEnd, execThermalRestoreStep,
      execCascadeDemand,
      execShareTimeout, execResetCascade, execShcmdHalt, execThrottle, execFreezeLog]
  | shcmdBarrierRelease lines | resume | shfltAsserted | shackReleased | shaftTick | shaftRefTimeout | shclkLoss | cascadeReady
  | deviceLoss d | deviceJoin d | jorzinFrame p f crcOk | jorzinCredit p c0 c1 c2 =>
    simp [exec, Instr.wf, execShcmdBarrierRelease, execResume, execShfltAsserted, execShackReleased, execShaftTick, execShaftRefTimeout,
      execShclkLoss,
      execCascadeReady, execDeviceLoss, execDeviceJoin, execJorzinFrame, execJorzinCredit]
  | jorzinAckTimeout p | portRetrainEnd p ok | jorzinRouteHoldRelease d | flashCountWrite | scrubberCrcCheck n ok | lockstepMismatch n
  | lcHeartbeat n seen | lcReloadWatchdog n | hubWatchdogExpiry | enterS1 t | enterS2 n | enterS3 =>
    simp [exec, Instr.wf, execJorzinAckTimeout, execPortRetrainEnd, execJorzinRouteHoldRelease, execFlashCountWrite, execScrubberCrcCheck,
      execLockstepMismatch, execLcHeartbeat, execLcReloadWatchdog, execHubWatchdogExpiry, execEnterS1, execEnterS2, execEnterS3]
  | por b | perstAssert p | perstRelease p refclk | hotReset p | flrPf0 p | flrPf1 p | linkDown p | linkUp p | failoverTimeout p
  | getChallenge | takeOwnership m owner | getVersion tr =>
    simp [exec, Instr.wf, execPor, execPerstAssert, execPerstRelease, execHotReset, execFlrPf0, execFlrPf1, execLinkDown, execLinkUp,
      execFailoverTimeout,
      execGetChallenge, execTakeOwnership, execGetVersion]
  | getCapabilities tr | negotiateAlgorithms tr offered | getDigests tr | getCertificate tr slot | challenge tr slot nonce
  | getMeasurements tr index | finish tr sess macOk | heartbeat tr sess | keyUpdate tr sess | endSession tr sess
  | unsupportedRequest tr code | rngReseed =>
    simp [exec, Instr.wf, execGetCapabilities, execNegotiateAlgorithms, execGetDigests, execGetCertificate, execChallenge,
      execGetMeasurements, execFinish,
      execHeartbeat, execKeyUpdate, execEndSession, execUnsupportedRequest, execRngReseed]
  | rngHealthFailure | assaySample uj mv | own | switch | restore | free | close | interval | brown | read first count | assayLinkLost
  | assayPowerLoss =>
    simp [exec, Instr.wf, execRngHealthFailure, execAssaySample, execOwn, execSwitch, execRestore, execFree, execClose, execInterval,
      execBrown, execRead,
      execAssayLinkLost, execAssayPowerLoss]
  | sealOpen | powerOn | mrstRelease b | shfltReleased | shclkReturn | coolantInletTemperature above30 | sealSwitchClosed
  | assayDieStarted | jorzinPortTrained p dev fport pith | alertStatusRead | dispatch t | mma t =>
    simp [exec, Instr.wf, execSealOpen, execPowerOn, execMrstRelease, execShfltReleased, execShclkReturn, execCoolantInletTemperature,
      execSealSwitchClosed,
      execAssayDieStarted, execJorzinPortTrained, execAlertStatusRead, execDispatch, execMma]
  | mmaz t | vrun t | vscan t | send t | comb t | tadd t q | tdec t q | setPolicy m cosign keys | setFloor m floors
  | releaseOwnership m | calibrationConstantWrite n v authOk | afReplace digest authOk =>
    simp [exec, Instr.wf, execMmaz, execVrun, execVscan, execSend, execComb, execTadd, execTdec, execSetPolicy, execSetFloor,
      execReleaseOwnership,
      execCalibrationConstantWrite, execAfReplace]
  | reseal authOk =>
    simp [exec, Instr.wf, execReseal]

/-- Settles O3: a row's own checks are those of `Instr.wf`. -/
theorem wellFormedCommandsComplete : Obligations.WellFormedCommandsComplete := by
  intro c s
  obtain ⟨hnext, hfault⟩ := exec_answersIf c s
  cases hc : c.wf with
  | true =>
    obtain ⟨u, hu⟩ := hnext hc
    exact ⟨by simp [hu], nofun, by simp [hu]⟩
  | false =>
    obtain ⟨f, hf⟩ := hfault hc
    exact ⟨by simp [hf], fun _ => ⟨f, hf⟩, by simp [hf]⟩

end Sys2Proof.Machine

/-! PROOF. The step takes the front command; the state at reset. -/

namespace Sys2Proof.Machine

/-- Settles O1. -/
theorem stepTakesTheFrontCommand : Obligations.StepTakesTheFrontCommand :=
  ⟨fun _ _ _ => rfl, fun s h => by simp [step, h]⟩

/-- A scratchpad without an entry of its own reads 0 at reset, where no tile is substituted. -/
theorem memByte_padBase_reset {t o : Nat} (ht : t < 2304) (ho : o < 0x200000) : memByte State.reset (padBase t + o) = 0 := by
  have hpad : isPad (padBase t + o) = true := decide_eq_true (by simp only [padBase, padTop]; omega)
  have hidx : (padBase t + o - 0x080000000000) / 0x200000 = t ∧ (padBase t + o - 0x080000000000) % 0x200000 = o := by
    simp only [padBase]
    omega
  obtain ⟨hdiv, hmod⟩ := hidx
  have haddr : memAddr State.reset (padBase t + o) = padBase t + o := by
    simp only [memAddr, hpad, if_true, hdiv, hmod]
    rfl
  have hzero : memZero State.reset (padBase t + o) = true := by simp [memZero, hpad]
  simp only [memByte, haddr, memDefault, hzero, if_true]
  rfl

/-- Settles O5, each fact from the reset state's own fields. -/
theorem resetState : Obligations.ResetState := by
  refine ⟨rfl, fun t o => memByte_padBase_reset, fun t => ⟨rfl, rfl, rfl, rfl, rfl⟩, rfl, ?_, ?_, rfl, rfl, rfl⟩
  · decide +kernel
  · decide +kernel

end Sys2Proof.Machine

/-! PROOF. SPDM requests in their turn; the Assay die's seal, losses and calibration. -/

namespace Sys2Proof.Machine

section
variable {s : State} {tr : Nat} (htr : tr ≤ 4) (hup : spdmUp s tr = true)
include htr hup

/-- A request in its turn is answered by its own row. -/
theorem withSpdm_of_ready {ready : Bool} (f : Outcome) (h : ready = true) : withSpdm s tr ready f = f := by
  simp [withSpdm, hup, h, Nat.not_lt.mpr htr]

/-- A request out of its turn answers an error and changes nothing else. -/
theorem withSpdm_of_not_ready {ready : Bool} (f : Outcome) (h : ready = false) :
    withSpdm s tr ready f = .next (spdmAnswer s tr spdmUnexpected []) := by
  simp [withSpdm, hup, h, Nat.not_lt.mpr htr]

theorem withSession_of_session {i : Nat} {x : Session} {finished : Bool} (f : Outcome) (hx : sessionOf s tr i = some x)
    (h : x.finished = finished) : withSession s tr i finished f = f :=
  withSpdm_of_ready htr hup f (by simp [hx, h])

/-- The requests that need the negotiation done. -/
theorem spdm_after_negotiation (hn : tr ∈ s.sec.negotiated) :
    exec (.getDigests tr) s = .next (spdmAnswer s tr 0 (chainDigest s)) ∧
    exec (.getCertificate tr 0) s = .next (spdmAnswer s tr 0 (chainBytes s)) ∧
    (∀ nonce, s.sec.rngWait = false → exec (.challenge tr 0 nonce) s = .next (bumpFresh (drawn
      (spdmAnswer s tr 0 (let b := chainDigest s ++ drawBytes s 32 ++ slice nonce 0 32; b ++ signed s b)) 4))) ∧
    exec (.getMeasurements tr 0) s = .next (spdmAnswer s tr 0 [16]) ∧
    exec (.getMeasurements tr 255) s = .next (spdmAnswer s tr 0 (measurements s)) ∧
    (∀ i, 1 ≤ i → i ≤ 16 → exec (.getMeasurements tr i) s = .next (spdmAnswer s tr 0 (measurement s i))) ∧
    (∀ i, freeSession s tr = some i → s.sec.rngWait = false → exec (.keyExchange tr) s = .next (bumpFresh (drawn (spdmAnswer
      (modSec s fun e => { e with sessions := e.sessions ++ [{ tr := tr, id := i, finished := false, keygen := 0 }] })
      tr 0 (leBytes 4 i ++ drawBytes s 128 ++ signed s (leBytes 4 i ++ drawBytes s 128))) 16))) := by
  have hready : isReady s tr = true := by simp [isReady, hn]
  have hrow (f : Outcome) : withSpdm s tr (isReady s tr) f = f := withSpdm_of_ready htr hup f hready
  refine ⟨hrow _, hrow _, fun nonce hr => ?_, hrow _, hrow _, fun i h1 h16 => ?_, fun i hi hr => ?_⟩
  · exact (hrow _).trans (by simp [hr])
  · have h0 : i ≠ 0 ∧ i ≠ 255 := by omega
    exact (hrow _).trans (by simp [h0, h16])
  · exact (hrow _).trans (by simp [hi, hr])

/-- The requests of a finished session. -/
theorem spdm_in_finished_session {i : Nat} {x : Session} (hx : sessionOf s tr i = some x) (hfin : x.finished = true) :
    exec (.heartbeat tr i) s = .next (spdmAnswer s tr 0 []) ∧
    exec (.keyUpdate tr i) s = .next (spdmAnswer (modSession s tr i fun x => { x with keygen := x.keygen + 1 }) tr 0 []) ∧
    exec (.endSession tr i) s = .next (spdmAnswer (endSession s tr i) tr 0 []) ∧
    (∀ p stream key, p ≤ 1 → tr = 2 * p → stream ≤ 2 → exec (.ideKm p i stream key) s =
      .next (spdmAnswer (modPort s p fun x => { x with ide := arrPut x.ide stream key false }) tr 0 [])) := by
  have hrow (f : Outcome) : withSession s tr i true f = f := withSession_of_session htr hup f hx hfin
  refine ⟨hrow _, hrow _, hrow _, fun p stream key hp htrp hstream => ?_⟩
  subst htrp
  have hide : ¬ 2 < stream := Nat.not_lt.mpr hstream
  calc exec (.ideKm p i stream key) s
    _ = withPort p (withSession s (2 * p) i true _) := rfl
    _ = _ := by simp [withPort, hp, hrow, hide]

end

/-- Settles O53, request by request. -/
theorem spdmRequestsAnswerInTurn : Obligations.SpdmRequestsAnswerInTurn := by
  intro s tr htr hup
  have hrow {ready : Bool} (h : ready = true) (f : Outcome) : withSpdm s tr ready f = f := withSpdm_of_ready htr hup f h
  refine ⟨hrow rfl _, fun code => hrow rfl _, fun hv => hrow (by simpa using hv) _, fun hc offered hall => ?_, fun hn => ?_,
    spdm_after_negotiation htr hup, fun i x hx => ⟨fun hnew => ?_, spdm_in_finished_session htr hup hx⟩⟩
  · have hoffers : (List.range 4).all offered.contains = true := by simpa using hall
    exact (hrow (by simpa using hc) _).trans (if_pos hoffers)
  · exact withSpdm_of_not_ready htr hup _ (by simpa [isReady] using hn)
  · exact ⟨withSession_of_session htr hup _ hx hnew, withSession_of_session htr hup _ hx hnew⟩

section
variable {s : State} (hrun : s.assay.running = true)
include hrun

theorem calibrate_of_good {ok : Bool} (hok : ok = true) (f : Assay → Assay) (code datum : Nat) :
    calibrate s ok f code datum =
      .next { s with assay := eventRec { f s.assay with hallmark := s.assay.hallmark + 1 } code datum } := by
  simp [calibrate, hrun, hok]

/-- A calibration command that does nothing is counted as event 0x07. -/
theorem calibrate_of_bad {ok : Bool} (hok : ok = false) (f : Assay → Assay) (code datum : Nat) :
    calibrate s ok f code datum = .next { s with assay := { eventRec s.assay 7 (s.assay.ignored + 1) with ignored := 0 } } := by
  simp [calibrate, ignoredCommand, hrun, hok]

end

/-- Settles O55, row by row. -/
theorem assaySealAndCalibration : Obligations.AssaySealAndCalibration := by
  intro s a
  refine ⟨rfl, fun hstop => ?_, fun hrun => ⟨?_, ?_, fun hclosed => ?_, fun hopen => ⟨fun n v => ?_, fun d => ?_⟩,
    fun hclosed => ⟨?_, fun n v ok => ?_⟩, fun n v => ?_⟩⟩
  · simp [exec, execAssayDieStarted, a, show s.assay.running = false from hstop]
  · intro b hlink
    simp [exec, execAssayLinkLost, a, b, show s.assay.running = true from hrun, show s.assay.lostLink = false from hlink]
  · simp [exec, execAssayPowerLoss, a, show s.assay.running = true from hrun]
  · simp [exec, execSealOpen, a, show s.assay.running = true from hrun, show s.assay.sealOpen = false from hclosed]
  · exact calibrate_of_good hrun hopen (fun a => { a with consts := arrPut a.consts n v false }) 4 n
  · exact calibrate_of_good hrun hopen (fun a => { a with af := d }) 5 _
  · exact calibrate_of_good hrun (by simp [show s.assay.sealOpen = false from hclosed]) (fun a => { a with marked := false }) 3 0
  · exact calibrate_of_bad hrun (by simp [show s.assay.sealOpen = false from hclosed])
      (fun a => { a with consts := arrPut a.consts n v false }) 4 n
  · exact calibrate_of_bad hrun rfl (fun a => { a with consts := arrPut a.consts n v false }) 4 n

end Sys2Proof.Machine

/-! PROOF. The Banksman's ceiling, ramp windows and shares; supply and heat (16 R380 to R395). -/

namespace Sys2Proof.Machine

/-- POWER_CEILING by scope and value. -/
theorem exec_powerCeiling {s : State} {k : Nat} {x : Packet} (h : Taken s k 0x0700 x) :
    let c := pfld x 0x10 4
    let n := ((List.range 64).filter (inMembers s)).length
    (c % 5 ≠ 0 → exec (.powerCeiling k) s = .next (refuse s k stBadParam 0x10)) ∧
    (pfld x 0x14 1 = 0 → c < 1000 ∨ 3200 < c ∨ (c = 3200 ∧ s.power.inlet = true) →
      exec (.powerCeiling k) s = .next (refuse s k stBadParam 0x10)) ∧
    (pfld x 0x14 1 = 0 → c % 5 = 0 → 1000 ≤ c → c ≤ 3200 → (c = 3200 → s.power.inlet = false) →
      exec (.powerCeiling k) s = .next (replyOk (afterCeiling (early s x) fun p => { p with ceil := c }) k 0 0)) ∧
    (pfld x 0x14 1 = 1 → s.casc.pith = true → c % 5 = 0 → 1000 * n ≤ c → c ≤ 3200 * n →
      exec (.powerCeiling k) s = .next (replyOk (modPower (early s x) fun p => { p with casc := some c }) k 0 0)) := by
  have hrow := withCmd_of_taken h
  intro c n
  refine ⟨fun h5 => (hrow _).trans ?_, fun hdev hout => (hrow _).trans ?_, fun hdev h5 hlo hhi hinlet => (hrow _).trans ?_,
    fun hcasc hpith h5 hlo hhi => (hrow _).trans ?_⟩
  · exact if_pos h5
  · simp only [c] at hout
    simp [hdev, badField, hout]
  · have hin : ¬ (c < 1000 ∨ c > 3200 ∨ (c = 3200 ∧ s.power.inlet)) := by
      rintro (hc | hc | ⟨hc, hi⟩)
      · omega
      · omega
      · simp [hinlet hc] at hi
    simp only [c] at h5 hin
    simp [hdev, h5, hin, c]
  · have hin : ¬ (c < 1000 * n ∨ c > 3200 * n) := by omega
    simp only [c, n] at h5 hin
    simp [hcasc, hpith, h5, hin, c]

/-- Settles O44, row by row. -/
theorem banksmanCeilingAndShares : Obligations.BanksmanCeilingAndShares := by
  refine ⟨fun s k x h => exec_powerCeiling h, fun s k w x h => withCmd_of_taken h _, fun s hon => ?_, fun s b => rfl,
    fun s d w hon => ⟨fun hpith hd h63 hin => ?_, fun hpith => ?_, fun hpith hd hready => ?_, fun c hpith hc => ?_, fun hmay => ?_⟩⟩
  · simp [exec, execRampWindow, hon]
  · simp [exec, execCascadeDemand, hon, hpith, hd, hin, Nat.not_lt.mpr h63]
  · simp [exec, execCascadeShare, hon, hpith]
  · simp [exec, execCascadeDemand, hon, hpith, hd, hready]
  · simp [exec, execCascadeShare, hon, hpith, hc]
  · have hgo : (s.casc.pith && s.power.casc.isNone) = false := by
      rcases hmay with hp | hc
      · simp [hp]
      · cases hcc : s.power.casc <;> simp_all
    simp [exec, execShareTimeout, hon, hgo]

/-- A sample of a module in service. -/
theorem exec_supplySample_on {s : State} (v : Nat) (hon : s.module = .on) :
    (400 ≤ v → v ≤ 440 → exec (.supplySample v) s = .next (powerFail (modPower s fun p => { p with last := some v }))) ∧
    (v < 400 → exec (.supplySample v) s = .next { powerFail (modPower s fun p => { p with last := some v }) with module := .off }) ∧
    (440 < v → s.power.brown = false → (feature s 4 ≤ v ∨ s.power.last.any (fun u => decide (u < feature s 4)) = false) →
      exec (.supplySample v) s = .next (modPower s fun p => { p with last := some v })) ∧
    (440 < v → s.power.brown = false → v < feature s 4 → (∀ u, s.power.last = some u → u < feature s 4 →
      exec (.supplySample v) s = .next (modPower (notify (signalBoth (plainRecord
        { modPower s (fun p => { p with brown := true, lowest := min v u }) with alert := true } 0x0C stCorrected 0 9 (min v u) []) 1019)
        (.brown true (feature s 4) (shaftCount s))) fun p => { p with last := some v }))) ∧
    (440 < v → s.power.brown = true → exec (.supplySample v) s =
      .next (modPower (modPower s fun p => { p with lowest := min p.lowest v }) fun p => { p with last := some v })) := by
  refine ⟨fun hlo hhi => ?_, fun hlo => ?_, fun hv hb hok => ?_, fun hv hb hwarn u hu hlast => ?_, fun hv hb => ?_⟩
  · simp [exec, execSupplySample, hon, hhi, convertersAt, Nat.not_lt.mpr hlo]
  · have hhi : v ≤ 440 := by omega
    simp [exec, execSupplySample, hon, hhi, convertersAt, hlo]
  · have hno : ¬ (v < feature s 4 ∧ s.power.last.any (fun u => decide (u < feature s 4)) = true) := by
      rintro ⟨hlt, hany⟩
      rcases hok with hge | hnone
      · omega
      · simp [hnone] at hany
    simp only [exec, execSupplySample, hon]
    rw [if_neg (Nat.not_le.mpr hv), if_neg (by simp), if_neg (by simp [hb]), if_neg hno]
  · simp [exec, execSupplySample, hon, hb, enterHold, hu, hlast, hwarn, Nat.not_le.mpr hv]
  · simp [exec, execSupplySample, hon, hb, Nat.not_le.mpr hv]

/-- BROWNOUT_END at the recovery level. -/
theorem exec_brownoutEnd {s : State} (hon : s.module = .on) (hb : s.power.brown = true)
    (hrec : ∀ v, s.power.last = some v → feature s 4 + 10 ≤ v) :
    exec .brownoutEnd s = .next (restoreNow (notify (signalBoth
      (modPower s fun p => { p with brown := false, eBrown := holdE p, excursions := p.excursions + 1 }) 1019)
      (.brown false (feature s 4) (shaftCount s)))) := by
  have hlow : s.power.last.any (fun v => decide (v < feature s 4 + 10)) = false := by
    cases hl : s.power.last with
    | none => rfl
    | some v => simpa using hrec v hl
  simp [exec, execBrownoutEnd, hon, hb, hlow]

@[simp] theorem signalBoth_power (s : State) (vec : Nat) : (signalBoth s vec).power = s.power := by
  obtain ⟨m, hm⟩ := signalBoth_frame s vec
  simp [hm]

/-- The restoration gives the one Level that is due its step where the headroom covers it. -/
theorem heatNow_of_one {s : State} {n : Nat} (hdue : s.power.heatDue = [n]) (hroom : grantedOn s.power n ≤ 16 * headroom s)
    (hlow : s.power.eHeat.getD n 16 < forceE s.power) :
    (heatNow s).power.eHeat = modAt s.power.eHeat n (· + 1) ∧ (heatNow s).power.heatDue = [] := by
  have hstep : heatStep (headroom s) (s.power, 0) n =
      ({ s.power with eHeat := modAt s.power.eHeat n (· + 1), heatDue := [] }, grantedOn s.power n) := by
    unfold heatStep
    rw [if_pos (by simpa using ⟨hroom, hlow⟩)]
    simp [hdue]
  unfold heatNow
  simp only [hdue, List.foldl_cons, List.foldl_nil, hstep]
  split <;> simp [modPower]

/-- Settles O45, row by row; a restore step goes through `heatNow_of_one`. -/
theorem supplyAndHeatForceStretching : Obligations.SupplyAndHeatForceStretching := by
  refine ⟨fun s v hheld => ⟨fun hlo => ?_, fun hlo => ?_⟩, fun s v hon => exec_supplySample_on v hon,
    fun s hon hb hrec => exec_brownoutEnd hon hb hrec, fun s die temp hdie => ?_, fun s hon hheat hcool => ?_⟩
  · simp [exec, execSupplySample, hheld, convertersAt, Nat.not_lt.mpr hlo]
  · simp [exec, execSupplySample, hheld, convertersAt, hlo]
  · have hdie' : ¬ 8 < die := Nat.not_lt.mpr hdie
    refine ⟨fun hoff htrip => ?_, fun hon hcool => ?_, fun hon hhot htrip hheat => ?_, fun hon hhot htrip hheat => ?_⟩
    · simp [exec, execThermalSample, hdie', hoff, htrip]
    · have h : ¬ 105 ≤ temp ∧ ¬ 120 ≤ temp := by omega
      simp [exec, execThermalSample, hdie', hon, h]
    · simp [exec, execThermalSample, hdie', hon, hhot, hheat, Nat.not_le.mpr htrip]
    · simp [exec, execThermalSample, hdie', hon, hhot, hheat, Nat.not_le.mpr htrip]
  · intro p up u hup
    refine ⟨?_, fun n hn hroom => heatNow_of_one hn hroom ?_⟩
    · have hne : up.isEmpty = false := by simpa using hup
      have hgo : ¬ (s.module ≠ .on ∨ (!p.heat) = true ∨ hotNow p = true ∨ up.isEmpty = true) := by
        simp [p, hon, hheat, hcool, hne]
      exact if_neg hgo
    · have hmem : n ∈ up := by simp [hn]
      exact of_decide_eq_true (List.mem_filter.mp hmem).2

end Sys2Proof.Machine

/-! PROOF. Updates, ownership, delivered images and the random generator (20 R458 to R478). -/

namespace Sys2Proof.Machine

/-- The checks of UPDATE_COMPONENT in order, for a package of good form. -/
theorem exec_updateComponent {s : State} {k : Nat} {x : Packet} (pkg : List Byte) (p o : Bool) (h : Taken s k 0x0900 x)
    (hnone : s.sec.update = none) :
    let len := pfld x 0x18 4
    let c := pfld x 0x1C 1
    let h := slice pkg 0 4096
    let body := slice pkg 4096 (len - 4096)
    4096 ≤ len → len ≤ 4096 + 12582912 → c ≤ 9 → imageHeaderOk h = true →
    ((p = false ∨ (needsCosign s = true ∧ o = false)) → exec (.updateComponent k pkg p o) s = .next (refuse s k stSignature 0)) ∧
    (p = true → (needsCosign s = true → o = true) → manifestOk s h body c = true →
      (entrySvn h c < floorOf s c → exec (.updateComponent k pkg p o) s = .next (refuse s k stRollback 0)) ∧
      (floorOf s c ≤ entrySvn h c → exec (.updateComponent k pkg p o) s = .next (signalBoth
        (modSec (modPacket (accept s k 0) k fun y => { y with sent := true }) fun e => { e with
          update := some { ticket := k, comp := c, body := body, header := h, osig := o, swapped := false } }) 1022))) := by
  intro len c h body hlo hhi hc hheader
  have hlen : ¬ (len < 4096 ∨ len > 4096 + 12582912) := by omega
  have hrow := withCmd_of_taken ‹Taken s k 0x0900 x›
  refine ⟨fun hbad => (hrow _).trans ?_, fun hp hco hman => ⟨fun hlow => (hrow _).trans ?_, fun hok => (hrow _).trans ?_⟩⟩
  · have hsig : (!p) = true ∨ (needsCosign s = true ∧ (!o) = true) := by simpa using hbad
    simp only [hnone]
    rw [if_neg (by simp), if_neg hlen, if_neg (Nat.not_lt.mpr hc), if_neg (by simpa using hheader), if_pos hsig]
  all_goals
    have hsig : ¬ ((!p) = true ∨ (needsCosign s = true ∧ (!o) = true)) := by simpa [hp] using hco
    simp only [hnone]
    rw [if_neg (by simp), if_neg hlen, if_neg (Nat.not_lt.mpr hc), if_neg (by simpa using hheader), if_neg hsig,
      if_neg (by simpa using hman)]
  · rw [if_pos hlow]
  · rw [if_neg (Nat.not_lt.mpr hok)]

section
variable {s : State} (hon : s.module = .on) {m : SignedMsg}
include hon

theorem mctpUp_of_on : mctpUp s = true := by simp [mctpUp, hon]

theorem signedMessage_of_bad_signature (permitted : Bool) (f : State → State) (h : m.sigOk = false ∨ m.keyid ≠ Config.deviceKeyId) :
    signedMessage s m permitted f = .next (mgmtAnswer s 1 []) := by
  have hbad : (!m.sigOk) = true ∨ m.keyid ≠ Config.deviceKeyId := by simpa using h
  simp only [signedMessage, mctpUp_of_on hon]
  rw [if_neg (by simp), if_pos hbad]

variable (hsig : m.sigOk = true) (hkey : m.keyid = Config.deviceKeyId)
include hsig hkey

theorem signedMessage_of_other_challenge (permitted : Bool) (f : State → State) (h : s.sec.mctpNonce ≠ some m.challenge) :
    signedMessage s m permitted f = .next (mgmtAnswer s 2 []) := by
  simp [signedMessage, mctpUp_of_on hon, hsig, hkey, h]

variable (hnonce : s.sec.mctpNonce = some m.challenge)
include hnonce

theorem signedMessage_of_permitted {permitted : Bool} (f : State → State) (h : permitted = true) :
    signedMessage s m permitted f = .next (mgmtAnswer (f (modSec s fun e => { e with mctpNonce := none })) 0 []) := by
  simp [signedMessage, mctpUp_of_on hon, hsig, hkey, hnonce, h]

theorem signedMessage_of_not_permitted {permitted : Bool} (f : State → State) (h : permitted = false) :
    signedMessage s m permitted f = .next (mgmtAnswer (modSec s fun e => { e with mctpNonce := none }) 3 []) := by
  simp [signedMessage, mctpUp_of_on hon, hsig, hkey, hnonce, h]

/-- A change of the owner's record, once a device is owned. -/
theorem ownerChange_of_permitted {permitted : Bool} {r : FloorRec} (f : FloorRec → FloorRec) (hfloor : s.sec.floor = some r)
    (howned : r.owner ≠ []) (h : permitted = true) :
    ownerChange s m permitted f = .next (mgmtAnswer (writeFloor (modSec s fun e => { e with mctpNonce := none }) (f r)) 0 []) := by
  have hown : owned s = true := by simp [owned, hfloor, howned]
  rw [ownerChange, signedMessage_of_permitted hon hsig hkey hnonce _ (by simp [hown, h])]
  simp [modSec, hfloor]

end

/-- A free device takes the new owner into its floor record. -/
theorem exec_takeOwnership (s : State) (m : SignedMsg) (owner : List Byte) :
    exec (.takeOwnership m owner) s = signedMessage s m (!owned s) fun u => writeFloor u { (s.sec.floor.getD
      { floors := imageSvns s, owner := [], cosign := false, keys := [], counter := 0 }) with owner := owner } := rfl

/-- TAKE_OWNERSHIP, SET_POLICY, SET_FLOOR and RELEASE_OWNERSHIP with a good signature. -/
theorem exec_signed_with_floor {s : State} {m : SignedMsg} {f : FloorRec} (hon : s.module = .on) (hsig : m.sigOk = true)
    (hkey : m.keyid = Config.deviceKeyId) (hfloor : s.sec.floor = some f) :
    let u := modSec s fun e => { e with mctpNonce := none }
    (∀ owner, s.sec.mctpNonce ≠ some m.challenge → exec (.takeOwnership m owner) s = .next (mgmtAnswer s 2 [])) ∧
    (s.sec.mctpNonce = some m.challenge →
      (∀ owner, f.owner = [] → exec (.takeOwnership m owner) s = .next (mgmtAnswer (writeFloor u { f with owner := owner }) 0 [])) ∧
      (∀ owner, f.owner ≠ [] → exec (.takeOwnership m owner) s = .next (mgmtAnswer u 3 [])) ∧
      (f.owner ≠ [] → s.jobs = [] →
        (∀ b keys, keys.length ≤ 8 →
          exec (.setPolicy m b keys) s = .next (mgmtAnswer (writeFloor u { f with cosign := b, keys := keys }) 0 [])) ∧
        (∀ fl, exec (.setFloor m fl) s = .next (mgmtAnswer (writeFloor u { f with
          floors := (List.range 11).map fun c => max (max (f.floors.getD c 0) (fl.getD c 0)) (entrySvn (flashHeader s) c) }) 0 [])) ∧
        exec (.releaseOwnership m) s = .next (mgmtAnswer (writeFloor u { f with owner := [], cosign := false, keys := [] }) 0 []))) := by
  refine ⟨fun owner h => ?_, fun hn => ⟨fun owner hfree => ?_, fun owner hown => ?_,
    fun hown hjobs => ⟨fun b keys hk => ?_, fun fl => ?_, ?_⟩⟩⟩
  · rw [exec_takeOwnership, signedMessage_of_other_challenge hon hsig hkey _ _ h]
  · rw [exec_takeOwnership, signedMessage_of_permitted hon hsig hkey hn _ (by simp [owned, hfloor, hfree]), hfloor]
    rfl
  · rw [exec_takeOwnership, signedMessage_of_not_permitted hon hsig hkey hn _ (by simp [owned, hfloor, hown])]
  · exact ownerChange_of_permitted hon hsig hkey hn (fun r => { r with cosign := b, keys := keys }) hfloor hown (by simp [hjobs, hk])
  · exact ownerChange_of_permitted hon hsig hkey hn (fun r => { r with
      floors := (List.range 11).map fun c => max (max (r.floors.getD c 0) (fl.getD c 0)) (entrySvn (flashHeader s) c) }) hfloor hown rfl
  · exact ownerChange_of_permitted hon hsig hkey hn (fun r => { r with owner := [], cosign := false, keys := [] }) hfloor hown
      (by simp [hjobs])

/-- COMPONENT_SWAP at the quiescent point and FLASH_REWRITE_DONE. -/
theorem exec_swap_and_rewrite {s : State} {u : Update} (hup : s.sec.update = some u) (hon : s.module = .on) :
    (u.swapped = false → u.comp ≠ 0 → quiescent s u.comp = true → exec .componentSwap s = .next (signalBoth { modSec s (fun e => { e with
      update := some { u with swapped := true }
      running := splice (runningManifest s) (80 * u.comp) (entryBytesOf u.header u.comp)
      sessions := []
      certGen := e.certGen + 1 }) with
      power := if u.comp = 8 then { s.power with quiet := 2 } else s.power } 1022)) ∧
    (u.swapped = true ∨ u.comp = 0 → exec .flashRewriteDone s =
      .next (signalBoth (replyOk (modSec (applyUpdate s u) fun e => { e with update := none }) u.ticket 0 0) 1022)) := by
  refine ⟨fun hs hc hq => ?_, fun hs => ?_⟩
  · simp [exec, execComponentSwap, hup, hon, hs, hc, hq]
  · have hgo : ¬ (u.swapped = false ∧ u.comp ≠ 0) := by
      rcases hs with hs | hs <;> simp [hs]
    simp only [exec, execFlashRewriteDone, hup]
    rw [if_neg (by simpa [hon] using hgo)]

/-- Settles O52, message by message. -/
theorem firmwareAndOwnershipChange : Obligations.FirmwareAndOwnershipChange := by
  refine ⟨fun s k x pkg p o h hnone => exec_updateComponent pkg p o h hnone, fun s u hup hon => exec_swap_and_rewrite hup hon,
    fun s hon => ⟨fun hr => ?_, fun m owner hbad => ?_,
      fun m f hsig hkey hfloor => exec_signed_with_floor hon hsig hkey hfloor⟩,
    fun s img p o hon hnone hready hjobs => ⟨fun hcode => ?_, fun hcode => ?_⟩, fun s => rfl,
        fun s hon hfatal => ⟨fun hf => ?_, fun hf => ?_⟩⟩
  · simp [exec, execGetChallenge, mctpUp_of_on hon, hr]
  · rw [exec_takeOwnership, signedMessage_of_bad_signature hon _ _ hbad]
  · simp [exec, execDeliverImage, hon, hnone, hready, hjobs, hcode]
  · simp [exec, execDeliverImage, hon, hnone, hready, hjobs, hcode]
  · have hfew : ¬ 3 ≤ s.sec.rngFails + 1 := by omega
    simp [exec, execRngHealthFailure, modSec, hon, hfew]
  · have hthree : 3 ≤ s.sec.rngFails + 1 := by omega
    simp [exec, execRngHealthFailure, modSec, hon, hfatal, hthree]

end Sys2Proof.Machine

/-! PROOF. Error events are counted and acted on; scrubbers and watchers (18 R424 to R442). -/

namespace Sys2Proof.Machine

/-- A counted event leaves the message alone, and what is due is the event itself. -/
theorem meetFault_counted (s : State) (u : CountUnit) (loc1 addr : Nat) :
    let e := FaultEvent.counted u loc1 addr
    meetFault s e = if actionsWait s && !actsAtOnce s e then deferFault s (.event e)
      else if (unitLimit u).1 ≤ windowCount s u then thresholdAction s u loc1 else s := by
  by_cases h : (unitLimit u).1 ≤ windowCount s u <;> simp [meetFault, faultEffect, detect, takeDue, faultAction, overThreshold, h]

/-- A corrected event of a unit whose events are errors to count. -/
theorem exec_errorEvent_counted {s : State} {u : CountUnit} (loc1 addr : Nat) (hon : s.module = .on) (hu : unitExists u = true)
    (hqueue : ∀ t, u ≠ .queue t) (hhub : ∀ k n, u ≠ .hubQueue k n) (hstack : ∀ n, u ≠ .stack n) (hpcie : ∀ p, u ≠ .pcie p) :
    let v := correctedEvent s u loc1 addr
    let e := FaultEvent.counted u loc1 addr
    exec (.errorEvent e) s = .next (if actionsWait v && !actsAtOnce v e then deferFault v (.event e)
      else if (unitLimit u).1 ≤ windowCount v u then thresholdAction v u loc1 else v) := by
  intro v e
  have hexists : eventExists e = true := hu
  calc exec (.errorEvent e) s
    _ = .next (meetFault v e) := by
      cases u <;> simp [exec, execErrorEvent, e, v, hexists, hon] at *
    _ = _ := by rw [meetFault_counted]

theorem exec_errorEvent_of_not_counted {s : State} {e : FaultEvent} (hon : s.module = .on) (hexists : eventExists e = true)
    (he : ∀ u l a, e ≠ .counted u l a) : exec (.errorEvent e) s = .next (meetFault s e) := by
  cases e <;> simp [exec, execErrorEvent, hexists, hon] at *

theorem exec_lcHeartbeat {s : State} {n : Nat} (hn : n ≤ 3) :
    exec (.lcHeartbeat n true) s = .next { s with errs := { s.errs with
      misses := modAt s.errs.misses n fun _ => 0, reloading := modAt s.errs.reloading n fun _ => false } } ∧
    (s.errs.reloading.getD n false = false →
      (s.errs.misses.getD n 0 < 2 → exec (.lcHeartbeat n false) s =
        .next { s with errs := { s.errs with misses := modAt s.errs.misses n (· + 1) } }) ∧
      (2 ≤ s.errs.misses.getD n 0 → exec (.lcHeartbeat n false) s = .next (controllerFault s n))) := by
  refine ⟨if_pos hn, fun hload => ⟨fun hfew => ?_, fun hmany => ?_⟩⟩ <;>
    simp only [exec, execLcHeartbeat, withLevel, if_pos hn, hload]
  · rw [if_neg (by simp), if_neg (by simp), if_neg (by omega)]
  · rw [if_neg (by simp), if_neg (by simp), if_pos (by omega)]

theorem exec_replayTimeout {s : State} {r : Recovery} {l : Launch} {i : Image} (hrec : s.errs.recov = some r)
    (hlaunch : s.launches.find? (·.ticket = r.ticket) = some l) (himg : l.img = some i) (htmax : i.tmax ≠ 0) :
    (i.tmax * 36 ≤ r.edges * 10 → exec .replayTimeout s = .next (abandonRecovery s r.unit r.spare r.seq)) ∧
    (r.edges * 10 < i.tmax * 36 → exec .replayTimeout s = .next s) := by
  refine ⟨fun hout => ?_, fun hin => ?_⟩ <;> simp only [exec, execReplayTimeout, hrec, hlaunch, himg]
  · exact if_pos ⟨htmax, hout⟩
  · exact if_neg fun h => Nat.not_le.mpr hin h.2

/-- Settles O50, event by event. -/
theorem faultEventsAreCountedAndActedOn : Obligations.FaultEventsAreCountedAndActedOn := by
  refine ⟨fun s u loc1 addr hon hu hq hh hs hp => exec_errorEvent_counted loc1 addr hon hu hq hh hs hp, fun s e hon hexists he => ?_,
    fun s t off ht => ⟨?_, ?_, fun i hi hl => ?_⟩, fun s t ht hc => ?_, fun s => rfl,
    fun s n hn => ⟨if_pos hn, if_pos hn, if_pos hn, exec_lcHeartbeat hn⟩, fun s => rfl,
    fun s r l i hrec hlaunch himg htmax => exec_replayTimeout hrec hlaunch himg htmax⟩
  · have hmeet := exec_errorEvent_of_not_counted hon hexists he
    intro v wait
    refine ⟨fun r d hd => hmeet.trans ?_, fun hd => hmeet.trans ?_⟩
    · simp only [meetFault, v, wait] at hd ⊢
      rw [hd]
      rfl
    · simp only [meetFault, v, wait] at hd ⊢
      rw [hd]
      rfl
  · exact if_pos ht
  · exact if_pos ht
  · simp [exec, execConfigScrub, withTile, ht, hi, hl]
  · have hgo : ¬ windowCount s (.tile t) < 64 := Nat.not_lt.mpr hc
    simp [exec, execSummaryRecord, unitExists, unitPlace, ht, hgo]

end Sys2Proof.Machine

/-! PROOF. Shaft time and the commands of the shaft bus (17 R411 to R420). -/

namespace Sys2Proof.Machine

/-- A tick of the shaft, where nothing holds it. -/
theorem exec_shaftTick {s : State} (hon : s.module = .on) (hlost : s.casc.lost = false)
    (hgo : s.casc.pith = false ∨ (s.casc.stopped = false ∧ (s.casc.force = 0 ∨ s.casc.owed ≠ 0))) :
    let u : State := { s with casc := { s.casc with
      count := s.casc.count + 1, owed := if s.casc.pith && s.casc.force ≠ 0 then s.casc.owed - 1 else s.casc.owed } }
    exec .shaftTick s =
      .next (if (s.casc.count + 1).toNat % 600000000 = 0 then notify u (.interval (s.casc.count + 1).toNat) else u) := by
  have hticks : ¬ (s.casc.lost = true ∨ s.module ≠ .on ∨
      (s.casc.pith = true ∧ (s.casc.stopped = true ∨ (s.casc.force ≠ 0 ∧ s.casc.owed = 0)))) := by
    rcases hgo with hp | ⟨hs, hf | ho⟩ <;> simp [*]
  exact if_neg hticks

/-- With at most 16 ticks owed no edge is recorded. -/
theorem owedRecord_of_few {s : State} (h : s.casc.owed ≤ 16) : owedRecord s = s := by simp [owedRecord, h]

/-- An edge of the reference. -/
theorem exec_shaftRefEdge {s : State} (i : Nat) (hon : s.module = .on) (hpith : s.casc.pith = true) (hratio : s.casc.ratio ≠ 0)
    (hcasc : inCascade s = true) (howed : s.casc.owed ≤ 16) :
    (s.casc.stopped = true → s.casc.refSkip = 0 → exec (.shaftRefEdge i) s = .next { s with casc := { s.casc with refSkip := 1 } }) ∧
    (s.casc.refSkip = 2 → exec (.shaftRefEdge i) s = .next { s with casc := { s.casc with
      refSkip := 1, owed := s.casc.owed + s.casc.force, refInterval := none } }) ∧
    ((s.casc.refSkip = 1 ∨ (s.casc.refSkip = 0 ∧ s.casc.stopped = false)) → exec (.shaftRefEdge i) s = .next { s with casc := { s.casc with
      refSkip := 0, force := s.casc.ratio, stopped := false, owed := s.casc.owed + s.casc.ratio, refInterval := some i } }) := by
  refine ⟨fun hstop hskip => ?_, fun hskip => ?_, ?_⟩
  · simp [exec, execShaftRefEdge, hon, hpith, hratio, hcasc, hstop, hskip]
  · simp [exec, execShaftRefEdge, hon, hpith, hratio, hcasc, hskip, owedRecord_of_few howed]
  · rintro (hskip | ⟨hskip, hstop⟩)
    · simp [exec, execShaftRefEdge, hon, hpith, hratio, hcasc, hskip, owedRecord_of_few howed]
    · simp [exec, execShaftRefEdge, hon, hpith, hratio, hcasc, hskip, hstop, owedRecord_of_few howed]

/-- Settles O42, row by row. -/
theorem shaftTimeAdvances : Obligations.ShaftTimeAdvances := by
  refine ⟨fun s hon hlost => ⟨fun hpith hforce howed => ?_, exec_shaftTick hon hlost⟩,
    fun s i hon hpith hratio hcasc howed => exec_shaftRefEdge i hon hpith hratio hcasc howed,
    fun s i hpith hforce hstop hint => ?_, fun s hon hpith hlost hcomp => ?_, fun s hlost => ?_⟩
  · simp [exec, execShaftTick, hpith, hforce, howed]
  · simp [exec, execShaftRefTimeout, hpith, hforce, hstop, hint]
  · simp [exec, execShclkLoss, hon, hpith, hlost, hcomp]
  · simp [exec, execShclkReturn, hlost]

section
variable {s : State}

theorem exec_freezeLog (hsam : sampled s .freeze = true) (hseen : s.casc.pith = true → s.casc.shfltSeen = false) :
    let u := plainRecord (driven s .freeze true) 0x0B stContained 1 4 0 []
    let keep := u.errs.ring.take 1024
    exec .freezeLog s = .next (if u.errs.unread.isEmpty then
      { u with errs := { u.errs with frozen := keep, unread := keep.map (·.seq) } } else u) := by
  have hhalt : (s.casc.pith && s.casc.shfltSeen && cascadeComputes s) = false := by
    cases hp : s.casc.pith with
    | false => rfl
    | true => simp [hseen hp]
  simp [exec, execFreezeLog, hsam, hhalt]

theorem exec_shcmdBarrierRelease (lines : BitVec 4) (hsam : sampled s .barrier = true)
    (hlines : s.casc.pith = false ∨ (s.casc.shfltSeen = false ∧ lines = s.casc.lines)) :
    let u := (List.range 4).foldl (fun a k => if bitAt lines k && barParticipates a k then completePhase a (64 + k) else a)
      (driven s .barrier false)
    exec (.shcmdBarrierRelease lines) s = .next { u with casc := { u.casc with lines := 0 } } := by
  have hgo : ¬ ((!sampled s .barrier) = true ∨ (s.casc.pith = true ∧ (s.casc.shfltSeen = true ∨ lines ≠ s.casc.lines))) := by
    rcases hlines with hp | ⟨hs, hl⟩ <;> simp [*]
  exact if_neg hgo

/-- A command of the highest ranks acts when no other is due. -/
theorem exec_throttle_and_resume (hon : s.module = .on) (hdue : s.casc.pith = false ∨ s.casc.due = []) :
    (s.power.throt = true → exec .throttle s = .next (driven s .throttle true)) ∧
    (s.power.throt = false → exec .throttle s = .next
      (signalBoth { modPower (driven s .throttle true) (fun p => { p with throt := true, eThrot := 1 }) with alert := true } 1019)) ∧
    exec .resume s = .next (restoreNow (modPower (driven s .resume false) fun p => { p with throt := false })) := by
  have hfirst (c : ShCmd) : (s.casc.pith && s.casc.due.any fun d => decide (cmdRank d < cmdRank c)) = false := by
    rcases hdue with hp | hd
    · simp [hp]
    · simp [hd]
  refine ⟨fun ht => ?_, fun ht => ?_, ?_⟩
  · simp only [exec, execThrottle, hfirst, hon, ht]
    simp
  · simp only [exec, execThrottle, hfirst, hon, ht]
    simp
  · simp only [exec, execResume, hfirst, hon]
    simp

end

/-- Settles O41, command by command. -/
theorem shaftBusCommandsAct : Obligations.ShaftBusCommandsAct := by
  intro s hon
  refine ⟨exec_freezeLog, fun hsam j hj hcasc => ?_, exec_shcmdBarrierRelease, fun v hsam hv => ?_,
    exec_throttle_and_resume hon, fun line hline hpith hseen hout => ?_, fun hseen => ?_, fun hflt => ?_,
    fun hack hnone hres => ?_, fun hdone hclash hready => ?_⟩
  · simp [exec, execShcmdHalt, hsam, hj, hcasc]
  · have hstaged : (driven s .mark false).casc.staged = some v := hv
    simp [exec, execShcmdMark, hsam, hstaged]
  · simp [exec, execShbarReleased, Nat.not_lt.mpr hline, hpith, hseen, hon, hout]
  · simp [exec, execShfltAsserted, hseen, hon]
  · simp [exec, execShfltReleased, hflt]
  · have hno : ¬ (s.resets.any fun r => r.kind = 0) = true := by simpa using hres
    have hgo : ¬ ((!s.casc.acking) = true ∨ (s.resets.any fun r => r.kind = 0) = true) := by simp [hack, hno]
    simp only [exec, execShackReleased]
    rw [if_neg hgo, hnone, List.foldl_nil]
  · have hgo : ¬ (s.module ≠ .on ∨ (!s.casc.shdone) = true ∨ s.casc.clash = true ∨ s.casc.ready = true) := by
      simp [hon, hdone, hclash, hready]
    exact if_neg hgo

end Sys2Proof.Machine

/-! PROOF. Jorzin ports: frames, acks, credits, training, devices lost and joined (17 R397 to R405, R421, R422). -/

namespace Sys2Proof.Machine

section
variable {s : State} {p : Nat} (hp : p ≤ 11)
include hp

theorem withJPort_of_port (o : Outcome) : withJPort p o = o := if_pos hp

/-- A frame without CRC error on a trained port that is up. -/
theorem exec_jorzinFrame {f : Frame} (htrained : (jportN s p).trained = true) (hup : (jportN s p).up = true) (htype : f.ftype ≤ 1)
    (hlvc : f.lvc ≤ 2) (hready : f.ftype = 1 ∨ s.casc.ready = true) :
    (f.seq = (jportN s p).rx → exec (.jorzinFrame p f true) s =
      .next (frameTaken (linkFrame (enterIn (modJPort s p fun x => { x with rx := (x.rx + 1) % 4096, nacked := false }) p f.lvc (nflit f))
        p 3 f.seq) p f)) ∧
    (f.seq ≠ (jportN s p).rx → ((jportN s p).rx + 4096 - f.seq) % 4096 ≤ 2048 →
      exec (.jorzinFrame p f true) s = .next (linkFrame s p 3 (((jportN s p).rx + 4095) % 4096))) ∧
    (f.seq ≠ (jportN s p).rx → 2048 < ((jportN s p).rx + 4096 - f.seq) % 4096 → (jportN s p).nacked = false →
      exec (.jorzinFrame p f true) s = .next (linkFrame (modJPort s p fun x => { x with nacked := true }) p 4 (jportN s p).rx)) := by
  have hform : ¬ ((!(jportN s p).trained) = true ∨ (!(jportN s p).up) = true ∨ f.ftype > 1 ∨ f.lvc > 2) := by
    simp [htrained, hup, htype, hlvc]
  have hturn : ¬ (f.ftype = 0 ∧ (!s.casc.ready) = true) := by
    rcases hready with h | h <;> simp [h]
  refine ⟨fun hseq => ?_, fun hseq hold => ?_, fun hseq hnew hn => ?_⟩ <;> refine (withJPort_of_port hp _).trans ?_ <;>
    dsimp only <;> rw [if_neg hform, if_neg (by simp), if_neg hturn]
  · rw [if_pos hseq]
  · rw [if_neg hseq, if_pos hold]
  · rw [if_neg hseq, if_neg (Nat.not_le.mpr hnew), if_neg (by simp [hn])]

theorem exec_jorzinAck_and_nack {a i : Nat} (hi : indexWhere (fun x : SentFrame => x.seq = a % 4096) (jportN s p).replay = some i) :
    exec (.jorzinAck p a) s = .next (pump (modJPort s p fun j => { j with replay := j.replay.drop (i + 1) }) p) ∧
    exec (.jorzinNack p a) s = .next (resendFrom (modJPort s p fun j => countJ j 2 1) p i) := by
  refine ⟨(withJPort_of_port hp _).trans ?_, (withJPort_of_port hp _).trans ?_⟩
  · rw [hi]
  · rw [hi]

theorem exec_jorzinAckTimeout (hreplay : (jportN s p).replay ≠ []) (hup : (jportN s p).up = true) :
    exec (.jorzinAckTimeout p) s = .next (resendFrom s p 0) :=
  (withJPort_of_port hp _).trans (if_neg (by simp [hreplay, hup]))

/-- Training of a port that was not trained; a port wired against the topology is a clash. -/
theorem exec_jorzinPortTrained (dev fport : Nat) (pith : Bool) (htrained : (jportN s p).trained = false) :
    let u := tellPort (holdFlows (modJPort s p fun _ => { jportReset with
      trained := true, up := true, lanes := 4, dev := dev % 64, fport := fport % 16, counters := (jportN s p).counters })) s.casc.id p true
    let v := if s.casc.pith then u else sendControl u 0 9 [s.casc.id, p, 16 * (dev % 64) + fport % 16]
    (dev % 64 ≠ deviceId s → (pith = false ∨ s.casc.pith = false) → exec (.jorzinPortTrained p dev fport pith) s = .next v) ∧
    ((dev % 64 = deviceId s ∨ (pith = true ∧ s.casc.pith = true)) →
      exec (.jorzinPortTrained p dev fport pith) s = .next (clashFound v p (fport % 16))) := by
  have hnew : ¬ ((jportN s p).trained = true ∧
      ((jportN s p).up = true ∨ (!s.casc.ready) = true ∨ s.casc.present.contains (jportN s p).dev = true)) := by simp [htrained]
  refine ⟨fun hd hpith => ?_, fun hclash => ?_⟩ <;> refine (withJPort_of_port hp _).trans ?_ <;> dsimp only <;> rw [if_neg hnew]
  · have hok : dev % 64 ≠ deviceId s ∧ (!decide (pith = true ∧ s.casc.pith = true)) = true := by
      rcases hpith with h | h <;> simp [hd, h]
    exact if_pos hok
  · have hbad : ¬ (dev % 64 ≠ deviceId s ∧ (!decide (pith = true ∧ s.casc.pith = true)) = true) := by
      rcases hclash with h | ⟨h, h'⟩ <;> simp [*]
    exact if_neg hbad

/-- The end of a retraining that no packet asked for. -/
theorem exec_portRetrainEnd_of_none (hre : (jportN s p).retraining = true) (hnone : retrainOf s p = none) :
    exec (.portRetrainEnd p true) s =
      .next (pump (resendFrom (modJPort s p fun j => { j with retraining := false, up := true }) p 0) p) ∧
    exec (.portRetrainEnd p false) s = .next (plainRecord (portDown s p) 6 stContained 1 p 0 []) := by
  constructor <;> refine (withJPort_of_port hp _).trans ?_ <;> simp [hre, hnone]

/-- The end of the retraining that RETRAIN asked for. -/
theorem exec_portRetrainEnd_of_some {x : Packet} (hre : (jportN s p).retraining = true) (hsome : retrainOf s p = some x) :
    exec (.portRetrainEnd p true) s = .next (replyOk
      (pump (resendFrom (holdFlows (modJPort s p fun j => { j with retraining := false, up := true })) p 0) p) x.ticket 0 0) ∧
    exec (.portRetrainEnd p false) s = .next (refuse (plainRecord (portDown s p) 6 stContained 1 p 0 []) x.ticket stContained 0) := by
  constructor <;> refine (withJPort_of_port hp _).trans ?_ <;> simp [hre, hsome]

end

/-- A device that is lost leaves PRESENT; a member that is lost fails the cascade jobs. -/
theorem exec_deviceLoss {s : State} {d : Nat} (hd : d ≠ deviceId s) (hpresent : d ∈ s.casc.present) :
    let ps := (List.range 12).filter fun p => let j := jportN s p; j.up && j.dev = d
    let u := ps.foldl portDown s
    let w := holdFlows { u with casc := { u.casc with
      present := u.casc.present.filter (· ≠ d), awaiting := u.casc.awaiting.filter (· ≠ d), seen := u.casc.seen.filter (·.1 / 16 ≠ d)
      parts := u.casc.parts.filter (·.1.1 ≠ d) } }
    let v := if s.casc.pith then plainRecord (failAway w d) 6 stContained 1 (ps.headD 0) 0 [d] else w
    (inMembers s d = false → exec (.deviceLoss d) s = .next v) ∧
    (inMembers s d = true → exec (.deviceLoss d) s =
      .next (((v.jobs.filter (·.casc)).map (·.id)).foldl (fun s j => failJob s j stFaultFatal) v)) := by
  have hgo : ¬ (d = deviceId s ∨ (!s.casc.present.contains d) = true) := by simp [hd, hpresent]
  refine ⟨fun hin => (if_neg hgo).trans ?_, fun hin => (if_neg hgo).trans ?_⟩
  · exact if_neg (by simp [hin])
  · exact if_pos hin

theorem exec_retrain {s : State} {k : Nat} {x : Packet} (h : Taken s k 0x0A04 x) :
    (pfld x 0x10 1 = 0 → pfld x 0x12 2 < 16 → exec (.retrain k) s = .next (replyOk (early s x) k 0 0)) ∧
    (pfld x 0x10 1 = 1 → pfld x 0x12 2 < 24 → exec (.retrain k) s = .next (replyOk (early s x) k 0 0)) ∧
    (pfld x 0x10 1 = 2 → pfld x 0x12 2 < 12 → x.sent = false → (jportN s (pfld x 0x12 2)).retraining = false →
      exec (.retrain k) s = .next (modJPort (portDown (modPacket (early s x) k fun y => { y with sent := true }) (pfld x 0x12 2))
        (pfld x 0x12 2) fun j => { j with retraining := true })) := by
  refine ⟨fun ht hid => (withCmd_of_taken h _).trans ?_, fun ht hid => (withCmd_of_taken h _).trans ?_,
    fun ht hid hsent hre => (withCmd_of_taken h _).trans ?_⟩
  · simp [ht, Nat.not_le.mpr hid]
  · simp [ht, Nat.not_le.mpr hid]
  · simp [ht, Nat.not_le.mpr hid, hsent, hre]

/-- Settles O43, row by row. -/
theorem jorzinLinksDeliverInOrder : Obligations.JorzinLinksDeliverInOrder := by
  refine ⟨fun s p f hp ht hu hty hl hr => exec_jorzinFrame hp ht hu hty hl hr, fun s p a i hp hi => exec_jorzinAck_and_nack hp hi,
    fun s p c0 c1 c2 hp => withJPort_of_port hp _, fun s p hp hr hu => exec_jorzinAckTimeout hp hr hu,
    fun s p dev fport pith hp ht => exec_jorzinPortTrained hp dev fport pith ht,
    fun s p hp hre hnone => exec_portRetrainEnd_of_none hp hre hnone, fun s p x hp hre hsome => exec_portRetrainEnd_of_some hp hre hsome,
    fun s d hd hpresent => exec_deviceLoss hd hpresent, fun s d hd hnew hready => ?_, fun s d hacked hheld => ?_,
    fun s k x h => exec_retrain h⟩
  · have hgo : ¬ (d > 63 ∨ s.casc.present.contains d = true ∨ (!deviceReady s) = true) := by simp [hd, hnew, hready]
    exact if_neg hgo
  · simp [exec, execJorzinRouteHoldRelease, hacked, hheld]

end Sys2Proof.Machine

/-! PROOF. JOB_OPEN, JOB_CLOSE, JOB_QUERY and JOB_PREEMPT (15 R354 to R368). -/

namespace Sys2Proof.Machine

/-- The reply of a packet leaves the keys and the generator alone. -/
theorem replyPacket_keys_rng (s : State) (x : Packet) (status r0 : Nat) :
    (replyPacket s x status 0 r0 0).keys = s.keys ∧ (replyPacket s x status 0 r0 0).rng = s.rng := by
  unfold replyPacket
  split
  · exact ⟨rfl, rfl⟩
  · rw [postEntry_frame]
    exact ⟨rfl, rfl⟩

theorem early_keys_rng (s : State) (x : Packet) : (early s x).keys = s.keys ∧ (early s x).rng = s.rng := by
  unfold early accept
  (repeat' split)
  · exact ⟨rfl, rfl⟩
  · exact replyPacket_keys_rng ..
  · exact ⟨rfl, rfl⟩

/-- The job that JOB_OPEN makes. -/
def openedJob (s : State) (x : Packet) (area : List Nat) : Job :=
  let lc := decide (pfld x 0x10 1 = 0)
  { id := nextJob s, port := x.port, lc := lc, split := pfld x 0x11 1, adopt := pfld x 0x12 1 = 1, casc := pfld x 0x13 1 = 1,
    client := pfld x 0x14 1, evcq := pfld x 0x15 1, tier := pfld x 0x16 1, seed := BitVec.ofNat 64 (pfld x 0x18 8),
    key := if lc then none else freeSlot s, state := .opened, area := area, saved := none, wepoch := 0, enq := none,
    pre := none, qwait := 0, preempts := 0, ptime := 0, energy := 0, fail := 0, preBy := 0, doomed := false }

theorem exec_jobOpen {s : State} {k : Nat} {x : Packet} {area : List Nat} (h : Taken s k 0x0200 x) (hfields : openField s x = none)
    (hroom : s.jobs.length < 64)
    (hfits : decide (pfld x 0x10 1 = 0) = true ∧ area = [] ∨ decide (pfld x 0x10 1 = 0) = false ∧ (freeSlot s).isSome = true ∧
      s.sec.rngWait = false ∧ saveArea s (pfld x 0x16 1) = some area) :
    let j := openedJob s x area
    let u := takeKey (early s x) j.key
    exec (.jobOpen k) s = .next (replyOk (tellCascade { u with jobs := u.jobs ++ [j], lastJob := j.id } j 0 x.bytes) k j.id 0) := by
  refine (withCmd_of_taken h _).trans ?_
  dsimp only
  rw [hfields]
  dsimp only
  rcases hfits with ⟨hlc, rfl⟩ | ⟨hlc, hslot, hrng, harea⟩
  · rw [if_neg (by simp [hlc, hroom]), if_neg (by simp [hlc]), if_pos hlc]
    rfl
  · obtain ⟨n, hn⟩ := Option.isSome_iff_exists.mp hslot
    rw [if_neg (by simp [hn, hroom]), if_neg (by simp [hrng]), if_neg (by simp [hlc]), harea]
    rfl

theorem exec_jobClose {s : State} {k : Nat} {x : Packet} {j : Job} (h : TakenJob s k 0x0201 x j) (hcarry : carryingQueue s x j.id = none)
    (hsw : switchOf s j.id = false) :
    let r := closeJob (modPacket (early s x) k fun y => { y with sent := true }) j k
    (r.2 = [] → exec (.jobClose k) s = .next (replyOk r.1 k 0 0)) ∧
    (∀ v vs, r.2 = v :: vs → exec (.jobClose k) s = .next (complete r.1 k stTallyUnbalanced 0 v (vs.length + 1))) := by
  refine ⟨fun hr => (withJob_of_taken h _).trans ?_, fun v vs hr => (withJob_of_taken h _).trans ?_⟩ <;>
    simp only [hcarry] <;> rw [if_neg (by simp [hsw]), hr]
  rfl

/-- JOB_PREEMPT of a BE job. -/
theorem exec_jobPreempt {s : State} {k : Nat} {x : Packet} {j : Job} (h : TakenJob s k 0x0202 x j) (hbe : j.lc = false) :
    (s.comp ≠ some j.id → exec (.jobPreempt k) s = .next (replyOk (early s x) k 0 0)) ∧
    (s.comp = some j.id → x.sent = false → s.sw = none →
      let u := tellSwitch (modJob (modPacket (early s x) k fun y => { y with sent := true }) j.id fun y => { y with pre := some (shaftCount s) }) j true
      exec (.jobPreempt k) s = .next (notify
        { u with sw := some { job := j.id, phase := .wait, forced := true, ticket := some k, cause := j.id, start := s.clock } }
        (.switch j.id (shaftCount s)))) ∧
    (∀ w, s.comp = some j.id → x.sent = false → s.sw = some w →
      exec (.jobPreempt k) s = .next { modPacket (early s x) k (fun y => { y with sent := true }) with
        sw := some { w with forced := w.forced || w.phase = .wait, ticket := w.ticket <|> some k } }) := by
  refine ⟨fun hcomp => (withJob_of_taken h _).trans ?_, fun hcomp hsent hnone => (withJob_of_taken h _).trans ?_,
    fun w hcomp hsent hsw => (withJob_of_taken h _).trans ?_⟩
  · rw [if_neg (by simp [hbe]), if_pos hcomp]
  · rw [if_neg (by simp [hbe]), if_neg (by simp [hcomp]), if_neg (by simp [hsent]), hnone]
  · rw [if_neg (by simp [hbe]), if_neg (by simp [hcomp]), if_neg (by simp [hsent]), hsw]

/-- Settles O34, command by command. -/
theorem jobsOpenCloseAndReport : Obligations.JobsOpenCloseAndReport := by
  refine ⟨fun s k x area h hf hroom => ?_,
    fun s k x j h hc hs => exec_jobClose h hc hs, fun s k x j h hkind => ?_, fun s k x h hkind => ?_,
    fun s k x j h hbe => exec_jobPreempt h hbe⟩
  · intro lc hfits j u
    refine ⟨exec_jobOpen h hf hroom hfits, fun n hn => ?_⟩
    obtain ⟨hkeys, hrng⟩ := early_keys_rng s x
    simp [u, hn, takeKey, hkeys, hrng]
  · obtain ⟨htaken, hjob⟩ := h
    refine (withCmd_of_taken htaken _).trans ?_
    simp [hkind, hjob]
  · refine (withCmd_of_taken h _).trans ?_
    simp [hkind]

end Sys2Proof.Machine

/-! PROOF. Switches of the device between jobs, and restores (15 R357 to R368). -/

namespace Sys2Proof.Machine

theorem exec_waitingSwitch {s : State} {w : Switch} (hw : waitingSwitch s = some w) :
    (w.forced = true → exec .forcedSwitch s = .next { s with sw := some { w with phase := .drain } }) ∧
    (w.forced = false → runningOf s w.job = [] → exec .boundarySwitch s = .next (stopForScan s w)) ∧
    (w.forced = false → runningOf s w.job ≠ [] →
      (s.clock < w.start + feature s 2 * 3600 → exec .preemptWaitTimeout s = .next s) ∧
      (w.start + feature s 2 * 3600 ≤ s.clock →
        exec .preemptWaitTimeout s = .next { s with sw := some { w with phase := .drain, forced := true } })) := by
  refine ⟨fun hf => ?_, fun hf hrun => ?_, fun hf hrun => ⟨fun hin => ?_, fun hout => ?_⟩⟩
  · simp [exec, execForcedSwitch, hw, hf]
  · simp [exec, execBoundarySwitch, hw, hf, hrun]
  · simp [exec, execPreemptWaitTimeout, hw, hin]
  · simp [exec, execPreemptWaitTimeout, hw, hf, hrun, Nat.not_lt.mpr hout]

theorem exec_drainingSwitch {s : State} {w : Switch} (hw : s.sw = some w) (hdrain : w.phase = .drain) :
    exec .switchDrainTimeout s = .next (stopForScan s w) ∧ (drained s = true → exec .switchDrainEnd s = .next (stopForScan s w)) := by
  refine ⟨?_, fun hd => ?_⟩
  · simp [exec, execSwitchDrainTimeout, hw, hdrain]
  · simp [exec, execSwitchDrainEnd, hw, hdrain, hd]

/-- The end of a scan: the job is handed over, unless its save area is lost. -/
theorem exec_switchScanEnd {s : State} {w : Switch} {j : Job} (hw : s.sw = some w) (hscan : w.phase = .scan) (hj : jobOf s w.job = some j)
    (hall : j.casc = false ∨ s.casc.pith = false ∨ s.casc.awaiting = []) :
    (areaLost s j = true → exec .switchScanEnd s = .next (areaFatal s j)) ∧
    (areaLost s j = false → exec .switchScanEnd s = .next (closeDoomed (passDevice (tellDone (handOver s w j) j)))) := by
  have hgo : (j.casc && s.casc.pith && !s.casc.awaiting.isEmpty) = false := by
    rcases hall with h | h | h <;> simp [h]
  constructor <;> intro hlost <;> simp [exec, execSwitchScanEnd, hw, hscan, hj, hgo, hlost]

/-- A free device begins to restore the pre-empted job that heads its BE queue. -/
theorem exec_jobRestore {s : State} {b : Nat} {rest : List Nat} {j : Job} (hon : s.module = .on) (hcomp : s.comp = none) (hsw : s.sw = none)
    (hlcq : s.lcq = []) (hbeq : s.beq = b :: rest) (hj : jobOf s b = some j) (hpre : j.state = .preempted) (hfatal : s.errs.fatal = false)
    (helse : decidedElsewhere s j = false) : exec .jobRestore s = .next (beginRestore s j) := by
  simp [exec, execJobRestore, hon, hcomp, hsw, hlcq, hbeq, hj, hpre, hfatal, helse]

/-- The end of a restore: the job resumes, and a job of the LC queue may ask for a switch at once. -/
theorem exec_restoreEnd {s : State} {w : Switch} {j : Job} (hw : s.sw = some w) (hres : w.phase = .restore) (hj : jobOf s w.job = some j) :
    let e := closeDoomed (resumed s j (j.saved.getD (Config.savedState s.fresh)))
    (areaLost s j = true → exec .restoreEnd s = .next (areaFatal s j)) ∧
    (areaLost s j = false → exec .restoreEnd s = .next (match e.lcq.head? with
      | some l => if e.comp = some j.id && !decidedElsewhere e j then decideSwitch e j.id l else e
      | none => e)) := by
  refine ⟨fun hlost => ?_, fun hlost => ?_⟩ <;> simp only [exec, execRestoreEnd, hw, hres, hj, hlost] <;> rfl

/-- Settles O46, row by row. -/
theorem switchesMoveTheDevice : Obligations.SwitchesMoveTheDevice := by
  refine ⟨fun s w hw => exec_waitingSwitch hw, fun s w hw hdrain => exec_drainingSwitch hw hdrain, fun s w hw hscan j hj hall => ?_,
    fun s b rest j hon hcomp hsw hlcq hbeq hj hpre hfatal helse => ?_, fun s w j hw hres hj => ?_⟩
  · have h := exec_switchScanEnd hw hscan hj hall
    rw [handOver] at h
    exact h
  · exact exec_jobRestore hon hcomp hsw hlcq hbeq hj hpre hfatal helse
  · have h := exec_restoreEnd hw hres hj
    rw [resumed] at h
    exact h

end Sys2Proof.Machine

/-! PROOF. CASCADE_CONFIG, CASCADE_FORWARD and COLLECTIVE (17 R396 to R410). -/

namespace Sys2Proof.Machine

/-- CASCADE_CONFIG on a Member. -/
theorem exec_cascadeConfig_member {s : State} {k : Nat} {x : Packet} (h : Taken s k 0x0600 x) (hdone : s.casc.shdone = true)
    (hready : deviceReady s = true) (hpith : s.casc.pith = false) (htopo : pfld x 0x10 1 = 0) (hdomain : pfld x 0x12 2 = 0)
    (hsystem : pfld x 0x14 4 = 0) (hmembers : pfld x 0x18 8 = 0) (hratio : pfld x 0x20 4 = 0) :
    exec (.cascadeConfig k) s = .next (replyOk (driveOutputs
      { early s x with casc := { (early s x).casc with barpart := BitVec.ofNat 4 (pfld x 0x11 1) } }) k 0 0) := by
  refine (withCmd_of_taken h _).trans ?_
  simp [hdone, hready, hpith, htopo, hdomain, hsystem, hmembers, hratio]

/-- CASCADE_CONFIG on the Pithead. -/
theorem exec_cascadeConfig_pithead {s : State} {k : Nat} {x : Packet} (h : Taken s k 0x0600 x) (hdone : s.casc.shdone = true)
    (hready : deviceReady s = true) (hpith : s.casc.pith = true) (htopo : pfld x 0x10 1 ≤ 3) (hfirst : nbit (pfld x 0x18 8) 0 = true) :
    let topo := pfld x 0x10 1
    let members := pfld x 0x18 8
    (∀ d, ((List.range 64).filter (nbit members)).find? (fun d => !s.casc.present.contains d) = some d →
      exec (.cascadeConfig k) s = .next (refuse s k stCascadeNotReady d)) ∧
    ((∀ d < 64, nbit members d = true → d ∈ s.casc.present) →
      (topo = 0 ∨ firstMismatch s topo ((List.range 64).filter (nbit members)).length = none) →
      let u := driveOutputs (holdFlows { early s x with
        casc := setRatio { (early s x).casc with
          topo := topo, barpart := BitVec.ofNat 4 (pfld x 0x11 1), domain := BitVec.ofNat 16 (pfld x 0x12 2)
          system := BitVec.ofNat 32 (pfld x 0x14 4), members := some (BitVec.ofNat 64 members) } (pfld x 0x20 4) })
      exec (.cascadeConfig k) s = .next (replyOk ((u.casc.present.filter (· ≠ deviceId s)).foldl (fun a d =>
        sendControl a d 5 [topo, pfld x 0x12 2, pfld x 0x14 4, members, pfld x 0x20 4]) u) k 0 0)) ∧
    (∀ d, (∀ d < 64, nbit members d = true → d ∈ s.casc.present) → topo ≠ 0 →
      firstMismatch s topo ((List.range 64).filter (nbit members)).length = some d →
      exec (.cascadeConfig k) s = .next (refuse s k stBadParam d)) := by
  have hnone (hall : ∀ d < 64, nbit (pfld x 0x18 8) d = true → d ∈ s.casc.present) :
      ((List.range 64).filter (nbit (pfld x 0x18 8))).find? (fun d => !s.casc.present.contains d) = none := by
    simpa [List.find?_eq_none] using hall
  refine ⟨fun d hd => (withCmd_of_taken h _).trans ?_, fun hall hwired => (withCmd_of_taken h _).trans ?_,
    fun d hall htopo0 hmis => (withCmd_of_taken h _).trans ?_⟩ <;> dsimp only <;>
    rw [if_neg (by simp [hdone, hready]), if_neg (by simp [hpith]), if_neg (Nat.not_lt.mpr htopo), if_neg (by simp [hfirst])]
  · rw [hd]
  · have hfits : (if pfld x 0x10 1 = 0 then none
        else firstMismatch s (pfld x 0x10 1) ((List.range 64).filter (nbit (pfld x 0x18 8))).length) = none := by
      rcases hwired with h0 | hm
      · exact if_pos h0
      · rw [hm, ite_self]
    rw [hnone hall, hfits]
  · rw [hnone hall, if_neg htopo0, hmis]

/-- What a device of the mask has answered to a CASCADE_FORWARD whose packet is y. -/
def forwardStatus (s : State) (y : Packet) (replies : List (Nat × Nat)) (d : Nat) : Option Nat :=
  if d = deviceId s then y.res
  else if !reachable s d then some stCascadeNotReady else (replies.find? (·.1 = d)).map (·.2)

/-- The devices of the mask that failed a CASCADE_FORWARD. -/
def forwardFailures (s : State) (x y : Packet) (replies : List (Nat × Nat)) : List Nat :=
  (maskDevices (pfld x 0x10 8)).filter fun d => forwardStatus s y replies d ≠ some stOk

/-- CASCADE_FORWARD on the Pithead waits for every device of its mask. -/
theorem exec_cascadeForward_eq {s u : State} {k : Nat} {x y : Packet} (replies : List (Nat × Nat)) (h : Taken s k 0x0601 x)
    (hpith : s.casc.pith = true) (hready : deviceReady s = true)
    (hu : u = if x.sent then s else startForward s x ((maskDevices (pfld x 0x10 8)).contains (deviceId s)) (maskDevices (pfld x 0x10 8)))
    (hy : packetN u k = some y) :
    exec (.cascadeForward k replies) s =
      if (maskDevices (pfld x 0x10 8)).any fun d => (forwardStatus s y replies d).isNone then .next u
      else match forwardFailures s x y replies with
        | [] => .next (replyOk u k 0 0)
        | d :: _ => .next (complete u k ((forwardStatus s y replies d).getD 0) d (forwardFailures s x y replies).length 0) := by
  refine (withCmd_of_taken h _).trans ?_
  dsimp only
  rw [if_neg (by simp [hpith]), if_neg (by simp [hready]), ← hu, hy]
  rfl

/-- CASCADE_FORWARD completes with the lowest failure, or with OK. -/
theorem exec_cascadeForward {s : State} {k : Nat} {x : Packet} (replies : List (Nat × Nat)) (h : Taken s k 0x0601 x)
    (hpith : s.casc.pith = true) (hready : deviceReady s = true) :
    let ds := maskDevices (pfld x 0x10 8)
    let u := if x.sent then s else startForward s x (ds.contains (deviceId s)) ds
    ∀ y, packetN u k = some y →
      ((∃ d ∈ ds, forwardStatus s y replies d = none) → exec (.cascadeForward k replies) s = .next u) ∧
      ((∀ d ∈ ds, forwardStatus s y replies d = some stOk) → exec (.cascadeForward k replies) s = .next (replyOk u k 0 0)) ∧
      (∀ d ds' v, (∀ d ∈ ds, forwardStatus s y replies d ≠ none) → forwardFailures s x y replies = d :: ds' →
        forwardStatus s y replies d = some v → exec (.cascadeForward k replies) s = .next (complete u k v d (ds'.length + 1) 0)) := by
  intro ds u y hy
  have hanswered (hall : ∀ d ∈ ds, forwardStatus s y replies d ≠ none) :
      ¬ (ds.any fun d => (forwardStatus s y replies d).isNone) = true := by simpa using hall
  rw [exec_cascadeForward_eq replies h hpith hready rfl hy]
  refine ⟨fun hwait => if_pos (by simpa using hwait), fun hok => ?_, fun d ds' v hall hbad hv => ?_⟩
  · have hgood : forwardFailures s x y replies = [] := List.filter_eq_nil_iff.mpr fun d hd => by simp [hok d hd]
    rw [if_neg (hanswered fun d hd => by simp [hok d hd]), hgood]
  · rw [if_neg (hanswered hall), hbad]
    dsimp only
    rw [hv]
    rfl

/-! ### COLLECTIVE -/

/-- A device whose part of a COLLECTIVE does not come: this one where an end is not its own, another one that sends none. -/
def collectiveMissing (s : State) (x : Packet) (others : List (Nat × List Byte)) (d : Nat) : Bool :=
  let ds := maskDevices (pfld x 0x28 8)
  if d = deviceId s then
    !(!ds.contains (deviceId s) || (spanOk s x.port (pfld x 0x10 8) (pfld x 0x20 8) false &&
      (!!nbit (pfld x 0x18 8) 63 || spanOk s x.port (pfld x 0x18 8) (pfld x 0x20 8) true)))
  else others.all fun o => o.1 ≠ d

/-- The draw on each Level of the ends of a COLLECTIVE in this device's memory. -/
def collectiveDraw (s : State) (x : Packet) : List Nat :=
  (List.range 4).map fun n => if (rangeLevels (if (maskDevices (pfld x 0x28 8)).contains (deviceId s) then
    (pfld x 0x10 8, pfld x 0x20 8) :: (if !nbit (pfld x 0x18 8) 63 then [(pfld x 0x18 8, pfld x 0x20 8)] else [])
    else [])).contains n then 30 else 0

/-- The state in which a COLLECTIVE has begun. -/
def collectiveBegun (s : State) (k : Nat) (x : Packet) : State :=
  if (collsRunning s).any fun c => c.1 = k then s else { early s x with colls := collsRunning s ++ [(k, pfld x 0x32 2)] }

/-- The state in which a COLLECTIVE has asked leave, if it had to. -/
def collectiveAsked (s : State) (k : Nat) (x : Packet) (lc : Bool) : State :=
  let u := collectiveBegun s k x
  if hasGrant u (.command k) ∨ hasAsked u (.command k) then u else askLeave u (.command k) lc (collectiveDraw s x)

/-- A lost line in the ends of a COLLECTIVE in this device's memory. -/
def collectiveLost (s : State) (x : Packet) : Option Nat :=
  if (maskDevices (pfld x 0x28 8)).contains (deviceId s) then
    (lostIn s (pfld x 0x10 8) (pfld x 0x20 8)) <|>
      (if !nbit (pfld x 0x18 8) 63 then lostIn s (pfld x 0x18 8) (pfld x 0x20 8) else none)
  else none

/-- The devices in the order in which a COLLECTIVE adds their parts. -/
def collectiveOrder (s : State) (x : Packet) (others : List (Nat × List Byte)) : List Nat :=
  let ds := maskDevices (pfld x 0x28 8)
  let listed := ((others.map (·.1)).filter ds.contains).eraseDups
  if pfld x 0x31 1 = 1 then ds
  else if ds.contains (deviceId s) && !listed.contains (deviceId s) then deviceId s :: listed else listed

/-- The sum that a COLLECTIVE delivers. -/
def collectiveTotal (s : State) (x : Packet) (others : List (Nat × List Byte)) (order : List Nat) : List Byte :=
  collectiveSum (pfld x 0x30 1 = 1) (order.map fun d =>
    if d = deviceId s then memRead s (pfld x 0x10 8) (pfld x 0x20 8)
    else slice (((others.find? (·.1 = d)).map (·.2)).getD []) 0 (pfld x 0x20 8))

/-- The checks of a COLLECTIVE with good fields in order, its leave and its delivery. -/
theorem exec_collective_eq {s : State} {k : Nat} {x : Packet} {j : Job} (others : List (Nat × List Byte)) (h : TakenJob s k 0x0602 x j)
    (hfields : collectiveField s x j = none) :
    let ds := maskDevices (pfld x 0x28 8)
    let cs := collsRunning s
    let v := collectiveAsked s k x j.lc
    let w := { v with colls := v.colls.filter (·.1 ≠ k) }
    exec (.collective k others) s =
      match ds.find? fun d => !s.casc.present.contains d with
      | some d => .next (refuse s k stCascadeNotReady d)
      | none => match ds.find? (collectiveMissing s x others) with
        | some d => .next (refuse s k stBadParam d)
        | none =>
          if cs.any fun c => c.2 = pfld x 0x32 2 && c.1 ≠ k then .next (badField s k 0x32)
          else if !(cs.any fun c => c.1 = k) ∧ cs.length ≥ 4 then .next s
          else if neverAdmissible s.power (collectiveDraw s x) ∧ !(cs.any fun c => c.1 = k) then
            .next (refuse s k stLeaveDenied (drawSum (collectiveDraw s x)))
          else if !hasGrant v (.command k) then .next v
          else match collectiveLost s x with
            | some a => .next (refuse (memFatal w a false) k stFaultFatal 0)
            | none => .next (releaseLeave (replyOk
                (if ds.contains (deviceId s) then collectiveDeliver (binReads w (pfld x 0x10 8) (pfld x 0x20 8)) x
                  (collectiveTotal s x others (collectiveOrder s x others)) else w) k ds.length (cdiv (pfld x 0x20 8) 2048))
                      (.command k)) := by
  refine (withJob_of_taken h _).trans ?_
  rw [hfields]
  rfl

/-- Where this device takes part with ends of its own, and every other one sends its part, nothing is missing. -/
theorem collectiveMissing_of_heard {s : State} {x : Packet} {others : List (Nat × List Byte)}
    (hsource : spanOk s x.port (pfld x 0x10 8) (pfld x 0x20 8) false = true)
    (hdest : nbit (pfld x 0x18 8) 63 = true ∨ spanOk s x.port (pfld x 0x18 8) (pfld x 0x20 8) true = true)
    (hheard : ∀ d ∈ maskDevices (pfld x 0x28 8), d = deviceId s ∨ ∃ o ∈ others, o.1 = d) :
    (maskDevices (pfld x 0x28 8)).find? (collectiveMissing s x others) = none := by
  refine List.find?_eq_none.mpr fun d hd => ?_
  by_cases hme : d = deviceId s
  · rcases hdest with h | h <;> simp [collectiveMissing, hme, hsource, h]
  · obtain ⟨o, ho, hod⟩ := (hheard d hd).resolve_left hme
    simpa [collectiveMissing, hme] using ⟨o.2, hod ▸ ho⟩

section
variable {s : State} {x : Packet} {others : List (Nat × List Byte)} (hown : deviceId s ∈ maskDevices (pfld x 0x28 8))
include hown

theorem collectiveDraw_of_member : collectiveDraw s x = (List.range 4).map fun n =>
    if (rangeLevels ((pfld x 0x10 8, pfld x 0x20 8) ::
      if nbit (pfld x 0x18 8) 63 then [] else [(pfld x 0x18 8, pfld x 0x20 8)])).contains n then 30 else 0 := by
  cases hb : nbit (pfld x 0x18 8) 63 <;> simp [collectiveDraw, hown, hb]

theorem collectiveLost_of_whole (hsource : lostIn s (pfld x 0x10 8) (pfld x 0x20 8) = none)
    (hdest : nbit (pfld x 0x18 8) 63 = true ∨ lostIn s (pfld x 0x18 8) (pfld x 0x20 8) = none) : collectiveLost s x = none := by
  rcases hdest with h | h <;> simp [collectiveLost, hown, hsource, h]

theorem collectiveOrder_of_member :
    let ds := maskDevices (pfld x 0x28 8)
    let listed := ((others.map (·.1)).filter ds.contains).eraseDups
    collectiveOrder s x others =
      if pfld x 0x31 1 = 1 then ds else if listed.contains (deviceId s) then listed else deviceId s :: listed := by
  intro ds listed
  have hds : ds.contains (deviceId s) = true := by simpa using hown
  have horder : collectiveOrder s x others = if pfld x 0x31 1 = 1 then ds
      else if ds.contains (deviceId s) && !listed.contains (deviceId s) then deviceId s :: listed else listed := rfl
  rw [horder, hds]
  cases listed.contains (deviceId s) <;> simp

end

/-- Settles O40, command by command. -/
theorem cascadeCommandsAct : Obligations.CascadeCommandsAct := by
  refine ⟨fun s k x h hdone hready => ⟨fun hpith htopo hdomain hsystem hmembers hratio =>
      exec_cascadeConfig_member h hdone hready hpith htopo hdomain hsystem hmembers hratio,
    fun hpith htopo hfirst => exec_cascadeConfig_pithead h hdone hready hpith htopo hfirst⟩,
    fun s k x replies h hpith hready => exec_cascadeForward replies h hpith hready, ?_⟩
  intro s k x j others h hfields me src len ds hpresent hown hsource hdest hheard cs begun draw hnumber hroom u v w part listed order
  have hdraw : collectiveDraw s x = draw := collectiveDraw_of_member hown
  have hv : collectiveAsked s k x j.lc = v := by
    simp only [collectiveAsked, hdraw]
    rfl
  have hds : ds.contains (deviceId s) = true := by simpa using hown
  have hthere : ds.find? (fun d => !s.casc.present.contains d) = none := by simpa [List.find?_eq_none] using hpresent
  have hplace : ¬ ((!begun) = true ∧ cs.length ≥ 4) := by
    rcases hroom with hb | ⟨hlen, _⟩
    · simp [hb]
    · exact fun hfull => Nat.not_le.mpr hlen hfull.2
  have hadmissible : ¬ (neverAdmissible s.power (collectiveDraw s x) = true ∧ (!begun) = true) := by
    rcases hroom with hb | ⟨_, hnever⟩
    · simp [hb]
    · simp [hdraw, hnever]
  have hrow : exec (.collective k others) s = if !hasGrant v (.command k) then .next v
      else match collectiveLost s x with
        | some a => .next (refuse (memFatal w a false) k stFaultFatal 0)
        | none => .next (releaseLeave (replyOk
            (collectiveDeliver (binReads w src len) x (collectiveTotal s x others order)) k ds.length (cdiv len 2048)) (.command k)) := by
    rw [exec_collective_eq others h hfields, hthere, collectiveMissing_of_heard hsource hdest hheard]
    dsimp only
    rw [hv, hds, collectiveOrder_of_member hown, if_pos rfl, if_neg fun hc => Bool.false_ne_true (hnumber.symm.trans hc), if_neg hplace,
      if_neg hadmissible]
  rw [hrow]
  refine ⟨fun hno => if_pos (by simp [hno]), fun hgrant hsrc hdst => ?_⟩
  rw [if_neg (by simp [hgrant]), collectiveLost_of_whole hown hsrc hdst]
  rfl

end Sys2Proof.Machine
